-- ==== Sys2Proof/Word.lean ====
section
/-! DEFINITION. The word types of the Moldor architecture (spec 00, R4): bit strings of fixed width. -/

namespace Sys2Proof

/-- A byte of memory. -/
abbrev Byte := BitVec 8
/-- A 32-bit word: one lane of one V register (R168). -/
abbrev W32 := BitVec 32
/-- A 64-bit word: an S register, an address operand, a control register. -/
abbrev W64 := BitVec 64
/-- A set of lanes of one caravan, lane L at bit L (R59: mask word w is bits 32w+31 : 32w). -/
abbrev Mask := BitVec 1024

end Sys2Proof
end

