-- ==== Sys2Proof/Config.lean ====
section
/-! DEFINITION. What the manual leaves open: free values. None has a body, so no proof can see a value of one. -/

namespace Sys2Proof.Config

/-- The local cycle count that CSRR CYCLE reads on a core after a number of model steps (R225, R3; log 5). -/
opaque cycles : Nat → Nat → BitVec 64

/-- The byte that a DRAM sector reads as where nothing has written it since bring-up, or where it was written under
another key: a function of the flat address, the key slot and how often that slot was loaded (R122, R373; log 2). -/
opaque coldByte : Nat → Nat → Nat → BitVec 8

/-- The plaintext byte of a sector whose cells hold an undetected or miscorrected error (R125; log 6). -/
opaque brokenByte : Nat → Nat → BitVec 8

/-- What the cells hold of a sector's 32 bytes: AES-256-XTS under a key slot and how often that slot was loaded, at a sector
number (R122, R373; log 97). -/
opaque sealed : Nat → Nat → Nat → BitVec 256 → BitVec 256

/-- Bytes of a fabric extent's line as they go to its node, and as they come from it: under a key slot, how often it was
loaded, the extent and the offset (R116; log 97). -/
opaque extentSealed : Nat → Nat → Nat → Nat → BitVec 128 → BitVec 128
opaque extentOpened : Nat → Nat → Nat → Nat → BitVec 128 → BitVec 128

/-- The set of the memory-side cache, and of a die's L2, that a line of an ASID occupies (R12, R128; log 21). -/
opaque mscSet : Nat → Nat → Nat
opaque l2Set : Nat → Nat → Nat

/-- A fresh unconstrained 64-bit value, one for each value of the state's free-value counter (log 4). -/
opaque freeWord : Nat → BitVec 64

/-- Identity of the device that a save image carries (R29 gives the field, not the value; log 7). -/
opaque deviceId : BitVec 64

/-- Length in bytes of a section of a save image whose layout the manual does not give: by type and number of items (R29; log 17). -/
opaque sectionBytes : Nat → Nat → Nat

/-- Whether a link's port reaches the same next hop as another port (R150; the topology is outside the manual; log 8). -/
opaque sameHop : Nat → Nat → Bool

/-- The port on which requests to a node are sent (R149; the topology is outside the manual; log 8). -/
opaque portTo : Nat → Nat

/-- The SHA-512 digest of a measured item, by the measuring at which it was taken (R374; log 9). -/
opaque measurement : Nat → Nat → BitVec 512

/-- What any other SPDM answer carries: certificates, digests, signatures, keys (R374; log 9). -/
opaque spdmData : Nat → BitVec 512

/-- The random key that firmware loads into slot 0 at bring-up step 6 (R379; log 9). -/
opaque bootKey : Nat → BitVec 512

end Sys2Proof.Config
end

