-- ==== Sys2Proof/Machine/Sparse.lean ====
section
/-! DEFINITION. Sparse data by number, in one canonical form: keys strictly rising, and no entry equal to what an
unlisted key reads as. Memory, register windows and every indexed set of units of the device are kept this way. -/

namespace Sys2Proof.Machine

/-- What key `a` reads as; `d` for an unlisted key. -/
def sget {β : Type} (d : β) : List (Nat × β) → Nat → β
  | [], _ => d
  | (k, v) :: r, a => if k = a then v else sget d r a

/-- Put `x` at key `a`, keeping the order of the keys. -/
def sput {β : Type} : List (Nat × β) → Nat → β → List (Nat × β)
  | [], a, x => [(a, x)]
  | (k, v) :: r, a, x =>
    if a < k then (a, x) :: (k, v) :: r else if a = k then (a, x) :: r else (k, v) :: sput r a x

/-- Take key `a` out. -/
def sdel {β : Type} (m : List (Nat × β)) (a : Nat) : List (Nat × β) := m.filter (fun p => p.1 != a)

/-- Set key `a` to `x`: its entry comes out, and goes in again unless `x` is what an unlisted key reads as. -/
def sset {β : Type} [DecidableEq β] (d : β) (m : List (Nat × β)) (a : Nat) (x : β) : List (Nat × β) :=
  if x = d then sdel m a else sput (sdel m a) a x

/-- The keys rise strictly, each above `lo`, and no entry is `d`. -/
def swfFrom {β : Type} [DecidableEq β] (d : β) : Nat → List (Nat × β) → Bool
  | _, [] => true
  | lo, (k, v) :: r => decide (lo ≤ k) && decide (v ≠ d) && swfFrom d (k + 1) r

/-- The canonical form. -/
def swf {β : Type} [DecidableEq β] (d : β) (m : List (Nat × β)) : Bool := swfFrom d 0 m

/-- Memory: the device's whole storage, byte by byte, by flat address (see `Flat`). -/
abbrev Memory := List Host.Cell

/-- What an address that nothing has written holds (log 3: zero bytes; a DRAM sector's reading is decided by its
attributes, log 2). -/
def Memory.unlisted : Byte := 0

def Memory.wf (m : Memory) : Bool := swf Memory.unlisted m

def mget (m : Memory) (a : Nat) : Byte := sget Memory.unlisted m a
def mset (m : Memory) (a : Nat) (x : Byte) : Memory := sset Memory.unlisted m a x

/-- n bytes from `a` upward as a number, little-endian (R4). -/
def mload (m : Memory) (a : Nat) : Nat → Nat
  | 0 => 0
  | n + 1 => (mget m a).toNat + 256 * mload m (a + 1) n

/-- Store the low n bytes of a number from `a` upward, little-endian (R4). -/
def mstore (m : Memory) (a : Nat) : Nat → Nat → Memory
  | 0, _ => m
  | n + 1, x => mstore (mset m a (BitVec.ofNat 8 x)) (a + 1) n (x / 256)

/-- Make n bytes from `a` upward zero. -/
def mzero (m : Memory) (a n : Nat) : Memory := m.filter (fun p => !(a ≤ p.1 && p.1 < a + n))

/-! ## Flat addresses: where each store of the device lies in `Memory` -/

namespace Flat
/-- DRAM: byte A of channel c (R118). -/
def dram (c a : Nat) : Nat := c * 2 ^ 31 + a
/-- Core store: byte o of device core k (R12). -/
def core (k o : Nat) : Nat := 2 ^ 40 + k * 2 ^ 22 + o
/-- Accumulator store: byte o of device core k (R12). -/
def accum (k o : Nat) : Nat := 2 ^ 41 + k * 2 ^ 19 + o
/-- Pinned ways of the L2 of die d (R102). -/
def pinned (d o : Nat) : Nat := 2 ^ 42 + d * 2 ^ 26 + o
def isDram (f : Nat) : Bool := f < 2 ^ 40
def chan (f : Nat) : Nat := f / 2 ^ 31
/-- The channel-local address (R102). -/
def local_ (f : Nat) : Nat := f % 2 ^ 31
def bank (f : Nat) : Nat := f % 2 ^ 31 / 2 ^ 25
def row (f : Nat) : Nat := f % 2 ^ 25 / 1024
end Flat

end Sys2Proof.Machine
end

