-- ==== Sys2Proof/Syntax.lean ====
section
/-! DEFINITION. The instructions and steps of the Trolyn 9: one constructor for each row of the opcode table. Core
instructions carry the fields of the 96-bit word (R210), executor instructions the operand fields of R140, and the
device's own steps and the inputs from outside the values that the step's rule speaks of. -/

namespace Sys2Proof

/-- GRD: predicate number and negation (R210, R211). Predicate 63 means always. -/
structure Guard where
  pred : BitVec 6
  neg  : Bool
  deriving DecidableEq, Repr

/-- HNT: stall clocks, token to set, tokens to wait for (R210, R212). -/
structure Hints where
  stall : BitVec 3
  setv  : Bool
  setk  : BitVec 3
  wait  : BitVec 8
  deriving DecidableEq, Repr

/-- An 18-bit operand field, by kind and special class (R213, R215). `raw` is the field of WAITC and REGION, which
have no operand kinds (R220, R276). -/
inductive Operand where
  /-- V register: number, read permutation (R217), sub-modifier HALF, ABS, NEG in bits 3:2, 1, 0 (R214). -/
  | v (reg : BitVec 8) (perm : BitVec 4) (sub : BitVec 4)
  | s (n : BitVec 6)
  | imm (x : BitVec 16)
  | pred (n : BitVec 6)
  | queue (n : BitVec 3)
  | tile (n : BitVec 7)
  | acc (n : BitVec 6)
  /-- Manifest role with tile (class 5). -/
  | role (r : BitVec 3) (t : BitVec 7)
  | csr (n : BitVec 12)
  | raw (x : BitVec 18)
  deriving DecidableEq, Repr

/-- The fields of a core instruction word other than OPC (R210). -/
structure Fields where
  g : Guard
  h : Hints
  d : Operand
  a : Operand
  b : Operand
  m : BitVec 10
  deriving DecidableEq, Repr

/-- A kernel: its context and its handle, the queue and the record's index (R44). -/
structure KernelId where
  ctx : Nat
  q   : Nat
  idx : Nat
  deriving DecidableEq, Repr

/-- The fabric's traffic classes (R150). -/
inductive TrafficClass where
  | reliable | lossy | management
  deriving DecidableEq, Repr

/-- A flit that failed its check: its class, and whether this device had sent it or received it (R144). -/
structure FailedFlit where
  cls  : TrafficClass
  sent : Bool
  deriving DecidableEq, Repr

/-- A cache: a core's L1, a die's L2, a channel's memory-side cache (R12). -/
inductive CacheId where
  | l1 (core : Nat)
  | l2 (die : Nat)
  | msc (ch : Nat)
  deriving DecidableEq, Repr

/-- What a remote request asks for (R148, R149). -/
inductive RemoteKind where
  | rd | wr
  /-- An atomic, by the op and type codes of R270. -/
  | at (op : BitVec 3) (t : BitVec 2)
  deriving DecidableEq, Repr

/-- A reliable request that arrives from another node (R147, R149). -/
structure RemoteReq where
  node : BitVec 16
  sctx : BitVec 8
  tctx : BitVec 8
  va   : BitVec 64
  kind : RemoteKind
  /-- Bytes: 1, 2, 4, 8 or 16. -/
  size : Nat
  data : BitVec 128
  deriving DecidableEq, Repr

/-- The outcomes with which a target answers (R149). -/
inductive RemoteOutcome where
  | performed | permission | outOfRange | extentGone
  deriving DecidableEq, Repr

/-- A lossy block: the source, which travels in the routing header, the header flit and the payload (R151). -/
structure LossyBlock where
  src     : BitVec 16
  sctx    : BitVec 8
  header  : BitVec 512
  payload : BitVec 2048
  deriving DecidableEq, Repr

namespace LossyBlock
def tctx (b : LossyBlock) : BitVec 8 := (b.header >>> 8).setWidth 8
def xfer (b : LossyBlock) : BitVec 32 := (b.header >>> 16).setWidth 32
def index (b : LossyBlock) : BitVec 16 := (b.header >>> 48).setWidth 16
def va (b : LossyBlock) : BitVec 64 := (b.header >>> 64).setWidth 64
def chk (b : LossyBlock) : BitVec 32 := (b.header >>> 480).setWidth 32
end LossyBlock

/-- The end marker of a lossy transfer (R151). -/
structure EndMarker where
  src    : BitVec 16
  sctx   : BitVec 8
  tctx   : BitVec 8
  xfer   : BitVec 32
  n      : Nat
  base   : BitVec 64
  valVa  : BitVec 64
  cntVa  : BitVec 64
  notVa  : BitVec 64
  deriving DecidableEq, Repr

/-- The instructions and steps: one constructor for each row of the opcode table. -/
inductive Instr where
  /-- Does nothing except act on its hints (R230). -/
  | nop (f : Fields)
  /-- Branches uniformly, or diverges and pushes join and pending entries when the active lanes disagree (R231). -/
  | bra (f : Fields)
  /-- Branches uniformly to the address held in an S register (R232). -/
  | brx (f : Fields)
  /-- Branches when at least one active lane's condition holds (R233). -/
  | brany (f : Fields)
  /-- Branches when every active lane's condition holds (R233). -/
  | brall (f : Fields)
  /-- Writes the return address to an S register and branches uniformly (R232). -/
  | call (f : Fields)
  /-- Branches uniformly to the return address held in an S register (R232). -/
  | ret (f : Fields)
  /-- At a join PC, switches to the pending path or pops the region and restores the join mask (R62). -/
  | reconv (f : Fields)
  /-- Makes all active lanes, or the predicated ones, exit; in an access slice it ends the slice and closes its queues (R234). -/
  | exitI (f : Fields)
  /-- Makes the caravan ineligible while another caravan of the core is eligible, for at most 16 clocks (R235). -/
  | yield (f : Fields)
  /-- Puts the caravan in SLEEPING for n local clocks (R235). -/
  | sleep (f : Fields)
  /-- Raises the caravan cause SOFTWARE with a 16-bit code (R236). -/
  | trap (f : Fields)
  /-- Raises the caravan cause BREAKPOINT with a 16-bit code (R236). -/
  | brk (f : Fields)
  /-- Reads a mask word or the summary word into an S register (R237). -/
  | mskget (f : Fields)
  /-- Clears bits of a mask word, refusing to empty the whole mask (R237). -/
  | mskset (f : Fields)
  /-- Integer add per lane, optionally saturating (R239). -/
  | iadd (f : Fields)
  /-- Integer subtract per lane, optionally saturating (R239). -/
  | isub (f : Fields)
  /-- Writes the low 32 bits of the product per lane (R239). -/
  | imul (f : Fields)
  /-- Writes the high 32 bits of the signed or unsigned product per lane (R239). -/
  | imulh (f : Fields)
  /-- Adds the low 32 bits of a product to the old destination per lane (R239). -/
  | imad (f : Fields)
  /-- Writes the lesser of two integers per lane (R239). -/
  | imin (f : Fields)
  /-- Writes the greater of two integers per lane (R239). -/
  | imax (f : Fields)
  /-- Writes the absolute value per lane, optionally saturating (R239). -/
  | iabs (f : Fields)
  /-- Adds with a carry predicate and writes the carry out (R239). -/
  | iaddc (f : Fields)
  /-- Subtracts with a borrow predicate and writes the borrow out (R239). -/
  | isubb (f : Fields)
  /-- Shifts left logically per lane (R239). -/
  | shl (f : Fields)
  /-- Shifts right logically per lane (R239). -/
  | shr (f : Fields)
  /-- Shifts right arithmetically per lane (R239). -/
  | sar (f : Fields)
  /-- Rotates left per lane (R239). -/
  | rotl (f : Fields)
  /-- Bitwise AND per lane (R239). -/
  | andI (f : Fields)
  /-- Bitwise OR per lane (R239). -/
  | orI (f : Fields)
  /-- Bitwise XOR per lane (R239). -/
  | xorI (f : Fields)
  /-- Bitwise AND with the complement of the second source per lane (R239). -/
  | andn (f : Fields)
  /-- Bitwise complement per lane (R239). -/
  | notI (f : Fields)
  /-- Computes each bit from a three-input truth table over the old destination and two sources (R239). -/
  | ttab (f : Fields)
  /-- Extracts a bit field with sign or zero extension (R240). -/
  | bfe (f : Fields)
  /-- Inserts a bit field into the old destination (R240). -/
  | bfi (f : Fields)
  /-- Counts the set bits per lane (R239). -/
  | popc (f : Fields)
  /-- Counts the leading zeros per lane (R239). -/
  | clz (f : Fields)
  /-- Reverses the bits per lane (R239). -/
  | brev (f : Fields)
  /-- Selects bytes from two sources under control of the old destination (R240). -/
  | prmt (f : Fields)
  /-- Compares integers and writes a predicate per lane (R239). -/
  | iset (f : Fields)
  /-- Adds 64-bit register pairs per lane (R239). -/
  | iadd64 (f : Fields)
  /-- Multiplies 32-bit values and adds the old 64-bit pair per lane (R239). -/
  | imad64 (f : Fields)
  /-- Selects one of two sources by a predicate per lane (R239). -/
  | sel (f : Fields)
  /-- Copies a value or a register pair per lane (R239). -/
  | mov (f : Fields)
  /-- Writes a 32-bit immediate per lane (R239). -/
  | movi (f : Fields)
  /-- FP32 add per lane with one rounding (R252). -/
  | fadd (f : Fields)
  /-- FP32 multiply per lane with one rounding (R252). -/
  | fmul (f : Fields)
  /-- FP32 fused multiply-add per lane with one rounding (R252). -/
  | ffma (f : Fields)
  /-- FP32 minimumNumber, or minimum under .NAN (R253). -/
  | fmin (f : Fields)
  /-- FP32 maximumNumber, or maximum under .NAN (R253). -/
  | fmax (f : Fields)
  /-- Compares FP32 values and writes a predicate (R254). -/
  | fset (f : Fields)
  /-- Correctly rounded FP32 reciprocal (R255). -/
  | frcp (f : Fields)
  /-- Correctly rounded FP32 reciprocal square root (R255). -/
  | frsq (f : Fields)
  /-- Correctly rounded FP32 square root (R255). -/
  | fsqrt (f : Fields)
  /-- Correctly rounded FP32 base-2 exponential (R255). -/
  | fex2 (f : Fields)
  /-- FP32 base-2 logarithm within one unit in the last place (R256). -/
  | flg2 (f : Fields)
  /-- Rounds an FP32 value to an integer value (R257). -/
  | frnd (f : Fields)
  /-- Scales an FP32 value by a power of two with one rounding (R258). -/
  | fscl (f : Fields)
  /-- Writes a one-hot class word for a floating-point value (R259). -/
  | fclass (f : Fields)
  /-- FP64 add per lane with one rounding (R252). -/
  | dadd (f : Fields)
  /-- FP64 multiply per lane with one rounding (R252). -/
  | dmul (f : Fields)
  /-- FP64 fused multiply-add per lane with one rounding (R252). -/
  | dfma (f : Fields)
  /-- FP64 minimumNumber, or minimum under .NAN (R253). -/
  | dmin (f : Fields)
  /-- FP64 maximumNumber, or maximum under .NAN (R253). -/
  | dmax (f : Fields)
  /-- Compares FP64 values and writes a predicate (R254). -/
  | dset (f : Fields)
  /-- Adds packed 16-bit floating-point pairs (R252). -/
  | pkadd (f : Fields)
  /-- Multiplies packed 16-bit floating-point pairs (R252). -/
  | pkmul (f : Fields)
  /-- Fused multiply-add on packed 16-bit floating-point pairs (R252). -/
  | pkfma (f : Fields)
  /-- Compares packed 16-bit elements and writes all-ones or zero masks (R254). -/
  | pkset (f : Fields)
  /-- Converts between floating-point and integer types (R260). -/
  | cvt (f : Fields)
  /-- Converts to or from SI8 and SI4 (R261). -/
  | cvtsi (f : Fields)
  /-- Encodes FP32 into a DXB block with its exponent pair, or decodes under .DEC (R262). -/
  | cvtdx (f : Fields)
  /-- Computes a predicate from a truth table over three predicates (R243). -/
  | plop (f : Fields)
  /-- Moves between predicates and V registers (R243). -/
  | pmov (f : Fields)
  /-- Gathers one predicate bit from every lane of a word that takes part (R243). -/
  | ballot (f : Fields)
  /-- Computes ANY, ALL or UNI over the lanes that take part (R243). -/
  | vote (f : Fields)
  /-- Writes the lane index, its index in its word, or its word number (R243). -/
  | laneid (f : Fields)
  /-- Reads a register from a source lane within a segment (R245). -/
  | shfl (f : Fields)
  /-- Reduces a value over the lanes that take part (R243). -/
  | redux (f : Fields)
  /-- Computes an inclusive or exclusive prefix over the lanes that take part (R243). -/
  | scan (f : Fields)
  /-- Writes a mask of the lanes holding an equal value (R243). -/
  | matchLanes (f : Fields)
  /-- Writes the least lane that takes part with its predicate set (R243). -/
  | firstLane (f : Fields)
  /-- Copies a scalar value (R246). -/
  | smov (f : Fields)
  /-- Writes an extended 32-bit immediate, or the high half under .HI (R246). -/
  | smovi (f : Fields)
  /-- 64-bit scalar add (R246). -/
  | sadd (f : Fields)
  /-- 64-bit scalar subtract (R246). -/
  | ssub (f : Fields)
  /-- Writes the low 64 bits of a scalar product (R246). -/
  | smul (f : Fields)
  /-- Scalar bitwise AND (R246). -/
  | sand (f : Fields)
  /-- Scalar bitwise OR (R246). -/
  | sor (f : Fields)
  /-- Scalar bitwise XOR (R246). -/
  | sxor (f : Fields)
  /-- Scalar shift left (R246). -/
  | sshl (f : Fields)
  /-- Scalar shift right, logical or arithmetic (R246). -/
  | sshr (f : Fields)
  /-- Scalar compare that writes 1 or 0 (R246). -/
  | sset (f : Fields)
  /-- Selects one of two scalars by the old destination (R246). -/
  | ssel (f : Fields)
  /-- Scalar load as one plain access of the lowest active lane (R247). -/
  | sld (f : Fields)
  /-- Scalar store as one plain access of the lowest active lane (R247). -/
  | sst (f : Fields)
  /-- Writes half of an S register to a V register of every active lane (R248). -/
  | s2v (f : Fields)
  /-- Reads one lane's V register into an S register (R248). -/
  | v2s (f : Fields)
  /-- Loads per lane, plain or as a relaxed strong access at a scope (R266). -/
  | ld (f : Fields)
  /-- Stores per lane, plain or as a relaxed strong access at a scope (R266). -/
  | st (f : Fields)
  /-- Loads from the lane's private memory (R267). -/
  | ldl (f : Fields)
  /-- Stores to the lane's private memory (R267). -/
  | stl (f : Fields)
  /-- Loads from a cluster core's store through the core window (R268). -/
  | ldw (f : Fields)
  /-- Stores to a cluster core's store through the core window (R268). -/
  | stw (f : Fields)
  /-- Loads one value once and replicates it to every lane that takes part (R269). -/
  | ldr (f : Fields)
  /-- Performs an atomic read-modify-write per lane and returns the old value (R271). -/
  | atom (f : Fields)
  /-- Performs an atomic reduction per lane without a return value (R271). -/
  | red (f : Fields)
  /-- Performs an atomic compare-and-swap per lane (R271). -/
  | cas (f : Fields)
  /-- Loads a sector's free metadata bits at the channel point (R272). -/
  | mdld (f : Fields)
  /-- Stores a sector's free metadata bits at the channel point (R272). -/
  | mdst (f : Fields)
  /-- Prefetches a line into L1, L2 or the memory-side cache (R273). -/
  | prf (f : Fields)
  /-- Cleans or drops a line in L1 or the home L2 (R274). -/
  | cctl (f : Fields)
  /-- The access slice loads one entry into an operand queue (R275). -/
  | ldq (f : Fields)
  /-- Writes staged registers back to the window, returns extra slots and stages the named registers (R276). -/
  | region (f : Fields)
  /-- Performs a release, an acquire, both, or an SC fence at a scope (R278). -/
  | fence (f : Fields)
  /-- Performs a release, optionally joined to a strong scalar store (R279). -/
  | rel (f : Fields)
  /-- Performs an acquire, optionally joined to a strong scalar load (R279). -/
  | acq (f : Fields)
  /-- Blocks until every counter is at or below its threshold (R280). -/
  | waitc (f : Fields)
  /-- Places an ordering marker in the caravan's request stream, or the party's under .PARTY (R281). -/
  | mark (f : Fields)
  /-- Initialises a barrier of the party (R282). -/
  | barinit (f : Fields)
  /-- Releases at PARTY scope and arrives at a barrier (R282). -/
  | bararv (f : Fields)
  /-- Adds expected bytes to a barrier's phase (R282). -/
  | barexp (f : Fields)
  /-- Waits for a barrier phase to flip, then acquires at PARTY scope (R282). -/
  | barwait (f : Fields)
  /-- Writes whether a barrier phase has flipped, without waiting (R282). -/
  | bartest (f : Fields)
  /-- Presents a key to create or join a party and writes the status (R283). -/
  | join (f : Fields)
  /-- Leaves the party after CP, MX and CL reach zero (R283). -/
  | leave (f : Fields)
  /-- Reads a party-table entry or barrier record (R283). -/
  | partyq (f : Fields)
  /-- Appends the lanes' arguments to the die's spawn bin for an entry (R284). -/
  | spawn (f : Fields)
  /-- Reads a kernel's status word by handle (R285). -/
  | termq (f : Fields)
  /-- Requests accumulator granules for the party bound to a Z name (R286). -/
  | accalloc (f : Fields)
  /-- Frees the granules bound to a Z name once no matrix instruction uses them (R286). -/
  | accfree (f : Fields)
  /-- Defines a tile-table entry as EMPTY (R308). -/
  | tdef (f : Fields)
  /-- Returns a tile to EMPTY (R308). -/
  | tfree (f : Fields)
  /-- Reads half of a tile-table entry (R308). -/
  | tstat (f : Fields)
  /-- Loads words of a tile into V registers (R309). -/
  | tld (f : Fields)
  /-- Fills an EMPTY tile from V registers (R309). -/
  | tst (f : Fields)
  /-- Copies bytes from memory to memory (R313). -/
  | cpl (f : Fields)
  /-- Copies a four-dimensional box of memory into an EMPTY tile (R312). -/
  | cpt (f : Fields)
  /-- The access slice copies memory into operand-queue entries (R314). -/
  | cpq (f : Fields)
  /-- Copies a tile out to a memory box as a send (R312). -/
  | cpo (f : Fields)
  /-- Closes an operand queue and drops its invisible entries (R315). -/
  | qclose (f : Fields)
  /-- Reads an operand queue's state word (R315). -/
  | qstat (f : Fields)
  /-- Integer matrix multiply-accumulate into an INT32 accumulator (R297). -/
  | mma (f : Fields)
  /-- 2:4 sparse integer matrix multiply-accumulate with queued metadata (R297). -/
  | mmas (f : Fields)
  /-- Forms the four block-format partials over one 32-element block (R298). -/
  | mmx (f : Fields)
  /-- Scales the partials by exponent pairs and adds them into an FP32 accumulator (R299). -/
  | msca (f : Fields)
  /-- FP64 or FP32 matrix product by integer slices (R300). -/
  | msl (f : Fields)
  /-- Zeroes every granule bound to a Z name (R299). -/
  | mzero (f : Fields)
  /-- Loads a tile into an accumulator exactly (R299). -/
  | mlda (f : Fields)
  /-- Converts an accumulator into a tile and makes the tile READY (R299). -/
  | mcvt (f : Fields)
  /-- Reads an accumulator name's header (R301). -/
  | mstat (f : Fields)
  /-- A party member requests a collective on a tile; the last member posts the relay request (R323). -/
  | coll (f : Fields)
  /-- Relay software completes a collective request's send, barrier arrival and INSTANCE_DONE (R323). -/
  | collDone (f : Fields)
  /-- Reliable remote load per lane (R320). -/
  | rld (f : Fields)
  /-- Reliable remote store per lane (R320). -/
  | rst (f : Fields)
  /-- Sends a whole tile as blocks on the reliable or lossy class (R321). -/
  | rstBlk (f : Fields)
  /-- Performs one chunk of an all-reduce over a communicator (R322). -/
  | rred (f : Fields)
  /-- Remote atomic per lane at SYSTEM scope (R320). -/
  | ratom (f : Fields)
  /-- Sets a predicate from a block's validity bit (R324). -/
  | vmask (f : Fields)
  /-- Rescales a lossy sum by n over its count (R324). -/
  | vrsc (f : Fields)
  /-- Combines two attention triples per lane (R325). -/
  | msv (f : Fields)
  /-- Reports the chunk about to start and receives GRANT or PAUSE (R326). -/
  | gangq (f : Fields)
  /-- Acknowledges a pending gang pause (R326). -/
  | gangack (f : Fields)
  /-- Mode word step 1 takes a NORMAL channel to ARMING (R133). -/
  | xmodeStep1 (f : Fields)
  /-- Mode word step 2 advances ARMING from the same context (R133). -/
  | xmodeStep2 (f : Fields)
  /-- Mode word step 3 zeroes the executors and enters COMPUTE, posting MODE_ENTERED (R133). -/
  | xmodeStep3 (f : Fields)
  /-- Mode word Exit from the owner takes the channel to EXITING (R133). -/
  | xmodeExit (f : Fields)
  /-- Writes a program into every executor's program memory (R328). -/
  | xprog (f : Fields)
  /-- Writes 32 bytes to the executors' inboxes and makes one advance (R328). -/
  | xcol (f : Fields)
  /-- Makes one advance and returns a bank's RESP (R328). -/
  | xread (f : Fields)
  /-- Reads a bank executor's status word between advances (R328). -/
  | xstat (f : Fields)
  /-- Returns every executor of the channel to IDLE (R328). -/
  | xreset (f : Fields)
  /-- Opens an access-engine loop, or skips it when the count is zero (R317). -/
  | afor (f : Fields)
  /-- Advances the loop address and repeats or pops the loop (R317). -/
  | aend (f : Fields)
  /-- Pushes a computed arithmetic sequence into an operand queue (R318). -/
  | qpush (f : Fields)
  /-- Blocks the slice until a tile is EMPTY or READY (R318). -/
  | await (f : Fields)
  /-- Reads a control register (R330). -/
  | csrr (f : Fields)
  /-- Writes a control register by its access code (R330). -/
  | csrw (f : Fields)
  /-- Releases a parked source under its PARKID and writes DONE or NOT_PARKED (R113). -/
  | replay (f : Fields)
  /-- Invalidates translations and writes back and drops cached lines of a range (R107). -/
  | tlbinv (f : Fields)
  /-- Releases at SYSTEM scope and posts a USER event record (R331). -/
  | evpost (f : Fields)
  /-- Appends a launch record to a launch queue and advances its producer index (R332). -/
  | launch (f : Fields)
  /-- Returns a trapped caravan to READY with chosen deferred lanes restored (R333). -/
  | resume (f : Fields)
  /-- Kills chosen lanes of a trapped caravan (R333). -/
  | kill (f : Fields)
  /-- Creates a context from a descriptor (R23). -/
  | ctxopCreate (f : Fields)
  /-- Reserves relay clusters, reads headers and the launch-queue table, and makes the context ACTIVE (R23). -/
  | ctxopActivate (f : Fields)
  /-- Starts the pre-emption ladder at DRAINING, or SAVING with SKIPDRAIN (R23). -/
  | ctxopPreempt (f : Fields)
  /-- Starts restoring a SAVED context from its save image (R23). -/
  | ctxopRestore (f : Fields)
  /-- Moves a context to RESETTING (R23). -/
  | ctxopReset (f : Fields)
  /-- Frees a CREATED or DEAD context and its resources (R23). -/
  | ctxopDestroy (f : Fields)
  /-- Reports a context's state and save size (R23). -/
  | ctxopQuery (f : Fields)
  /-- Reloads the modifiable descriptor fields of a CREATED or SAVED context (R23). -/
  | ctxopModify (f : Fields)
  /-- Reads an energy counter or the context's energy values (R334). -/
  | energyq (f : Fields)
  /-- Executor instruction that does nothing (R140). -/
  | execNop
  /-- Reads a row of the bank into the executor's latch (R141). -/
  | latch (r : BitVec 15)
  /-- Writes the latch to a row of the bank (R141). -/
  | store (r : BitVec 15)
  /-- Sets KEY from an immediate half, an inbox word or a latch word (R140). -/
  | setk (s : BitVec 2) (v : BitVec 16)
  /-- Sets MASK from an immediate half, an inbox word or a latch word (R140). -/
  | setm (s : BitVec 2) (v : BitVec 16)
  /-- Shifts KEY and MASK together (R140). -/
  | shk (d : BitVec 1) (n : BitVec 5)
  /-- Tags the latch words that match KEY under MASK (R140). -/
  | cmp (v : BitVec 1)
  /-- ANDs the match into a tag vector (R140). -/
  | cmpa (v : BitVec 1)
  /-- ORs the match into a tag vector (R140). -/
  | cmpo (v : BitVec 1)
  /-- Complements a tag vector (R140). -/
  | tnot (v : BitVec 1)
  /-- Writes KEY under MASK into the tagged latch words (R140). -/
  | wr (v : BitVec 1)
  /-- Writes KEY under MASK into the untagged latch words (R140). -/
  | wrn (v : BitVec 1)
  /-- Combines TAG into TAG2 (R140). -/
  | tsave (f : BitVec 2)
  /-- Combines TAG2 into TAG (R140). -/
  | tload (f : BitVec 2)
  /-- Shifts a tag vector up or down by n words (R140). -/
  | tshf (v : BitVec 1) (d : BitVec 1) (n : BitVec 8)
  /-- Writes the count of set tag bits to a RESP word (R140). -/
  | tcnt (v : BitVec 1) (j : BitVec 3)
  /-- Writes the first set tag index to a RESP word (R140). -/
  | tfst (v : BitVec 1) (j : BitVec 3)
  /-- Writes a latch word to a RESP word (R140). -/
  | rdw (j : BitVec 3) (w : BitVec 8)
  /-- Writes the latch word at the first set tag to a RESP word (R140). -/
  | rdwF (j : BitVec 3) (v : BitVec 1)
  /-- Copies eight latch words to the bank's transfer slot (R140). -/
  | xout (w : BitVec 8)
  /-- Copies another bank's transfer slot into eight latch words (R140). -/
  | xin (b : BitVec 6) (w : BitVec 8)
  /-- Executor release at BANK, CHANNEL or DEVICE scope (R143). -/
  | execRel (s : BitVec 2)
  /-- Executor acquire at BANK, CHANNEL or DEVICE scope (R143). -/
  | execAcq (s : BitVec 2)
  /-- Executor release then acquire at a scope (R140). -/
  | execFence (s : BitVec 2)
  /-- Decrements LC and branches while it was non-zero (R140). -/
  | loop (t : BitVec 8)
  /-- Sets the loop counter (R140). -/
  | setc (n : BitVec 16)
  /-- Puts the executor in HALTED (R140). -/
  | halt
  /-- Copies a tag vector into RESP (R140). -/
  | rtag (v : BitVec 1)
  /-- An XMODE whose word is none of the four well-formed magic words is refused, and in ARMING it aborts the sequence with MODE_ABORTED (R133). -/
  | xmodeOtherWord (f : Fields)
  /-- A caravan or slice issues a word whose opcode is unassigned or whose reserved operation code is used, and takes ILLEGAL_ENCODING (R221). -/
  | illegalWord (w : BitVec 96)
  /-- The channel runs one executor instruction in every running executor in response to one command (R136). -/
  | advance (ch : Nat)
  /-- A device reset frees every context, resets state and restarts bring-up (R377). -/
  | deviceReset
  /-- Bring-up step 1 verifies the firmware images (R376). -/
  | boot (valid : Bool) (counter : Nat)
  /-- Bring-up step 2 trains memory, applies repairs and zeroes every sector (R377). -/
  | repairStep
  /-- Bring-up step 3 fixes the address map, grade policy and pinned capacities (R377). -/
  | mapStep
  /-- Bring-up step 4 takes measurements 1 to 6 (R377). -/
  | measure
  /-- Bring-up step 5 trains the enabled ports (R377). -/
  | links
  /-- The fabric manager assigns the device's node id (R377). -/
  | nodeidAssigned (id : BitVec 16)
  /-- Bring-up step 6 creates context 0, zeroes the CONST tables and posts BRINGUP_DONE (R379). -/
  | systemStep
  /-- No unit of a DRAINING context is resident, so it enters SAVING (R23). -/
  | drained (c : Nat)
  /-- The SAVE deadline expires and a DRAINING context enters SAVING (R23). -/
  | d1Expires (c : Nat)
  /-- The RESET deadline expires and the context enters RESETTING with cause D2 (R23). -/
  | d2Expires (c : Nat)
  /-- The save image is written; the context becomes SAVED and PREEMPT_DONE is posted (R23). -/
  | saved (c : Nat)
  /-- A write to the save area faults or SAVELEN is exceeded, and the context enters RESETTING (R23). -/
  | saveFault (c : Nat)
  /-- A restore finishes; the context becomes ACTIVE and RESTORE_DONE is posted (R28). -/
  | restoreComplete (c : Nat)
  /-- Every resident unit is killed; the context becomes DEAD and RESET_DONE is posted (R23). -/
  | resetDone (c : Nat)
  /-- The front end reads a new producer index with an acquire and offers the new records (R40). -/
  | producerIndexObserved (c q : Nat)
  /-- The front end reads and validates the record at the head of a queue (R44). -/
  | headRead (c q : Nat)
  /-- A head record passes its dependence and energy tests and is admitted (R46). -/
  | admission (c q : Nat)
  /-- The front end re-reads an unmet dependence word after a completion add or every 10 µs (R47). -/
  | dependenceReread (c q : Nat)
  /-- A distributor places an unplaced caravan on an eligible core (R52). -/
  | placement (die : Nat)
  /-- A victim die receives a steal request and splits its share or refuses (R51). -/
  | stealRequest (k : KernelId) (thief victim : Nat)
  /-- A thief die adopts the triple in a steal reply (R51). -/
  | stealReply (k : KernelId) (thief : Nat)
  /-- A die receives another die's advertised remaining caravan count (R51). -/
  | remainingCount (k : KernelId) (src dst count : Nat)
  /-- A spawn bin's timer reaches 4,096 cycles and it launches a partial caravan (R53). -/
  | spawnBinTimeout (die bin : Nat)
  /-- A die's live count reaches zero and it notifies die 0 (R54). -/
  | zeroNotice (k : KernelId) (die : Nat)
  /-- The coordinator completes its two-wave count and may declare the kernel QUIESCENT (R54). -/
  | quiescenceWave (k : KernelId)
  /-- The front end performs a quiescent kernel's completion add and event (R47). -/
  | completionAction (k : KernelId)
  /-- At each 1 ms boundary, ENERGYUSE and ADMITTED_E return to zero (R48). -/
  | controlIntervalBoundary
  /-- After 256 passed-over clocks, a caravan's effective priority rises by one (R66). -/
  | priorityPromotion (core slot : Nat)
  /-- A yielding caravan becomes eligible again after 16 clocks (R235). -/
  | yieldExpires (core slot : Nat)
  /-- A SLEEPING caravan's interval ends and it becomes READY (R65). -/
  | sleepEnd (core slot : Nat)
  /-- A BLOCKED caravan's wait is satisfied, and its instruction completes (R65). -/
  | waitSatisfied (core slot : Nat)
  /-- A finished caravan's CP, MX and CL reach zero; it leaves its party and frees its storage (R65). -/
  | caravanExit (core slot : Nat)
  /-- A leaving member's counters reach zero and it is removed from the party (R77). -/
  | partyDeparture (core slot : Nat)
  /-- A waiting accumulator request reaches the head of the line with granules free (R78). -/
  | accallocGrant (core : Nat)
  /-- Copy bytes land in a FILLING tile, which becomes READY at the last byte (R87). -/
  | copyBytesLand (op : Nat)
  /-- A copy's bytes are performed; it retires from CP and makes its barrier arrival (R311). -/
  | copyComplete (op : Nat)
  /-- A send from a DRAINING tile completes, and the tile returns to READY or EMPTY at the last one (R87). -/
  | sendComplete (op : Nat)
  /-- A pushed operand-queue entry's data lands and becomes visible in order (R90). -/
  | queueEntryVisible (core slot q : Nat)
  /-- The device retries held records on a CONS change, after a TLBINV, or every 1 ms (R112). -/
  | heldRecordRetry (c : Nat) (cons : Option (BitVec 64))
  /-- A request reaches its channel, is translated, checked and performed at the bank (R118). -/
  | channelRequest (op : Nat)
  /-- A refresh-management block of 180 ns ends and queued requests proceed (R130). -/
  | rfmBlockEnd (ch bank : Nat)
  /-- At each 32 ms boundary, counting tables clear and captured rows are written back and released (R129). -/
  | refreshWindowBoundary (ch : Nat)
  /-- An outstanding access completes, writes its destination and retires from its counter (R264). -/
  | memoryReply (op : Nat)
  /-- The dirty-line FIFO drains to a release's marker and the release completes (R197). -/
  | releaseComplete (core slot : Nat)
  /-- A line is evicted, written back and its FIFO entry freed (R197). -/
  | lineEviction (cache : CacheId) (asid : BitVec 16) (line : Nat)
  /-- Invalidation and write-back of the range finish and TLBINV completes with an acquire (R107). -/
  | tlbinvComplete (core slot : Nat)
  /-- Every core holds a context register's new value and the CSRW completes (R330). -/
  | contextRegisterWriteComplete (c : Nat)
  /-- A write to a register without behaviour of its own sets its fields (R119). -/
  | registerWrite (va x : BitVec 64)
  /-- A host's 16-byte write to the replay doorbell replays a park (R113). -/
  | replayDoorbell (node : BitVec 16) (sctx : BitVec 8) (w : BitVec 128)
  /-- The fabric manager grants an extent entry (R116). -/
  | extentGrant (id : Nat) (node : BitVec 16) (base : BitVec 64) (size owner : Nat)
  /-- The fabric manager begins an orderly release and write-back of an extent (R117). -/
  | extentOrderlyRelease (id : Nat)
  /-- The fabric manager forces a release, discarding dirty lines and posting EXTENT_FORCED (R116). -/
  | extentForcedRelease (id : Nat)
  /-- An extent's write-back finishes; it becomes GONE and EXTENT_RELEASED is posted (R117). -/
  | extentWritebackDone (id : Nat)
  /-- 100 µs pass in ARMING and the channel returns to NORMAL with MODE_ABORTED (R133). -/
  | armingTimeout (ch : Nat)
  /-- Queued bank commands complete; the channel returns to NORMAL and posts MODE_EXITED (R133). -/
  | exitingComplete (ch : Nat)
  /-- The oldest ordinary request has waited OBOUND and the channel enters SUSPENDED (R134). -/
  | oboundExpires (ch : Nat)
  /-- The requests queued at suspension are served and the channel returns to COMPUTE (R134). -/
  | snapshotServed (ch : Nat)
  /-- A flit fails its check on receipt at a port, or with `sent` at the peer, to which the port sent it: it is retransmitted or
  discarded (R144). -/
  | flitCheckFail (port : Nat) (flit : FailedFlit)
  /-- Sixteen retransmissions of one flit or loss of lock put the link in RETRAIN (R146). -/
  | retrainEntry (port : Nat)
  /-- Link training completes, the link comes UP and the retry buffer is replayed (R146). -/
  | trainingComplete (port : Nat) (peer : BitVec 16) (peerPort : BitVec 8)
  /-- A third training attempt fails and the link becomes FAILED (R146). -/
  | trainingFailed (port : Nat)
  /-- 1 ms passes in RETRAIN; the link fails and reliable flits are rerouted (R146). -/
  | retrainTimeout (port : Nat)
  /-- Writing DIS as 1 holds the port DOWN and reroutes its reliable flits (R146). -/
  | lctlDisSet (port : Nat)
  /-- Writing DIS as 0 starts training of a DOWN or FAILED port (R146). -/
  | lctlDisClear (port : Nat)
  /-- A remote request arrives at the target and is admitted, refused, held or performed (R149). -/
  | remoteRequest (r : RemoteReq)
  /-- The reply to a remote request arrives at the requester (R149). -/
  | remoteReply (op lane : Nat) (out : RemoteOutcome) (data : BitVec 128)
  /-- A PARKED notice arrives and suspends the request's timer (R149). -/
  | parkedNotice (op lane : Nat)
  /-- A remote request has no reply after 50 ms and ends with OUT_OF_RANGE (R149). -/
  | fabricTimeout (op lane : Nat)
  /-- A peer's context resets and the communicator endpoint becomes BROKEN (R160). -/
  | peerContextReset (c comm : Nat)
  /-- A lossy block arrives and is written or discarded (R152). -/
  | lossyBlock (port : Nat) (b : LossyBlock)
  /-- A lossy transfer's end marker arrives; missing blocks are zero-filled and the arrays written (R152). -/
  | endMarker (m : EndMarker)
  /-- The fabric manager reports a node reset; H is reset and that node's open transfers discarded (R152). -/
  | nodeReset (node : BitVec 16)
  /-- An endpoint receives GANG_QUERY and reports its highest chunk (R160). -/
  | gangQuery (c comm : Nat)
  /-- An endpoint receives PAUSE(c*) and grants chunks up to c* (R161). -/
  | pause (c comm cstar : Nat)
  /-- A paused endpoint receives RESUME and its relay caravans restart at chunk c*+1 (R160). -/
  | gangResume (c comm : Nat)
  /-- INSTANCE_DONE arrives from a peer, freeing the instance slot when all have arrived (R159). -/
  | instanceDone (c comm inst peer : Nat)
  /-- A switch declines a chunk and the relay cores perform it (R155). -/
  | switchDecline (op : Nat)
  /-- A switch aborts an accepted chunk and the relay cores re-run it (R155). -/
  | switchAbort (op : Nat)
  /-- The sequencer starts a matrix instruction once its unit and dependences allow (R295). -/
  | matrixStart (op : Nat)
  /-- Every member has registered for a round and the owner streams the tile (R291). -/
  | multicastRound (die cluster mask tile : Nat)
  /-- An interruptible matrix instruction stops at a step boundary and records its progress (R303). -/
  | matrixStop (op : Nat)
  /-- A matrix instruction completes, raises its flags and retires from MX (R295). -/
  | matrixComplete (op : Nat)
  /-- SPDM GET_VERSION request (R374). -/
  | getVersion
  /-- SPDM GET_CAPABILITIES request (R374). -/
  | getCapabilities
  /-- SPDM NEGOTIATE_ALGORITHMS request (R374). -/
  | negotiateAlgorithms
  /-- SPDM GET_DIGESTS request (R374). -/
  | getDigests
  /-- SPDM GET_CERTIFICATE request (R374). -/
  | getCertificate
  /-- SPDM CHALLENGE request (R374). -/
  | challenge
  /-- SPDM GET_MEASUREMENTS request returning the SHA-512 measurements (R374). -/
  | getMeasurements (index : Nat)
  /-- SPDM KEY_EXCHANGE request opening a secured session (R374). -/
  | keyExchange
  /-- SPDM FINISH request (R374). -/
  | finish
  /-- SPDM END_SESSION request (R374). -/
  | endSession
  /-- Vendor request that loads a key slot inside a measured secured session and posts KEY_LOADED (R375). -/
  | loadKey (slot : Nat) (key : BitVec 512)
  /-- Vendor request that adds a built-in access entry for a host node to context 0 (R379). -/
  | admitHost (node : BitVec 16)
  /-- Vendor request that returns the bring-up step reached (R379). -/
  | getBringup
  /-- Vendor request that writes the L2-pinned capacities to the configuration store (R380): a mask of dies, and for die d
  the capacity in bits 5d+4 : 5d, in units of 4 MiB. -/
  | setPinned (dies : BitVec 8) (caps : BitVec 40)
  /-- At the end of each 10 ms window, the clock is lowered or raised by the average power and POWER_LIMIT posted (R371). -/
  | powerWindow (watts : Nat)
  /-- The die temperature reaches 105 °C and the clock is lowered (R371). -/
  | thermalLimit
  /-- The die temperature reaches 115 °C and the module performs a device reset (R371). -/
  | thermalShutdown
  /-- A host's single 32-byte write to offset 0x000 of the command window performs a context operation and writes its status word at the given VA (R35). -/
  | contextCommand (node : BitVec 16) (sctx : BitVec 8) (cmd : BitVec 256)
  deriving DecidableEq, Repr

end Sys2Proof
end

