-- ==== Sys2Proof/Machine/State.lean ====
section
/-! DEFINITION. The state of the machine: everything the manual gives the device, as plain data. Units that the device
has in numbers (cores, channels, executors, contexts) are sparse lists whose unlisted entries are the unit as reset
leaves it. -/

namespace Sys2Proof.Machine

/-- Why the machine stops: never. Every fault of the manual is an architected event with a next state: a lane cause
(R337), a caravan cause (R339), a slice trap (R342), an executor fault (R138), a park (R109). No constructor. -/
inductive Fault : Type where
  deriving DecidableEq, Repr

/-- Why an instruction has no meaning in the model. -/
inductive Refusal where
  /-- Raised by an arm of exec that has no meaning yet, with the row's mnemonic. Safe: nothing is claimed of it. -/
  | notModelled (mnemonic : String)
  deriving DecidableEq, Repr

/-! ## Causes -/

/-- Lane causes 0x10 to 0x17 (R336). -/
inductive LaneCause where
  | permission | extentGone | dataUncorrectable | outOfRange | misaligned | queueClosed | queueFaulted | executorFault
  deriving DecidableEq, Repr

/-- Caravan causes 0x01 to 0x07 (R336). -/
inductive CvCause where
  | illegalEncoding | privilege | illegalConvergence | resource | tileState | software | breakpoint
  deriving DecidableEq, Repr

/-! ## Caravans (chapter 04) -/

/-- Caravan states (R64); `absent`: no caravan in the slot; `finishing`: the exit waits for CP, MX and CL (R65). -/
inductive CvState where
  | absent | ready | blocked | parked | trapped | sleeping | finishing
  deriving DecidableEq, Repr

/-- What a BLOCKED caravan or slice waits for (R64, R93). -/
inductive Wait where
  | none
  | barrier (b : Nat) (parity : Bool)
  | waitc (ld st cp mx cl bx : Nat)
  /-- Tile t of a device core to be READY (R86). -/
  | tileReady (core t : Nat)
  /-- Tile t of the issuing core to leave DRAINING (R87). -/
  | tileFree (t : Nat)
  /-- Tile t of a device core to have no holder (R296). -/
  | tileHeld (core t : Nat)
  /-- Tile t of the issuing core to be in a state code (R318). -/
  | tileState (t code : Nat)
  /-- A creating JOIN during DRAIN (R25). -/
  | join
  | accalloc (z n : Nat)
  | accfree (z : Nat)
  /-- A bin for n more work items of spawn entry e (R53). -/
  | spawnBin (e n : Nat)
  /-- A collective instance slot (R159). -/
  | slot (comm inst : Nat)
  /-- A full relay ring (R157). -/
  | relayRing
  /-- A full launch ring (R332). -/
  | launchRing (q : Nat)
  /-- A full operand queue (R90). -/
  | queueSlot (q : Nat)
  /-- A grant of chunk k of an instance (R161). -/
  | grant (comm inst k : Nat)
  /-- The issuer's earlier commands to a channel, and the end of its suspension (R134, R136, R328). -/
  | commands (ch : Nat)
  /-- A PARTY departure: CP, MX, CL to be zero (R77). -/
  | leave
  /-- A release: the issuer's earlier loads to return and its earlier stores to be performed (R196). -/
  | release
  /-- An acquire: the issuer's earlier loads to have been performed (R195, R278). -/
  | acquire
  /-- An access of the instruction waits at a channel or for another node: the instruction is issued again (R134, R149). -/
  | away
  deriving DecidableEq, Repr

/-- What holds back the next instruction of a caravan that is not BLOCKED (R196, R278, R330): it issues nothing until
the event named. -/
inductive Stall where
  | none
  /-- A release waits for its FIFO marker (R197); `acq`: an acquire at the scope follows. -/
  | release (scope : Nat) (acq : Bool)
  /-- REL.W: the release, then a store of the low w bytes of x (R279). -/
  | releaseStore (scope : Nat) (va x : BitVec 64) (w : Nat)
  /-- What follows once operation `op` is performed in every lane: an acquire at a scope, unless the operation is the
  store of REL.W (R271, R279). -/
  | acquireOp (op scope : Nat) (addr : BitVec 64)
  /-- The writes of the trap record that its trap makes (R344). -/
  | record
  /-- CSRW of a context register (R330). -/
  | csrw
  /-- TLBINV until its completion (R107). -/
  | tlbinv (asid : BitVec 16) (va : BitVec 64) (pages : Nat)
  deriving DecidableEq, Repr

/-- An entry of the reconvergence stack (R62, R30). -/
structure StackEntry where
  pc   : W64
  mask : Mask
  deriving DecidableEq, Repr

/-- The trap record (R340, R341). NDEF and the summary words are computed from the masks. -/
structure TrapRec where
  summary : BitVec 8
  ccause  : BitVec 8
  code    : BitVec 16
  depth   : Nat
  npc     : Nat
  taken   : Bool
  twhy    : BitVec 4
  scause  : BitVec 8
  rpc     : W64
  cpc     : W64
  spc     : W64
  tmask   : Mask
  dmask   : Mask
  /-- PC table: entry e is (table_pc, table_va). -/
  table   : List (W64 × W64)
  laneBytes : List (Nat × BitVec 8)
  laneVas   : List (Nat × BitVec 16)
  deriving DecidableEq, Repr

def TrapRec.zero : TrapRec :=
  { summary := 0, ccause := 0, code := 0, depth := 0, npc := 0, taken := false, twhy := 0, scause := 0, rpc := 0,
    cpc := 0, spc := 0, tmask := 0, dmask := 0, table := [], laneBytes := [], laneVas := [] }

/-- A reserved slot of an operand queue (R90): its push number, whether its data has landed. The words themselves lie in the
core store (R89, R102, R106). -/
structure QEntry where
  seq    : Nat
  landed : Bool
  deriving DecidableEq, Repr

/-- An operand queue (R89). COUNT is the landed prefix; `head` is the index of the first entry's slot. -/
structure OpQueue where
  ents    : List QEntry
  head    : Nat
  nextSeq : Nat
  closed  : Bool
  qerr    : Bool
  deriving DecidableEq, Repr

/-- States of an access slice (R93); `none`: the launch names no access entry. -/
inductive SliceState where
  | none | running | blocked | parked | ended
  deriving DecidableEq, Repr

/-- An entry of a slice's loop stack (R317). -/
structure LoopEntry where
  pc  : W64
  cnt : Nat
  a   : Nat
  i   : Nat
  deriving DecidableEq, Repr

/-- An access slice (R93). -/
structure Slice where
  st    : SliceState
  pc    : W64
  sregs : List (Nat × W64)
  loops : List LoopEntry
  wait  : Wait
  deriving DecidableEq, Repr

def Slice.zero : Slice := { st := .none, pc := 0, sregs := [], loops := [], wait := .none }

/-- A resident caravan (chapter 04). -/
structure Caravan where
  st      : CvState
  ctx     : Nat
  kid     : KernelId
  relay   : Bool
  pc      : W64
  /-- CARAVAN register bits 31:0 (R53, R58). -/
  ordinal : BitVec 32
  width   : Nat
  nregs   : Nat
  nq      : Nat
  qdepth  : Nat
  prio    : Nat
  /-- Lanes below N (R57). -/
  exist   : Mask
  mask    : Mask
  /-- Lanes that have exited or been killed (R234, R333). -/
  gone    : Mask
  depth   : Nat
  /-- Entry 2i joins region i, entry 2i+1 is its pending entry (R62). -/
  stack   : List StackEntry
  /-- The register window: register k of lane L at key 1024·k + L (R68). -/
  win     : List (Nat × W32)
  /-- Registers held in operand-buffer slots, in staging order (R70). -/
  staged  : List Nat
  slots   : List (Nat × W32)
  /-- Lanes of each staged register that an instruction has written since staging (R71). -/
  swr     : List (Nat × Mask)
  sregs   : List (Nat × W64)
  preds   : List (Nat × Mask)
  flags   : BitVec 7
  progress : W64
  trap    : TrapRec
  queues  : List OpQueue
  slice   : Slice
  /-- The device core that holds the party's entry, and the entry (R75). -/
  party   : Option (Nat × Nat)
  wait    : Wait
  stall   : Stall
  /-- Order of placement, effective priority, passed-over clocks (R66), YIELD in force (R235). -/
  order   : Nat
  eprio   : Nat
  passed  : Nat
  yielding : Bool
  /-- Clocks of a SLEEP (R235). -/
  sleep   : BitVec 32
  /-- Core-store offsets of the register window and of the CSREQ space, and its size in bytes (R52, R68). -/
  rbase   : Nat
  csbase  : Nat
  cslen   : Nat
  /-- Its MARK.PARTYs that not every member has answered, oldest first: the party's core and entry and when it was made, and the
  number from which on the operations are held (R208). -/
  marked  : List (Nat × Nat × Nat × Nat)
  /-- What an answered MARK.PARTY put in order: its operations from a number on follow those of a member, by core and slot,
  below a number (R208). -/
  follows : List (Nat × Nat × Nat × Nat)
  /-- Its MARKs with requests before them: the operations from these numbers on follow those below (R207). -/
  marks   : List Nat
  /-- A release at DEVICE or SYSTEM scope whose released write is still to come (R203, R204). -/
  relDue  : Bool
  deriving DecidableEq, Repr

def Caravan.blank : Caravan :=
  { st := .absent, ctx := 0, kid := { ctx := 0, q := 0, idx := 0 }, relay := false, pc := 0, ordinal := 0, width := 32,
    nregs := 8, nq := 0, qdepth := 0, prio := 0, exist := 0, mask := 0, gone := 0, depth := 0, stack := [], win := [], staged := [],
    slots := [], swr := [], sregs := [], preds := [], flags := 0, progress := 0, trap := TrapRec.zero, queues := [],
    slice := Slice.zero, party := none, wait := .none, stall := .none, order := 0, eprio := 0, passed := 0,
    yielding := false, sleep := 0, rbase := 0, csbase := 0, cslen := 0, marked := [],
    follows := [], marks := [], relDue := false }

/-! ## Outstanding operations (R72, R73, R264) -/

/-- Counter classes (R73); `fetch`: an instruction fetch that waits for its bytes, `sync`: the access of REL.W or ACQ.W
(R279) or the device's own write, which no counter counts. -/
inductive Cls where
  | LD | ST | CP | MX | CL | BX | fetch | sync
  deriving DecidableEq, Repr

/-- What one lane's access does at its address (R266, R271, R272). -/
inductive Act where
  | rd
  | wr (x : BitVec 128)
  /-- Read-modify-write: op and type codes of R270, the value, and the compare value of CAS. -/
  | rmw (op t : Nat) (x : BitVec 64) (cmp : Option (BitVec 64))
  | mdrd
  | mdwr (x : BitVec 32)
  deriving DecidableEq, Repr

/-- One lane's access: lane, address, bytes, and whether it is performed at the line's home (R187); `deep`: at the
channel point (R279). -/
structure Req where
  lane : Nat
  va   : W64
  w    : Nat
  home : Bool
  /-- The scope is SYSTEM (R187). -/
  sys  : Bool
  deep : Bool
  /-- LDL or STL (R74). -/
  priv : Bool
  /-- Byte of the lane's value at which this access stands (R267). -/
  off  : Nat
  /-- A strong access (R187). -/
  strong : Bool
  /-- It waits for its line's bytes from another node, and is then performed here (R105, R116). -/
  fill : Bool
  act  : Act
  deriving DecidableEq, Repr

/-- A copy (R311): kind, direction and what is left. -/
inductive CopyKind where
  /-- Memory to memory (R313): source, destination, length. -/
  | cpl (src dst : W64) (len : Nat)
  /-- Memory to tile and tile to memory (R312): tile, base VA, extents, strides. -/
  | cpt (t : Nat) (base : W64) (ext : List Nat) (str : List Int)
  | cpo (t : Nat) (base : W64) (ext : List Nat) (str : List Int)
  /-- Memory to a queue (R314): queue, base, entries, push number of the first, slots reserved. -/
  | cpq (q : Nat) (base : W64) (cnt first res : Nat)
  deriving DecidableEq, Repr

structure Copy where
  kind  : CopyKind
  /-- The barrier that it arrives at: the party's core and entry, when the party was made, the barrier number. -/
  bar   : Option (Nat × Nat × Nat × Nat)
  /-- Elements (CPT, CPO), bytes (CPL) or words (CPQ) performed so far. -/
  pos   : Nat
  /-- A CPO's send has completed. -/
  ended : Bool
  deriving DecidableEq, Repr

/-- Where a matrix operand comes from (R290 to R292). -/
inductive MxSrc where
  /-- Tile t of a device core. -/
  | tile (core t : Nat)
  /-- A multicast set: owner core, member mask of the cluster, manifest role, tile (R291). -/
  | multi (owner : Nat) (mask : BitVec 8) (role t : Nat)
  /-- Streamed B: base and pitch (R292). -/
  | stream (base pitch : W64)
  | none
  deriving DecidableEq, Repr

/-- Which matrix instruction (R293). -/
inductive MxKind where
  | mma | mmas | mmx | msca | msl | mzero | mlda | mcvt
  deriving DecidableEq, Repr

/-- A matrix instruction in the sequencer (R295). -/
structure MxOp where
  kind    : MxKind
  ty      : Nat
  rm      : Nat
  s       : Nat
  k       : Nat
  zd      : Nat
  /-- Second Z name: Zp of MSCA, Zs of MCVT. -/
  zs      : Option Nat
  a       : MxSrc
  b       : MxSrc
  /-- Tile of MSCA, MLDA (source) or MCVT (destination). -/
  t       : Option Nat
  q       : Nat
  pcore   : Nat
  pent    : Nat
  started : Bool
  step    : Nat
  /-- Multicast sets whose round has still to be delivered: member mask, role, tile (R291). -/
  rounds  : List (BitVec 8 × Nat × Nat)
  /-- Stopped for a park or for SAVING (R303). -/
  stopped : Bool
  /-- Flags of the steps done (R167). -/
  flags   : BitVec 7
  deriving DecidableEq, Repr

/-- A bank command (R328). -/
inductive BankCmd where
  /-- The words, by number, are the operation's values. -/
  | xprog (n : Nat)
  | xcol (data : BitVec 256)
  | xread (sd bank : Nat)
  deriving DecidableEq, Repr

/-- What an outstanding operation is. -/
inductive OpKind where
  /-- A load or returning atomic into V registers: first register, bytes, sign extension (R266). -/
  | loadV (rd w : Nat) (sx : Bool)
  /-- LDR: one access, one value for each lane of the mask (R269). -/
  | loadR (rd w : Nat) (sx : Bool) (part : Mask)
  /-- SLD (R247). -/
  | loadS (sd w : Nat) (sx slice : Bool)
  | store
  /-- SST (R247). -/
  | storeS
  /-- TLD: the words are taken at issue (R309). -/
  | tld (rd : Nat)
  | tst (t : Nat)
  /-- LDQ: queue, push number, element bytes, sign extension (R275). -/
  | ldq (q seq w : Nat) (sx : Bool)
  | copy (c : Copy)
  | matrix (m : MxOp)
  /-- A bank command to a channel; `rel`: its write to ADV is the released write of a release at DEVICE or SYSTEM scope (R203, R204). -/
  | bank (ch : Nat) (c : BankCmd) (rel : Bool)
  /-- RLD, RST, RATOM (R320): node, context, destination of a returning form. -/
  | remote (node : BitVec 16) (tctx : BitVec 8) (rd w : Nat) (sx returns : Bool)
  /-- RST.BLK (R321): tile, target, destination base, validity and count arrays, the notify VA until its add has been sent, whether the
  blocks have been sent, and the first outcome that was no success. -/
  | sendTile (t : Nat) (lossy : Bool) (node : BitVec 16) (tctx : BitVec 8) (base valVa cntVa notify : W64) (sent : Bool)
      (failed : Option LaneCause)
  /-- RRED (R322): destination and source tile, chunk words, the result arrays, whether the contribution has been sent. -/
  | rred (td ta comm inst chunk op ty : Nat) (sw lossy : Bool) (resVal resCnt : W64) (sent : Bool)
  /-- COLL (R323): whether it still waits BLOCKED, and whether its party's last member issued it. -/
  | coll (comm inst : Nat) (waits last : Bool)
  /-- Words 0 to 2 of an instruction whose bytes are not here yet (R209). -/
  | fetch
  /-- The device's write of a fabric page's dirty bytes, until the node acknowledges it (R196). -/
  | wback
  /-- An access at another node of the device's own, or of an instruction that makes several accesses as one (R37, R111, R332,
  R344): its node, the request, and the cause that it has met. Answered, it stays until what asked for it has been done. -/
  | dev (node : BitVec 16) (r : Req) (failed : Option LaneCause)
  /-- The front end's GANG_QUERY to the other members of a communicator, by rank (R161). -/
  | gang (comm : Nat)
  deriving DecidableEq, Repr

/-- An outstanding operation (R73): issuer, class, token, and the lanes still to be served. -/
structure Op where
  id     : Nat
  core   : Nat
  cslot  : Nat
  slice  : Bool
  ctx    : Nat
  /-- The kernel of its caravan (R47). -/
  kid    : KernelId
  cls    : Cls
  tok    : Option Nat
  pc     : W64
  kind   : OpKind
  /-- Lanes whose access waits at a channel or was parked (R134, R109). -/
  todo   : List Req
  /-- Lanes waiting for another node (R149), and those that have a PARKED notice. -/
  remote : List Req
  held   : List Nat
  /-- Values for the destinations, by lane. -/
  vals   : List (Nat × BitVec 128)
  /-- The destination is written, or the store performed; it retires in issue order (R73). -/
  done   : Bool
  deriving DecidableEq, Repr

/-- What a parked source does on REPLAY (R109). -/
inductive ParkWhat where
  /-- Serve these lanes of operation `op` again. -/
  | lanes (op : Nat) (reqs : List Req)
  /-- Issue the instruction again, whole. -/
  | reissue
  | sliceReissue
  | copy (op : Nat)
  | stream (op : Nat)
  | executor (n : Nat)
  /-- Front end: queue q, and whether it is the completion add of kernel idx. -/
  | queue (q : Nat)
  | completion (k : KernelId)
  | trapWrite
  /-- An incoming remote request held at this device (R149). -/
  | incoming (r : RemoteReq)
  /-- An end marker held at this device (R152); `wrote`: its notify add is left. -/
  | marker (m : EndMarker) (wrote : Bool)
  deriving DecidableEq, Repr

/-- A park (R109, R110, R113). -/
structure Park where
  id      : BitVec 32
  srckind : Nat
  srcid   : Nat
  ctx     : Nat
  core    : Nat
  cslot   : Nat
  what    : ParkWhat
  deriving DecidableEq, Repr

/-! ## Cores (chapters 01, 04, 05, 16) -/

/-- A cached 128-byte line (R98, R105, R189): tag, bytes, valid and dirty bytes, and the attributes of its fill. -/
structure Line where
  asid  : BitVec 16
  /-- VA div 128. -/
  tag   : Nat
  data  : BitVec 1024
  valid : BitVec 128
  dirty : BitVec 128
  w     : Bool
  x     : Bool
  home  : Nat
  cache : Nat
  grade : Nat
  /-- Key slot of the fill. -/
  key   : Nat
  /-- Size of its page as a power of two (R105). -/
  psize : Nat
  /-- Channel, and the flat address of the line (unused for node memory). -/
  chan  : Nat
  flat  : Nat
  priv  : Bool
  /-- Dirtied without a fill (R202). -/
  unfilled : Bool
  deriving DecidableEq, Repr

/-- An entry of the dirty-line FIFO, or the marker of a caravan's release (R197). -/
inductive FifoEnt where
  | line (asid : BitVec 16) (tag : Nat)
  | marker (slot : Nat)
  deriving DecidableEq, Repr

inductive TileState where
  | empty | filling | ready | draining
  deriving DecidableEq, Repr

/-- A tile-table entry (R85): FMT, PITCH, ROWS and COLS as the entry's fields hold them. -/
structure Tile where
  defined : Bool
  st    : TileState
  err   : Bool
  freep : Bool
  base  : Nat
  fmt   : Nat
  pitch : Nat
  rows  : Nat
  cols  : Nat
  /-- Owning party: cluster core and entry (R85 OV, OCORE, OENT). -/
  owner : Option (Nat × Nat)
  ctx   : Nat
  pend  : Nat
  deriving DecidableEq, Repr

def Tile.zero : Tile :=
  { defined := false, st := .empty, err := false, freep := false, base := 0, fmt := 0, pitch := 0, rows := 0, cols := 0,
    owner := none, ctx := 0, pend := 0 }

inductive PartyState where
  | free | forming | formed
  deriving DecidableEq, Repr

/-- A party-table entry (R75), its context, its members as (device core, slot), and its open COLL (R323). -/
structure Party where
  st      : PartyState
  key     : W64
  ctx     : Nat
  scrBase : Nat
  scrSize : Nat
  expect  : Nat
  joined  : Nat
  cores   : BitVec 8
  members : List (Nat × Nat)
  /-- When it was made, in the model's steps: an arrival aimed at an earlier party is not this one's (R81). -/
  made    : Nat
  /-- COLL calls made for the request being gathered: tile, descriptor words, barrier, and how many members. -/
  coll    : Option (Nat × W64 × W64 × W64 × Nat × Nat)
  deriving DecidableEq, Repr

def Party.zero : Party :=
  { st := .free, key := 0, ctx := 0, scrBase := 0, scrSize := 0, expect := 0, joined := 0, cores := 0, members := [],
    made := 0, coll := none }

/-- A bound accumulator name (R78, R288): owning party, Z name, granules in grant order, header. -/
structure ZName where
  pcore : Nat
  pent  : Nat
  z     : Nat
  grans : List Nat
  hdr   : W64
  deriving DecidableEq, Repr

/-- A request waiting in ACCALLOC (R78). -/
structure AccWait where
  slot : Nat
  pd   : Nat
  z    : Nat
  n    : Nat
  deriving DecidableEq, Repr

structure Core where
  /-- Slot of the slice that the access engine issued last (R93). -/
  lastSlice : Nat
  /-- L1SIZE code of the carved partition (R52). -/
  l1size : Nat
  l1     : List Line
  /-- Private lines that resident caravans have written, by ASID and VA div 128: a miss on one is no first touch (R74). -/
  touched : List (BitVec 16 × Nat)
  fifo   : List FifoEnt
  tiles  : List (Nat × Tile)
  parties : List (Nat × Party)
  znames : List ZName
  accq   : List AccWait
  deriving DecidableEq, Repr

def Core.reset : Core :=
  { lastSlice := 0, l1size := 0, l1 := [], touched := [], fifo := [], tiles := [], parties := [], znames := [], accq := [] }

/-- A spawn bin in use (R53). -/
structure Bin where
  ctx   : Nat
  entry : W64
  e     : Nat
  kid   : KernelId
  items : List W64
  deriving DecidableEq, Repr

def Bin.zero : Bin := { ctx := 0, entry := 0, e := 0, kid := { ctx := 0, q := 0, idx := 0 }, items := [] }

structure Die where
  l2     : List Line
  mhz    : Nat
  /-- L2-pinned capacity in use, in 4 MiB units (R380). -/
  pinned : Nat
  /-- The 64 bins; an unlisted bin is free. -/
  bins   : List (Nat × Bin)
  deriving DecidableEq, Repr

def Die.reset : Die := { l2 := [], mhz := 3000, pinned := 0, bins := [] }

/-! ## Contexts, queues and kernels (chapters 02, 03, 06) -/

/-- Context states (R22). -/
inductive CtxState where
  | free | created | active | draining | saving | saved | resetting | dead
  deriving DecidableEq, Repr

inductive ResetCause where
  | requested | d2 | saveFault
  deriving DecidableEq, Repr

/-- A launch queue as the front end took it (R37, R38). -/
structure LaunchQ where
  on     : Bool
  base   : W64
  log2n  : Nat
  prodVa : W64
  consVa : W64
  ksave  : W64
  cons   : Nat
  prod   : Nat
  relay  : List Nat
  waiting : Bool
  /-- The head record has been read and passed R44. -/
  headOk : Bool
  head   : BitVec 2048
  spawn  : List (BitVec 256)
  /-- The head's dependences are known to be met (R46). -/
  depOk  : Bool
  /-- The consumer index word has still to be written (R40). -/
  consDue : Bool
  deriving DecidableEq, Repr

def LaunchQ.zero : LaunchQ :=
  { on := false, base := 0, log2n := 0, prodVa := 0, consVa := 0, ksave := 0, cons := 0, prod := 0, relay := [],
    waiting := false, headOk := false, head := 0, spawn := [], depOk := false, consDue := false }

inductive KState where
  | admitted | running | quiescent | retired
  deriving DecidableEq, Repr

/-- A die's share of a kernel (R50). -/
structure Share where
  p      : Nat
  cursor : Nat
  limit  : Nat
  deriving DecidableEq, Repr

/-- A caravan launched from a spawn bin and not yet placed (R53). -/
structure Spawned where
  die     : Nat
  e       : Nat
  ordinal : BitVec 32
  items   : List W64
  deriving DecidableEq, Repr

/-- A kernel (R46) with its record and spawn table, shares, and termination counts by die (R54); the live count is computed. -/
structure Kernel where
  kid     : KernelId
  st      : KState
  /-- When it was admitted, in the model's steps (R52). -/
  at_     : Nat
  relay   : Bool
  record  : BitVec 2048
  spawn   : List (BitVec 256)
  shares  : List (Nat × Share)
  sent    : List (Nat × Nat)
  recv    : List (Nat × Nat)
  spawned : List (Nat × Nat)
  pending : List Spawned
  /-- Steal replies on their way: thief and triple (R51). -/
  replies : List (Nat × Share)
  /-- Remaining counts as advertised: key 8·destination + source (R51). -/
  adverts : List (Nat × Nat)
  /-- First wave of an attempt, if its live counts were all zero (R54). -/
  wave1   : Option (List (Nat × Nat) × List (Nat × Nat))
  deriving DecidableEq, Repr

/-- A fault or event queue of a context (R111, R162, R112). -/
structure RecQueue where
  on     : Bool
  base   : W64
  log2n  : Nat
  notify : Bool
  prod   : W64
  cons   : W64
  ovf    : BitVec 32
  /-- Records held, oldest first, as numbers. -/
  held   : List Nat
  /-- A period of holding after a failed write (R112). -/
  failing : Bool
  /-- Records whose writes wait at a channel or for another node, oldest first; none of them is held. -/
  waiting : List Nat
  /-- OVF is still to be written (R112). -/
  ovfDue  : Bool
  deriving DecidableEq, Repr

def RecQueue.zero : RecQueue :=
  { on := false, base := 0, log2n := 0, notify := false, prod := 0, cons := 0, ovf := 0, held := [], failing := false,
    waiting := [], ovfDue := false }

/-- The device's record of a saved context (R26 to R30, R56). -/
structure SaveImage where
  caravans : List (Nat × Caravan)
  ops      : List Op
  parks    : List Park
  /-- Tiles, granule names, parties and L1 size of each core that holds something of the context. -/
  tiles    : List (Nat × List (Nat × Tile))
  znames   : List (Nat × List ZName)
  parties  : List (Nat × List (Nat × Party))
  l1sizes  : List (Nat × Nat)
  /-- Bytes of the caravans' storage, of party scratch and of granules, by flat address. -/
  bytes    : Memory
  bins     : List (Nat × List (Nat × Bin))
  length   : Nat
  deriving DecidableEq, Repr

def SaveImage.zero : SaveImage :=
  { caravans := [], ops := [], parks := [], tiles := [], znames := [], parties := [], l1sizes := [], bytes := [], bins := [],
    length := 0 }

structure Context where
  st      : CtxState
  asid    : BitVec 16
  priv    : Bool
  /-- MODEL: true WEAK, false CAUSAL (R18). -/
  weak    : Bool
  relayc  : Nat
  kbase   : Nat
  kcount  : Nat
  eallot  : BitVec 32
  d1      : BitVec 16
  d2      : BitVec 16
  root    : W64
  trapbase : W64
  faultqVa : W64
  evqVa   : W64
  evnode  : BitVec 16
  lqtable : W64
  saveva  : W64
  savelen : W64
  privarea : W64
  winarea : W64
  accthr  : W64
  fabacl  : W64
  relayq  : W64
  commtab : W64
  energyUse : BitVec 48
  admittedE : Nat
  admittedAny : Bool
  timers  : Bool
  cause   : ResetCause
  restoring : Bool
  /-- Relay clusters reserved, as 12·die + cluster (R156). -/
  relayClusters : List Nat
  /-- CSRWs in progress, oldest first: register number and value, and the issuing core and slot (R330). -/
  csrws   : List (Nat × W64 × Nat × Nat)
  queues  : List (Nat × LaunchQ)
  kernels : List Kernel
  faultq  : RecQueue
  eventq  : RecQueue
  image   : SaveImage
  deriving DecidableEq, Repr

def Context.free : Context :=
  { st := .free, asid := 0, priv := false, weak := false, relayc := 0, kbase := 0, kcount := 0, eallot := 0, d1 := 0,
    d2 := 0, root := 0, trapbase := 0, faultqVa := 0, evqVa := 0, evnode := 0, lqtable := 0, saveva := 0, savelen := 0,
    privarea := 0, winarea := 0, accthr := 0, fabacl := 0, relayq := 0, commtab := 0, energyUse := 0, admittedE := 0,
    admittedAny := false, timers := false, cause := .requested, restoring := false, relayClusters := [], csrws := [],
    queues := [], kernels := [], faultq := RecQueue.zero, eventq := RecQueue.zero, image := SaveImage.zero }

/-! ## Channels and executors (chapter 07) -/

inductive ChMode where
  | normal | arming | compute | suspended | exiting
  deriving DecidableEq, Repr

/-- A translation kept by a channel's TLB (R99): the leaf as read, and the size of its page as a power of two. -/
structure TlbEnt where
  asid : BitVec 16
  vpn  : Nat
  size : Nat
  pte  : W64
  /-- Table-window VA of the leaf's entry. -/
  entry : Nat
  deriving DecidableEq, Repr

/-- Access counters of a 64 KiB region (R115): eight counts, by die. -/
structure AccRegion where
  asid   : BitVec 16
  region : Nat
  counts : List (Nat × Nat)
  deriving DecidableEq, Repr

/-- A write to a transfer slot (R135): what it wrote, the executors that may no longer read an older one, whether a release has
published it, and whether the open advance made it (R136, R200, R205). -/
structure SlotWrite where
  x    : BitVec 256
  seen : BitVec 64
  pub  : Bool
  now  : Bool
  deriving DecidableEq, Repr

/-- A line of the memory-side cache (R128). The channel point holds one copy of each byte, in Memory; `ext`, for a
fabric extent, holds the bytes themselves. -/
structure MscLine where
  asid  : BitVec 16
  tag   : Nat
  flat  : Nat
  dirty : Bool
  extent : Option Nat
  ext   : BitVec 1024
  valid : BitVec 128
  dbytes : BitVec 128
  deriving DecidableEq, Repr

structure Channel where
  mode   : ChMode
  steps  : Nat
  /-- Arming or owning context (R119 CMODE). -/
  owner  : Nat
  hrcfg  : W64
  obound : W64
  statact : W64
  statrfm : W64
  statback : W64
  statcap : W64
  statce : W64
  statue : W64
  statsusp : W64
  const  : List (Nat × BitVec 256)
  adv    : W64
  /-- Transfer slots: the writes that some executor may still read, oldest first; with none, zero (R135, R205). -/
  slots  : List (Nat × List SlotWrite)
  prog   : List (Nat × W32)
  /-- Queued bank commands, by operation number, oldest first (R134). -/
  cmds   : List Nat
  /-- Operations with an ordinary request that the channel has made wait; 2^63: the device's own (R134). -/
  waits  : List Nat
  /-- Those queued at entry to SUSPENDED (R134). -/
  snap   : List Nat
  /-- Open row of a bank, plus one (R118). -/
  rows   : List (Nat × Nat)
  /-- Counting table of a bank: (row, count) in entry order (R129). -/
  hot    : List (Nat × List (Nat × Nat))
  /-- Captured rows: bank, row, dirty (R131). -/
  captured : List (Nat × Nat × Bool)
  /-- Banks blocked by refresh management (R130). -/
  blocked : List Nat
  msc    : List MscLine
  tlb    : List TlbEnt
  acc    : List AccRegion
  deriving DecidableEq, Repr

def Channel.reset : Channel :=
  { mode := .normal, steps := 0, owner := 0, hrcfg := 0x004008000200, obound := 2000, statact := 0, statrfm := 0,
    statback := 0, statcap := 0, statce := 0, statue := 0, statsusp := 0, const := [], adv := 0, slots := [],
    prog := [], cmds := [], waits := [], snap := [], rows := [], hot := [], captured := [], blocked := [], msc := [], tlb := [],
    acc := [] }

/-- Executor states (R138). -/
inductive ExState where
  | idle | running | halted | faulted | parked
  deriving DecidableEq, Repr

/-- A bank executor (R135, R137). -/
structure Executor where
  st    : ExState
  cause : BitVec 4
  latch : List (Nat × W32)
  key   : W32
  mask  : W32
  tag   : BitVec 256
  tag2  : BitVec 256
  resp  : BitVec 256
  inbox : BitVec 256
  lc    : BitVec 16
  pc    : BitVec 8
  lrow  : BitVec 15
  lv    : Bool
  /-- Rows stored since the last REL.DEVICE (R143). -/
  stored : List Nat
  /-- A REL or FENCE executed in the open advance (R203). -/
  relNow : Bool
  /-- That release was at BANK or CHANNEL scope (R204). -/
  relDeep : Bool
  /-- Its scope: 0 BANK, 1 CHANNEL, 2 DEVICE (R200). -/
  relScope : BitVec 2
  deriving DecidableEq, Repr

def Executor.zero : Executor :=
  { st := .idle, cause := 0, latch := [], key := 0, mask := 0, tag := 0, tag2 := 0, resp := 0, inbox := 0, lc := 0,
    pc := 0, lrow := 0, lv := false, stored := [], relNow := false, relDeep := false, relScope := 0 }

/-- Attributes of a 32-byte DRAM sector (R120 to R125): which bytes have been written since bring-up, under which key
slot (and how often that slot had been loaded) and grade, its side-band bits, and flipped cell bits (256 data, then 32
side-band). -/
structure Sector where
  written : BitVec 32
  key   : Nat
  gen   : Nat
  grade : Nat
  /-- The side-band bits as last written: check bits and free bits (R120, R121). -/
  sb    : BitVec 32
  flips : BitVec 288
  deriving DecidableEq, Repr

def Sector.zero : Sector := { written := 0, key := 0, gen := 0, grade := 0, sb := 0, flips := 0 }

/-! ## Fabric (chapter 08) -/

inductive LinkState where
  | down | training | up | retrain | failed
  deriving DecidableEq, Repr

structure Port where
  st      : LinkState
  peer    : BitVec 16
  peerPort : BitVec 8
  dis     : Bool
  retry   : W64
  check   : W64
  drop    : W64
  retrain : W64
  /-- Retransmissions in a row of one flit, and failed training attempts. -/
  tries   : Nat
  attempts : Nat
  /-- Messages of the classes that are not lossy whose flits the retry buffer holds, by their number in the order of sending (R144,
  R146, R150). -/
  buffer  : List Nat
  deriving DecidableEq, Repr

def Port.reset : Port :=
  { st := .down, peer := 0, peerPort := 0, dis := false, retry := 0, check := 0, drop := 0, retrain := 0, tries := 0,
    attempts := 0, buffer := [] }

/-- Extent states (R116). -/
inductive ExtState where
  | free | granted | releasing | gone
  deriving DecidableEq, Repr

structure Extent where
  st    : ExtState
  node  : BitVec 16
  base  : W64
  size  : Nat
  owner : Nat
  deriving DecidableEq, Repr

/-- An entry at reset: FREE, with nothing in it (R116; log 112). -/
def Extent.zero : Extent := { st := .free, node := 0, base := 0, size := 0, owner := 0 }

inductive CommState where
  | idle | active | queried | pausing | paused | broken
  deriving DecidableEq, Repr

/-- An instance of an endpoint (R159): the tile's core and number, the barrier's party and number and when that party was made, the
highest chunk that GANGQ has reported, whether its request has been written, whether the local part is complete, and the peers whose
INSTANCE_DONE has arrived. -/
structure Instance where
  inst   : Nat
  core   : Nat
  tile   : Nat
  bcore  : Nat
  bent   : Nat
  made   : Nat
  bar    : Nat
  chunk  : Nat
  posted : Bool
  localDone : Bool
  peers  : List Nat
  deriving DecidableEq, Repr

/-- A communicator endpoint (R158 to R161). -/
structure Comm where
  st     : CommState
  /-- The entry has been read since ACTIVATE, RESTORE or a write to COMMTAB, and it is valid. -/
  read   : Bool
  on     : Bool
  sw     : Bool
  rank   : Nat
  size   : Nat
  /-- Node and context of each rank (R158). -/
  ranks  : List (BitVec 16 × Nat)
  next   : Nat
  insts  : List Instance
  /-- INSTANCE_DONEs, by instance and rank, that came before the COLL here (R159). -/
  early  : List (Nat × Nat)
  /-- Relay caravans that GANGQ has granted a chunk: instance, core and slot. -/
  users  : List (Nat × Nat × Nat)
  /-- The pause is the local front end's; the instance that a query or a pause concerns, and the most that a grant of it may name. -/
  own    : Bool
  pinst  : Nat
  permit : Option Nat
  /-- Paused chunk c*, and relay caravans that have acknowledged. -/
  cstar  : Nat
  acks   : List (Nat × Nat)
  deriving DecidableEq, Repr

def Comm.zero : Comm :=
  { st := .idle, read := false, on := false, sw := false, rank := 0, size := 1, ranks := [], next := 0, insts := [], early := [],
    users := [], own := false, pinst := 0, permit := none, cstar := 0, acks := [] }

/-- An open lossy transfer at the receiver (R152). -/
structure OpenXfer where
  src  : BitVec 16
  xfer : BitVec 32
  got  : List Nat
  deriving DecidableEq, Repr

/-- What the device has sent on the fabric, oldest first. -/
inductive Msg where
  /-- Bytes written at (node, context, VA) on the RELIABLE class, as a number of n bytes. -/
  | write (node : BitVec 16) (ctx : Nat) (va : W64) (n x : Nat)
  /-- A remote request of an operation's lane (R320). -/
  | request (op lane : Nat) (node : BitVec 16) (ctx : Nat) (va : W64) (w : Nat) (act : Act)
  | reply (r : RemoteReq) (out : RemoteOutcome) (data : BitVec 128)
  | parked (r : RemoteReq)
  | lossy (b : LossyBlock) (dst : BitVec 16)
  | marker (m : EndMarker) (dst : BitVec 16)
  | notifyAdd (node : BitVec 16) (ctx : Nat) (va : W64)
  | gangReport (ctx comm chunk : Nat) (busy : Bool)
  /-- To a member of a communicator, at its node and context (R158, R161): GANG_QUERY for an instance, PAUSE(c*), RESUME. -/
  | gangQuery (op lane : Nat) (node : BitVec 16) (ctx comm inst : Nat)
  | gangPause (node : BitVec 16) (ctx comm cstar : Nat)
  | gangResume (node : BitVec 16) (ctx comm : Nat)
  | gangAck (ctx comm : Nat)
  /-- INSTANCE_DONE of this rank, to a peer (R159). -/
  | instanceDone (node : BitVec 16) (ctx comm inst rank : Nat)
  /-- A chunk's contribution to a peer (R322, R369): bytes and block validity as numbers. -/
  | contribution (node : BitVec 16) (ctx comm inst chunk op ty : Nat) (sw lossy : Bool) (bytes x valid : Nat)
  /-- The outcome of an end marker. -/
  | markerAck (m : EndMarker) (out : RemoteOutcome)
  | extentAck (id : Nat)
  /-- SPDM answers (R374, R375, R379, R380). -/
  | spdmOk (code : Nat) (data : BitVec 512)
  | spdmError (code : Nat)
  deriving DecidableEq, Repr

/-- What has come over the fabric and waits at a channel or for another node (R134, R149), under the number that it waits
with. -/
inductive Waiting where
  | request (id : Nat) (r : RemoteReq)
  | block (id port : Nat) (b : LossyBlock)
  /-- An end marker; `wrote`: its zeros and arrays are written, and its notify add is left. -/
  | marker (id : Nat) (m : EndMarker) (wrote : Bool)
  | command (id : Nat) (node : BitVec 16) (sctx : BitVec 8) (cmd : BitVec 256)
  /-- A write to the replay doorbell. -/
  | doorbell (id : Nat) (node : BitVec 16) (sctx : BitVec 8) (w : BitVec 128)
  deriving DecidableEq, Repr

structure Fabric where
  ports  : List (Nat × Port)
  /-- H, by source, as the distance above 0xFFFF_FFFF (R152). -/
  h      : List (Nat × BitVec 32)
  xfer   : List (Nat × BitVec 32)
  opened : List OpenXfer
  /-- Communicators, at key 64·context + number. -/
  comms  : List (Nat × Comm)
  /-- Cached access lists, by context: entries as 128-bit words (R148). -/
  acl    : List (Nat × List (BitVec 128))
  waits  : List Waiting
  out    : List Msg
  /-- The port over which a message was sent last, by the message's number (R149, R150). -/
  via    : List (Nat × Nat)
  deriving DecidableEq, Repr

/-! ## The device (chapters 01, 25) -/

/-- SPDM responder (R374, R375). -/
structure Spdm where
  versioned  : Bool
  capable    : Bool
  negotiated : Bool
  exchanged  : Bool
  session    : Bool
  measured   : BitVec 6
  deriving DecidableEq, Repr

structure KeySlot where
  full : Bool
  gen  : Nat
  key  : BitVec 512
  deriving DecidableEq, Repr

def KeySlot.empty : KeySlot := { full := false, gen := 0, key := 0 }

structure Device where
  /-- Bring-up steps completed, 0 to 6 (R377). -/
  step     : Nat
  failsafe : Bool
  /-- Rollback counter in the fuses (R376). -/
  fuse     : Nat
  /-- Measurements 1 to 6 have been taken (R377), at this value of the free-value counter. -/
  measured : Option Nat
  nodeid   : BitVec 16
  /-- Configuration store: pinned capacity of each die in 4 MiB units (R380). -/
  store    : List (Nat × Nat)
  keys     : List (Nat × KeySlot)
  spdm     : Spdm
  admitted : List (BitVec 16)
  /-- Energy counter of each die, in µJ (R370). -/
  energy   : List (BitVec 48)
  /-- Event sequence number of each source id (R372). -/
  evSeq    : List (Nat × BitVec 32)
  /-- Fault-record sequence number of each source: key 2^16·SRCKIND + SRCID (R110). -/
  faultSeq : List (Nat × BitVec 32)
  /-- Records held for context 0 before ACTIVATE, and the number not kept (R379). -/
  early    : List Nat
  lost     : Nat
  deriving DecidableEq, Repr

/-- A byte that a strong write has replaced and that other agents' reads do not see yet, for an earlier strong access of its
caravan that is still to be performed (R192): the caravan, the operation, the byte's ASID and VA, and what it was. -/
structure Veil where
  core : Nat
  slot : Nat
  op   : Nat
  asid : BitVec 16
  va   : Nat
  old  : Byte
  deriving DecidableEq, Repr

/-- Which agent issues: a caravan's execute slice or its access slice. -/
structure Agent where
  core  : Nat
  slot  : Nat
  slice : Bool
  deriving DecidableEq, Repr

/-- The model's own: whose turn the next step is (log 1): an input from outside or a step of the device arrives, or the
issue logic or the access engine of a core issues. -/
inductive Turn where
  | input (i : Instr)
  | unit (core : Nat) (slice : Bool)
  deriving DecidableEq, Repr

/-- The model's own: what an access within the step has to wait for: nothing; a channel, or an answer that has been asked for;
the answer of a node to a request of a context, at an address of the node. -/
inductive Want where
  | nothing
  | waits
  | node (node : BitVec 16) (ctx : Nat) (addr : W64) (r : Req)
  deriving DecidableEq, Repr

/-- A record that the device has made and not yet posted (R111, R162): its context, whether it is a fault record, and
its bits. -/
structure Post where
  ctx   : Nat
  fault : Bool
  bits  : Nat
  deriving DecidableEq, Repr

/-- The state of the machine. -/
structure State where
  dev     : Device
  mem     : Memory
  sectors : List (Nat × Sector)
  ctxs    : List (Nat × Context)
  cores   : List (Nat × Core)
  dies    : List (Nat × Die)
  /-- Resident caravans at key 16·core + slot. -/
  cvs     : List (Nat × Caravan)
  /-- Outstanding operations, in issue order. -/
  ops     : List Op
  parks   : List Park
  veils   : List Veil
  chans   : List (Nat × Channel)
  execs   : List (Nat × Executor)
  extents : List (Nat × Extent)
  fab     : Fabric
  /-- The model's own: the agent whose instruction is executed. -/
  cur     : Agent
  /-- The model's own: device bank whose executor instruction is executed. -/
  bank    : Nat
  /-- The model's own: channel of the open advance, and the executors of it still to run, plus one if open. -/
  advOpen : Option Nat
  advTodo : List Nat
  /-- The model's own: the turns to come, oldest first; with none left the cores issue in rotation. -/
  agenda  : List Turn
  /-- Records made and not yet posted, oldest first. -/
  posts   : List Post
  /-- The model's own: see Want; `nothing` between steps. -/
  want    : Want
  /-- The model's own: number of the next outstanding operation, next placement, steps made, next free value. -/
  nextOp  : Nat
  /-- The model's own: number of the next operation of the device's own, counted from 2^64 (log 97). -/
  nextDev : Nat
  nextCv  : Nat
  clock   : Nat
  freeCtr : Nat
  deriving DecidableEq, Repr

/-- The machine right after device reset, before bring-up step 1 (R377). -/
def State.reset : State :=
  { dev := { step := 0, failsafe := false, fuse := 0, measured := none, nodeid := 0, store := [], keys := [],
             spdm := { versioned := false, capable := false, negotiated := false, exchanged := false, session := false,
                       measured := 0 },
             admitted := [], energy := List.replicate 8 0, evSeq := [], faultSeq := [], early := [], lost := 0 },
    mem := [], sectors := [], ctxs := [], cores := [], dies := [], cvs := [], ops := [], parks := [], veils := [], chans := [],
    execs := [], extents := [],
    fab := { ports := [], h := [], xfer := [], opened := [], comms := [], acl := [], waits := [], out := [], via := [] },
    cur := { core := 0, slot := 0, slice := false }, bank := 0, advOpen := none, advTodo := [], agenda := [], posts := [], want := .nothing,
    nextOp := 0, nextDev := 0, nextCv := 0, clock := 0, freeCtr := 0 }

end Sys2Proof.Machine
end

