-- ==== Sys2Proof/Machine/Units.lean ====
section
/-! DEFINITION. Access to the parts of the state: units by number (R10), outstanding operations (R72, R73), event and
fault records (R36, R110, R372), messages of the fabric, free values. -/

namespace Sys2Proof.Machine

/-- Bits lo+w−1 : lo of a number (R4). -/
def field (x lo w : Nat) : Nat := x / 2 ^ lo % 2 ^ w

/-- A signed n-bit reading of a number. -/
def signed (n x : Nat) : Int := if x % 2 ^ n < 2 ^ (n - 1) then (x % 2 ^ n : Nat) else (x % 2 ^ n : Nat) - (2 ^ n : Nat)

/-- The low n bits of an integer. -/
def wrap (n : Nat) (x : Int) : Nat := (x % ((2 ^ n : Nat) : Int)).toNat

/-- Bytes of a width code (R219). -/
def widthBytes (w : Nat) : Nat := 2 ^ w

/-- Lanes of a mask below W, ascending. -/
def lanesBelow (W : Nat) (m : Mask) : List Nat := (List.range W).filter (fun L => m.getLsbD L)

def laneBit (L : Nat) : Mask := 1#1024 <<< L

/-- The mask of the lanes below W that satisfy p. -/
def maskWhere (W : Nat) (p : Nat → Bool) : Mask :=
  BitVec.ofNat 1024 ((List.range W).foldl (fun a L => if p L then a + 2 ^ L else a) 0)

/-- Summary word of a mask (R59). -/
def summaryOf (m : Mask) : W32 :=
  BitVec.ofNat 32 ((List.range 32).foldl (fun a w => if field m.toNat (32 * w) 32 = 0 then a else a + 2 ^ w) 0)

/-- The lowest lane of a mask below W; 0 when there is none. -/
def lowest (W : Nat) (m : Mask) : Nat := (lanesBelow W m).headD 0

/-- The reset value at 64-bit width of a channel's home die, a core's die, cluster and place (R10). -/
def dieOfChannel (c : Nat) : Nat := c / 64
def dieOfCore (k : Nat) : Nat := k / 96
def clusterOfCore (k : Nat) : Nat := k % 96 / 8
def placeOfCore (k : Nat) : Nat := k % 8
/-- Core c of the cluster of device core k. -/
def clusterCore (k c : Nat) : Nat := k / 8 * 8 + c

/-- The node to which a message that is not lossy goes, where it has one: the fabric manager and the host's session have none. -/
def Msg.node : Msg → Option (BitVec 16)
  | .write node _ _ _ _ => some node
  | .request _ _ node _ _ _ _ => some node
  | .reply r _ _ => some r.node
  | .parked r => some r.node
  | .lossy _ _ => none
  | .marker _ dst => some dst
  | .notifyAdd node _ _ => some node
  | .gangReport _ _ _ _ => none
  | .gangQuery _ _ node _ _ _ => some node
  | .gangPause node _ _ _ => some node
  | .gangResume node _ _ => some node
  | .gangAck _ _ => none
  | .instanceDone node _ _ _ _ => some node
  | .contribution node _ _ _ _ _ _ _ _ _ _ _ => some node
  | .markerAck m _ => some m.src
  | .extentAck _ => none
  | .spdmOk _ _ => none
  | .spdmError _ => none

namespace State

def cv (s : State) (k slot : Nat) : Caravan := sget Caravan.blank s.cvs (16 * k + slot)
def setCv (s : State) (k slot : Nat) (c : Caravan) : State := { s with cvs := sset Caravan.blank s.cvs (16 * k + slot) c }
def core (s : State) (k : Nat) : Core := sget Core.reset s.cores k
def setCore (s : State) (k : Nat) (c : Core) : State := { s with cores := sset Core.reset s.cores k c }
def die (s : State) (d : Nat) : Die := sget Die.reset s.dies d
def setDie (s : State) (d : Nat) (x : Die) : State := { s with dies := sset Die.reset s.dies d x }
def ctx (s : State) (c : Nat) : Context := sget Context.free s.ctxs c
def setCtx (s : State) (c : Nat) (x : Context) : State := { s with ctxs := sset Context.free s.ctxs c x }
def chan (s : State) (c : Nat) : Channel := sget Channel.reset s.chans c
def setChan (s : State) (c : Nat) (x : Channel) : State := { s with chans := sset Channel.reset s.chans c x }
def executor (s : State) (n : Nat) : Executor := sget Executor.zero s.execs n
def setExecutor (s : State) (n : Nat) (x : Executor) : State := { s with execs := sset Executor.zero s.execs n x }
def sector (s : State) (n : Nat) : Sector := sget Sector.zero s.sectors n
def setSector (s : State) (n : Nat) (x : Sector) : State := { s with sectors := sset Sector.zero s.sectors n x }
def extent (s : State) (n : Nat) : Extent := sget Extent.zero s.extents n
def setExtent (s : State) (n : Nat) (x : Extent) : State := { s with extents := sset Extent.zero s.extents n x }
def port (s : State) (p : Nat) : Port := sget Port.reset s.fab.ports p
def setPort (s : State) (p : Nat) (x : Port) : State :=
  { s with fab := { s.fab with ports := sset Port.reset s.fab.ports p x } }
def comm (s : State) (c k : Nat) : Comm := sget Comm.zero s.fab.comms (64 * c + k)
def setComm (s : State) (c k : Nat) (x : Comm) : State :=
  { s with fab := { s.fab with comms := sset Comm.zero s.fab.comms (64 * c + k) x } }
def keySlot (s : State) (n : Nat) : KeySlot := sget KeySlot.empty s.dev.keys n
def tile (s : State) (k t : Nat) : Tile := sget Tile.zero (s.core k).tiles t
def setTile (s : State) (k t : Nat) (x : Tile) : State :=
  s.setCore k { s.core k with tiles := sset Tile.zero (s.core k).tiles t x }
def party (s : State) (k e : Nat) : Party := sget Party.zero (s.core k).parties e
def setParty (s : State) (k e : Nat) (x : Party) : State :=
  s.setCore k { s.core k with parties := sset Party.zero (s.core k).parties e x }

/-- The issuing caravan. -/
def me (s : State) : Caravan := s.cv s.cur.core s.cur.slot
def setMe (s : State) (c : Caravan) : State := s.setCv s.cur.core s.cur.slot c
/-- The context of the issuing caravan. -/
def myCtx (s : State) : Context := s.ctx s.me.ctx

/-- Read and write a byte of a core store (R12). -/
def coreLoad (s : State) (k o n : Nat) : Nat := mload s.mem (Flat.core k o) n
def coreStore (s : State) (k o n x : Nat) : State := { s with mem := mstore s.mem (Flat.core k o) n x }

/-- The port over which a message to a node leaves: one that is UP and reaches the node's next hop, else one in RETRAIN, which holds it
(R146, R150; log 101). -/
def portFor (s : State) (node : BitVec 16) : Option Nat :=
  let reach (st : LinkState) (p : Nat) : Bool :=
    (s.port p).st = st && (p = Config.portTo node.toNat % 36 || Config.sameHop (Config.portTo node.toNat % 36) p)
  ((List.range 36).find? (reach .up)).orElse (fun _ => (List.range 36).find? (reach .retrain))

/-- Send a message on the fabric, in order; one that is not lossy goes into its port's retry buffer (R144, R150). -/
def send (s : State) (m : Msg) : State :=
  let n := s.fab.out.length
  { s with fab :=
      match m.node.bind s.portFor with
      | some p =>
        { s.fab with
          out := s.fab.out ++ [m]
          ports := sset Port.reset s.fab.ports p { s.port p with buffer := (s.port p).buffer ++ [n] }
          via := sput s.fab.via n p }
      | none => { s.fab with out := s.fab.out ++ [m] } }

/-- A fresh free value (log 4). -/
def fresh (s : State) : W64 × State := (Config.freeWord s.freeCtr, { s with freeCtr := s.freeCtr + 1 })

/-! ## Outstanding operations -/

/-- The operations of one issuer and class that have not retired (R73). -/
def mine (s : State) (k slot : Nat) (slice : Bool) : List Op :=
  s.ops.filter (fun o => o.core = k ∧ o.cslot = slot ∧ o.slice = slice)

/-- A counter (R73). -/
def counter (s : State) (k slot : Nat) (slice : Bool) (c : Cls) : Nat :=
  ((s.mine k slot slice).filter (fun o => o.cls = c)).length

/-- Token t is pending (R72). -/
def tokenPending (s : State) (k slot : Nat) (slice : Bool) (t : Nat) : Bool :=
  (s.mine k slot slice).any (fun o => o.tok = some t && !o.done)

/-- Retire, in issue order, what has completed (R73). -/
def retired (ops : List Op) : List Op :=
  ops.foldl (fun kept o =>
    if o.done && !kept.any (fun p => p.core = o.core && p.cslot = o.cslot && p.slice = o.slice && p.cls = o.cls)
    then kept else kept ++ [o]) []

def retire (s : State) : State := { s with ops := retired s.ops }

def op (s : State) (id : Nat) : Option Op := s.ops.find? (fun o => o.id = id)
def setOp (s : State) (o : Op) : State := { s with ops := s.ops.map (fun p => if p.id = o.id then o else p) }
def dropOp (s : State) (id : Nat) : State := { s with ops := s.ops.filter (fun p => p.id ≠ id) }
def finishOp (s : State) (o : Op) : State := (s.setOp { o with done := true }).retire

/-- The agent that the device's own operations are noted under: no core has this number (log 97). -/
def devCore : Nat := 1024

/-- The slot number that the operations of a caravan keep when it has left its slot (R65, R234). -/
def leftSlot (slot : Nat) : Nat := 32768 + slot

/-- An operation of the device's own for a context: its requests wait for another node. -/
def addDevOp (s : State) (c : Nat) (kind : OpKind) (remote : List Req) : State :=
  let o : Op := { id := 2 ^ 64 + s.nextDev, core := devCore, cslot := 0, slice := false, ctx := c,
                  kid := { ctx := c, q := 0, idx := 0 }, cls := .sync, tok := none,
                  pc := 0, kind := kind, todo := [], remote := remote, held := [], vals := [], done := false }
  { s with nextDev := s.nextDev + 1, ops := s.ops ++ [o] }

/-! ## Energy (R370): what has been charged since a counter was last looked at is free (log 15) -/

def chargeDie (s : State) (d : Nat) : State :=
  let (w, s) := s.fresh
  { s with dev := { s.dev with energy := s.dev.energy.set d (s.dev.energy.getD d 0 + w.setWidth 48) } }

def chargeCtx (s : State) (c : Nat) : State :=
  let (w, s) := s.fresh
  s.setCtx c { s.ctx c with energyUse := (s.ctx c).energyUse + w.setWidth 48 }

/-! ## Records -/

/-- Make an event record of source `src` for the queues of the contexts named (R36, R127, R146, R347, R372). `hi` holds
its bits from 64 up. One record has one sequence number. -/
def event (s : State) (whom : List Nat) (src typ hi : Nat) : State :=
  let n := sget 0 s.dev.evSeq src
  let r := typ + 2 ^ 16 * src + 2 ^ 32 * n.toNat + 2 ^ 64 * hi
  { s with dev := { s.dev with evSeq := sset 0 s.dev.evSeq src (n + 1) },
           posts := s.posts ++ (whom.eraseDups.filter (fun c => c = 0 || (s.ctx c).st != .free)).map
             (fun c => { ctx := c, fault := false, bits := r }) }

/-- A channel event (R127): bank, row, detail, VA, ASID; to context 0 and to the contexts of the access. -/
def chanEvent (s : State) (whom : List Nat) (ch typ va asid bank row detail : Nat) : State :=
  s.event (0 :: whom) (0x1000 + ch) typ
    (va % 2 ^ 64 + 2 ^ 64 * (asid % 2 ^ 16) + 2 ^ 80 * (bank % 64) + 2 ^ 86 * (row % 2 ^ 15) +
      2 ^ 101 * (detail % 2 ^ 27))

/-- A context event (R36): detail and the context it concerns. -/
def ctxEvent (s : State) (whom : List Nat) (src typ detail about : Nat) : State :=
  s.event whom src typ (detail % 2 ^ 64 + 2 ^ 64 * about)

/-- Fault-record sequence number of a source (R110). -/
def nextFaultSeq (s : State) (kind id : Nat) : W32 := sget 0 s.dev.faultSeq (2 ^ 16 * kind + id)

/-- Make a fault record (R110). -/
def faultRecord (s : State) (c kind id : Nat) (mask : W32) (word pc : Nat) (park : W32) (akind level typ counts va : Nat) :
    State :=
  let n := s.nextFaultSeq kind id
  let r := (s.ctx c).asid.toNat + 2 ^ 64 * (va % 2 ^ 64) + 2 ^ 128 * (counts % 2 ^ 128) + 2 ^ 256 * typ +
    2 ^ 261 * level + 2 ^ 264 * akind + 2 ^ 268 * kind + 2 ^ 272 * id + 2 ^ 288 * n.toNat + 2 ^ 320 * park.toNat +
    2 ^ 352 * (pc % 2 ^ 64) + 2 ^ 427 * word + 2 ^ 432 * mask.toNat
  { s with dev := { s.dev with faultSeq := sset 0 s.dev.faultSeq (2 ^ 16 * kind + id) (n + 1) },
           posts := s.posts ++ [{ ctx := c, fault := true, bits := r }] }

end State
end Sys2Proof.Machine
end

