-- ==== Sys2Proof/WellFormed.lean ====
section
/-! DEFINITION. Well-formedness of the instructions: the checks 2 to 4 of R221 that the word alone decides, from the
operand and MOD columns of the encoding tables of chapters 02, 13 to 17. -/

namespace Sys2Proof

namespace Operand

/-- "—": the field is entirely zero, which is the pattern of plain V0 (R213, R228). -/
def isNone (o : Operand) : Bool := o == .v 0 0 0
/-- V destination: bits 15:8 zero (R213). -/
def isVd : Operand → Bool
  | .v _ p u => p == 0 && u == 0
  | _ => false
/-- V source without sub-modifier (R217: code 15 is reserved). -/
def isV : Operand → Bool
  | .v _ p u => p != 15 && u == 0
  | _ => false
/-- V source that accepts ABS and NEG. -/
def isVn : Operand → Bool
  | .v _ p u => p != 15 && u < 4
  | _ => false
/-- V source that accepts HALF, ABS and NEG (R214: HALF 3 is reserved). -/
def isVnh : Operand → Bool
  | .v _ p u => p != 15 && u < 12
  | _ => false
/-- V source that accepts HALF only. -/
def isVh : Operand → Bool
  | .v _ p u => p != 15 && u < 12 && u &&& 3 == 0
  | _ => false
def evenReg : Operand → Bool
  | .v r _ _ => r &&& 1 == 0
  | _ => false
def quadReg : Operand → Bool
  | .v r _ _ => r &&& 3 == 0
  | _ => false
/-- Register pair (R168): an odd register is illegal. -/
def isVpd (o : Operand) : Bool := o.isVd && o.evenReg
def isVp (o : Operand) : Bool := o.isV && o.evenReg
def isVpn (o : Operand) : Bool := o.isVn && o.evenReg
def isVqd (o : Operand) : Bool := o.isVd && o.quadReg
def isS : Operand → Bool
  | .s _ => true
  | _ => false
/-- "Sx+k": k registers from Sx upward (R306). -/
def isSk (k : Nat) : Operand → Bool
  | .s n => n.toNat + k ≤ 64
  | _ => false
def isI : Operand → Bool
  | .imm _ => true
  | _ => false
def isImax (k : Nat) : Operand → Bool
  | .imm x => x.toNat ≤ k
  | _ => false
def isSI (o : Operand) : Bool := o.isS || o.isI
def isP : Operand → Bool
  | .pred n => n.toNat < 48
  | _ => false
def isQ : Operand → Bool
  | .queue _ => true
  | _ => false
def isT : Operand → Bool
  | .tile _ => true
  | _ => false
def isZ : Operand → Bool
  | .acc _ => true
  | _ => false
def isTR : Operand → Bool
  | .tile _ => true
  | .role r _ => r != 0
  | _ => false
/-- Control registers that R225 assigns. -/
def isCsr : Operand → Bool
  | .csr n => n.toNat ≤ 8 || n.toNat == 0x10 || n.toNat == 0x11 || n.toNat == 0x20 || n.toNat == 0x21 ||
      (0x30 ≤ n.toNat && n.toNat ≤ 0x38)
  | _ => false
def isRaw : Operand → Bool
  | .raw _ => true
  | _ => false
/-- A raw field of WAITC: bits 17:12 zero (R220). -/
def isWaitc : Operand → Bool
  | .raw x => x < 4096
  | _ => false
/-- A range of REGION: bits 17:13 zero, count at most 16, within V255 (R276). -/
def isRange : Operand → Bool
  | .raw x => x < 8192 && x.toNat / 256 ≤ 16 && x.toNat % 256 + x.toNat / 256 ≤ 256
  | _ => false
/-- The registers a REGION range names, ascending. -/
def rangeRegs : Operand → List Nat
  | .raw x => (List.range (x.toNat / 256 % 32)).map (· + x.toNat % 256)
  | _ => []

end Operand

/-- Bits lo+w−1 : lo of a MOD field. -/
def modBits (m : BitVec 10) (lo w : Nat) : Nat := m.toNat / 2 ^ lo % 2 ^ w
/-- No bit of MOD outside `used` is set (R219). -/
def modOnly (m : BitVec 10) (used : BitVec 10) : Bool := m &&& ~~~used == 0

namespace Fields
def type (f : Fields) : Nat := modBits f.m 2 4
def noD (f : Fields) : Bool := f.d.isNone
def noA (f : Fields) : Bool := f.a.isNone
def noB (f : Fields) : Bool := f.b.isNone
def noM (f : Fields) : Bool := f.m == 0
/-- Guard and hint checks of R221 check 3. -/
def headOk (f : Fields) : Bool :=
  (f.g.pred.toNat < 48 || f.g.pred == 63) && (f.h.setv || f.h.setk == 0)
/-- Type I32 or U32 (R228). -/
def intT (f : Fields) : Bool := f.type == 8 || f.type == 9
def srcN (o : Operand) : Bool := o.isVn || o.isSI
def srcV (o : Operand) : Bool := o.isV || o.isSI
def srcP (o : Operand) : Bool := o.isVp || o.isSI
def srcPn (o : Operand) : Bool := o.isVpn || o.isSI
def srcH (o : Operand) : Bool := o.isVnh || o.isSI
def twoN (f : Fields) : Bool := f.d.isVd && srcN f.a && srcN f.b
def twoV (f : Fields) : Bool := f.d.isVd && srcV f.a && srcV f.b
def oneV (f : Fields) : Bool := f.d.isVd && srcV f.a && f.noB
def fp2 (f : Fields) : Bool := f.twoN && modOnly f.m 0x003
def fp1 (f : Fields) : Bool := f.d.isVd && srcN f.a && f.noB && modOnly f.m 0x003
def dp2 (f : Fields) : Bool := f.d.isVpd && srcPn f.a && srcPn f.b
def pk (f : Fields) : Bool := f.d.isVd && srcH f.a && srcH f.b && (f.type == 4 || f.type == 5)
def s2 (f : Fields) : Bool := f.d.isS && f.a.isSI && f.b.isSI
/-- A V field whose kind matches the width code (R265). -/
def regsOf (w : Nat) (o : Operand) : Bool :=
  if w ≤ 2 then o.isVd else if w == 3 then o.isVpd else w == 4 && o.isVqd
/-- Base and offset of an addressed instruction (R263). -/
def addr (f : Fields) : Bool := (f.a.isVp && f.b.isI) || (f.a.isS && (f.b.isI || f.b.isV))
/-- V or Vp by the type of an atomic, or S, or I (R270). -/
def atomVal (f : Fields) (o : Operand) : Bool :=
  (if modBits f.m 0 2 ≥ 2 then o.isVp else o.isV) || o.isSI
def atomDst (f : Fields) : Bool := if modBits f.m 0 2 ≥ 2 then f.d.isVpd else f.d.isVd
def atomT (f : Fields) : Bool := modBits f.m 2 3 != 7 || modBits f.m 0 2 == 0 || modBits f.m 0 2 == 2
def xferW (f : Fields) (signed : Bool) : Bool :=
  modBits f.m 0 3 ≤ 4 && (!signed || modBits f.m 0 3 ≤ 1)
def bar (f : Fields) : Bool := f.noD && f.a.isImax 15
def is64 (t : Nat) : Bool := t == 7 || t == 10 || t == 11
def is16 (t : Nat) : Bool := t == 4 || t == 5 || t == 12 || t == 13
end Fields

open Fields in
/-- R221 checks 2 to 4 for every core instruction; the range of the operand values for executor instructions (R140).
The device's own steps carry no encoding. -/
def legal : Instr → Bool
  -- control (R230)
  | .nop f => f.headOk && f.noD && f.noA && f.noB && f.noM
  | .bra f => f.headOk && modOnly f.m 3 && f.a.isI &&
      (if modBits f.m 1 1 == 1 then modBits f.m 0 1 == 0 && f.noD && f.noB else f.d.isP && f.b.isI)
  | .brx f => f.headOk && f.noD && f.a.isS && f.noB && f.noM
  | .brany f => f.headOk && f.d.isP && f.a.isI && f.noB && modOnly f.m 1
  | .brall f => f.headOk && f.d.isP && f.a.isI && f.noB && modOnly f.m 1
  | .call f => f.headOk && f.d.isS && f.a.isSI && f.noB && f.noM
  | .ret f => f.headOk && f.noD && f.a.isS && f.noB && f.noM
  | .reconv f => f.headOk && f.noD && f.noA && f.noB && f.noM
  | .exitI f => f.headOk && f.noD && f.noB && modOnly f.m 3 &&
      (if modBits f.m 1 1 == 1 then f.a.isP else modBits f.m 0 1 == 0 && f.noA)
  | .yield f => f.headOk && f.noD && f.noA && f.noB && f.noM
  | .sleep f => f.headOk && f.noD && f.a.isSI && f.noB && f.noM
  | .trap f => f.headOk && f.noD && f.a.isI && f.noB && f.noM
  | .brk f => f.headOk && f.noD && f.a.isI && f.noB && f.noM
  | .mskget f => f.headOk && f.d.isS && f.a.isImax 32 && f.noB && f.noM
  | .mskset f => f.headOk && f.noD && f.a.isS && f.b.isImax 31 && f.noM
  -- integer (R239)
  | .iadd f => f.headOk && f.twoN && modOnly f.m 0x23C && f.intT
  | .isub f => f.headOk && f.twoN && modOnly f.m 0x23C && f.intT
  | .imul f => f.headOk && f.twoN && f.noM
  | .imulh f => f.headOk && f.twoV && modOnly f.m 0x3C && f.intT
  | .imad f => f.headOk && f.twoN && f.noM
  | .imin f => f.headOk && f.twoN && modOnly f.m 0x3C && f.intT
  | .imax f => f.headOk && f.twoN && modOnly f.m 0x3C && f.intT
  | .iabs f => f.headOk && f.oneV && modOnly f.m 0x200
  | .iaddc f => f.headOk && f.twoV && f.m < 48
  | .isubb f => f.headOk && f.twoV && f.m < 48
  | .shl f => f.headOk && f.twoV && f.noM
  | .shr f => f.headOk && f.twoV && f.noM
  | .sar f => f.headOk && f.twoV && f.noM
  | .rotl f => f.headOk && f.twoV && f.noM
  | .andI f => f.headOk && f.twoV && f.noM
  | .orI f => f.headOk && f.twoV && f.noM
  | .xorI f => f.headOk && f.twoV && f.noM
  | .andn f => f.headOk && f.twoV && f.noM
  | .notI f => f.headOk && f.oneV && f.noM
  | .ttab f => f.headOk && f.twoV && modOnly f.m 0xFF
  | .bfe f => f.headOk && f.twoV && modOnly f.m 0x3C && f.intT
  | .bfi f => f.headOk && f.twoV && f.noM
  | .popc f => f.headOk && f.oneV && f.noM
  | .clz f => f.headOk && f.oneV && f.noM
  | .brev f => f.headOk && f.oneV && f.noM
  | .prmt f => f.headOk && f.twoV && f.noM
  | .iset f => f.headOk && f.d.isP && srcN f.a && srcN f.b && modOnly f.m 0x1FC && f.intT && modBits f.m 6 3 ≤ 5
  | .iadd64 f => f.headOk && f.d.isVpd && srcP f.a && srcP f.b && f.noM
  | .imad64 f => f.headOk && f.d.isVpd && srcV f.a && srcV f.b && modOnly f.m 0x3C && f.intT
  | .sel f => f.headOk && f.twoV && f.m < 48
  | .mov f => f.headOk && modOnly f.m 0x200 && f.noB &&
      (if f.m == 0 then f.d.isVd && srcV f.a else f.d.isVpd && f.a.isVp)
  | .movi f => f.headOk && f.d.isVd && f.a.isI && f.b.isI && f.noM
  -- floating point (R251)
  | .fadd f => f.headOk && f.fp2
  | .fmul f => f.headOk && f.fp2
  | .ffma f => f.headOk && f.fp2
  | .fmin f => f.headOk && f.twoN && modOnly f.m 0x200
  | .fmax f => f.headOk && f.twoN && modOnly f.m 0x200
  | .fset f => f.headOk && f.d.isP && srcN f.a && srcN f.b && modOnly f.m 0x1C0
  | .frcp f => f.headOk && f.fp1
  | .frsq f => f.headOk && f.fp1
  | .fsqrt f => f.headOk && f.fp1
  | .fex2 f => f.headOk && f.fp1
  | .flg2 f => f.headOk && f.fp1
  | .frnd f => f.headOk && f.d.isVd && srcN f.a && f.noB && modOnly f.m 0x203
  | .fscl f => f.headOk && f.d.isVd && srcN f.a && srcV f.b && modOnly f.m 0x003
  | .fclass f => f.headOk && f.d.isVd && f.noB && modOnly f.m 0x3C &&
      (f.type == 4 || f.type == 5 || f.type == 6 || f.type == 7) &&
      (f.a.isS || (if f.type == 7 then f.a.isVp else if f.type == 6 then f.a.isV else f.a.isVh))
  | .dadd f => f.headOk && f.dp2 && modOnly f.m 0x003
  | .dmul f => f.headOk && f.dp2 && modOnly f.m 0x003
  | .dfma f => f.headOk && f.dp2 && modOnly f.m 0x003
  | .dmin f => f.headOk && f.dp2 && modOnly f.m 0x200
  | .dmax f => f.headOk && f.dp2 && modOnly f.m 0x200
  | .dset f => f.headOk && f.d.isP && srcPn f.a && srcPn f.b && modOnly f.m 0x1C0
  | .pkadd f => f.headOk && f.pk && modOnly f.m 0x03F
  | .pkmul f => f.headOk && f.pk && modOnly f.m 0x03F
  | .pkfma f => f.headOk && f.pk && modOnly f.m 0x03F
  | .pkset f => f.headOk && f.pk && modOnly f.m 0x1FC
  | .cvt f => f.headOk && f.noB && f.type ≥ 4 && modBits f.m 6 4 ≥ 4 &&
      (if is64 f.type then f.d.isVpd else f.d.isVd) &&
      (f.a.isSI ||
        (if modBits f.m 6 4 == 7 then f.a.isVpn else if is64 (modBits f.m 6 4) then f.a.isVp
         else if modBits f.m 6 4 == 6 then f.a.isVn else if modBits f.m 6 4 ≤ 5 then f.a.isVnh
         else if is16 (modBits f.m 6 4) then f.a.isVh else f.a.isV))
  | .cvtsi f => f.headOk && f.noB && f.d.isVd && (f.type ≤ 1 || modBits f.m 6 4 ≤ 1) &&
      [0, 1, 4, 5, 6, 8, 9, 12, 13, 14, 15].contains f.type &&
      [0, 1, 4, 5, 6, 8, 9, 12, 13, 14, 15].contains (modBits f.m 6 4) &&
      (f.a.isSI || (if is16 (modBits f.m 6 4) then f.a.isVh else f.a.isV))
  | .cvtdx f => f.headOk && f.d.isVd && f.a.isV && modOnly f.m 0x23F && (f.type == 2 || f.type == 3) &&
      (if modBits f.m 9 1 == 1 then f.b.isV else f.noB)
  -- lane and predicate (R243)
  | .plop f => f.headOk && f.d.isP && f.a.isP && f.b.isP && modOnly f.m 0xFF
  | .pmov f => f.headOk && f.noB && f.noM && ((f.d.isP && (f.a.isV || f.a.isP)) || (f.d.isVd && f.a.isP))
  | .ballot f => f.headOk && f.d.isVd && f.a.isP && f.noB && f.noM
  | .vote f => f.headOk && f.d.isP && f.a.isP && f.noB && f.m < 3
  | .laneid f => f.headOk && f.d.isVd && f.noA && f.noB && f.m < 3
  | .shfl f => f.headOk && f.d.isVd && f.a.isV && srcV f.b && modOnly f.m 0x1F && modBits f.m 2 3 ≤ 6
  | .redux f => f.headOk && f.oneV && modOnly f.m 0x3FC && f.intT && modBits f.m 6 3 ≤ 5
  | .scan f => f.headOk && f.oneV && modOnly f.m 0x3FD && f.intT && modBits f.m 6 3 ≤ 5
  | .matchLanes f => f.headOk && f.d.isVd && f.noB && modOnly f.m 0x200 && (if f.m == 0 then f.a.isV else f.a.isVp)
  | .firstLane f => f.headOk && f.d.isVd && f.a.isP && f.noB && f.noM
  -- scalar (R246)
  | .smov f => f.headOk && f.d.isS && f.a.isSI && f.noB && f.noM
  | .smovi f => f.headOk && f.d.isS && f.a.isI && f.b.isI && modOnly f.m 0x300 && modBits f.m 8 2 ≤ 2
  | .sadd f => f.headOk && f.s2 && f.noM
  | .ssub f => f.headOk && f.s2 && f.noM
  | .smul f => f.headOk && f.s2 && f.noM
  | .sand f => f.headOk && f.s2 && f.noM
  | .sor f => f.headOk && f.s2 && f.noM
  | .sxor f => f.headOk && f.s2 && f.noM
  | .sshl f => f.headOk && f.s2 && f.noM
  | .sshr f => f.headOk && f.s2 && modOnly f.m 0x200
  | .sset f => f.headOk && f.s2 && modOnly f.m 0x1FC && modBits f.m 6 3 ≤ 5 && (f.type == 10 || f.type == 11)
  | .ssel f => f.headOk && f.s2 && f.noM
  | .sld f => f.headOk && f.d.isS && f.a.isS && f.b.isI && modOnly f.m 0x3C0 && modBits f.m 6 3 ≤ 3
  | .sst f => f.headOk && f.d.isS && f.a.isS && f.b.isI && modOnly f.m 0x1C0 && modBits f.m 6 3 ≤ 3
  | .s2v f => f.headOk && f.d.isVd && f.a.isS && f.noB && modOnly f.m 0x200
  | .v2s f => f.headOk && f.d.isS && f.a.isV && modOnly f.m 0x200 && (if f.m == 0 then f.b.isI else f.noB)
  -- memory (R265)
  | .ld f => f.headOk && f.addr && modOnly f.m 0x3E7 && f.xferW (modBits f.m 9 1 == 1) &&
      regsOf (modBits f.m 0 3) f.d &&
      (if modBits f.m 5 1 == 1 then modBits f.m 6 3 ≤ 5 && modBits f.m 0 3 != 4 else modBits f.m 6 3 == 0)
  | .st f => f.headOk && f.addr && modOnly f.m 0x1E7 && f.xferW false && regsOf (modBits f.m 0 3) f.d &&
      (if modBits f.m 5 1 == 1 then modBits f.m 6 3 ≤ 5 && modBits f.m 0 3 != 4 else modBits f.m 6 3 == 0)
  | .ldl f => f.headOk && srcV f.a && (f.b.isI || f.noB) && modOnly f.m 0x207 && f.xferW (modBits f.m 9 1 == 1) &&
      regsOf (modBits f.m 0 3) f.d
  | .stl f => f.headOk && srcV f.a && (f.b.isI || f.noB) && modOnly f.m 0x007 && f.xferW false &&
      regsOf (modBits f.m 0 3) f.d
  | .ldw f => f.headOk && (f.a.isV || f.a.isS) && (f.b.isI || f.noB) && modOnly f.m 0x3C7 &&
      f.xferW (modBits f.m 9 1 == 1) && regsOf (modBits f.m 0 3) f.d
  | .stw f => f.headOk && (f.a.isV || f.a.isS) && (f.b.isI || f.noB) && modOnly f.m 0x1C7 && f.xferW false &&
      regsOf (modBits f.m 0 3) f.d
  | .ldr f => f.headOk && f.a.isS && f.b.isI && modOnly f.m 0x207 && f.xferW (modBits f.m 9 1 == 1) &&
      regsOf (modBits f.m 0 3) f.d
  | .atom f => f.headOk && f.atomDst && (f.a.isVp || f.a.isS) && f.atomVal f.b && modBits f.m 5 3 ≤ 5 && f.atomT
  | .red f => f.headOk && f.noD && (f.a.isVp || f.a.isS) && f.atomVal f.b && modBits f.m 5 3 ≤ 5 && f.atomT &&
      modBits f.m 8 1 == 0 && modBits f.m 2 3 != 6
  | .cas f => f.headOk && f.atomDst && (f.a.isVp || f.a.isS) && f.atomVal f.b && modBits f.m 5 3 ≤ 5 &&
      modBits f.m 2 3 == 0
  | .mdld f => f.headOk && f.d.isVd && f.addr && f.noM
  | .mdst f => f.headOk && f.d.isVd && f.addr && f.noM
  | .prf f => f.headOk && f.noD && f.addr && f.m < 3
  | .cctl f => f.headOk && f.noD && f.addr && modOnly f.m 7 && modBits f.m 0 2 ≤ 1
  | .ldq f => f.headOk && f.d.isQ && f.a.isS && f.b.isI && modOnly f.m 0x207 && modBits f.m 0 3 ≤ 2 &&
      (modBits f.m 9 1 == 0 || modBits f.m 0 3 ≤ 1)
  | .region f => f.headOk && f.noM && f.d.isRange && f.a.isRange && f.b.isRange &&
      (f.d.rangeRegs ++ f.a.rangeRegs ++ f.b.rangeRegs).length ≤ 16 &&
      (f.d.rangeRegs ++ f.a.rangeRegs ++ f.b.rangeRegs).eraseDups.length ==
        (f.d.rangeRegs ++ f.a.rangeRegs ++ f.b.rangeRegs).length
  -- ordering, barriers, parties, spawn (R277)
  | .fence f => f.headOk && f.noD && f.noB && modOnly f.m 0x1C3 && (if modBits f.m 6 3 ≥ 6 then f.a.isS else f.noA)
  | .rel f => f.headOk && modOnly f.m 0x3C3 && (if modBits f.m 6 3 ≥ 6 then f.b.isS else f.noB) &&
      (if modBits f.m 9 1 == 1 then f.d.isS && f.a.isS else f.noD && f.noA && modBits f.m 0 2 == 0)
  | .acq f => f.headOk && modOnly f.m 0x3C7 && (if modBits f.m 6 3 ≥ 6 then f.b.isS else f.noB) &&
      (if modBits f.m 9 1 == 1 then f.d.isS && f.a.isS else f.noD && f.noA && modBits f.m 0 3 == 0)
  | .waitc f => f.headOk && f.d.isWaitc && f.a.isWaitc && f.b.isWaitc && f.noM
  | .mark f => f.headOk && f.noD && f.noA && f.noB && modOnly f.m 0x200
  | .barinit f => f.headOk && f.bar && f.b.isSI && modOnly f.m 0x200
  | .bararv f => f.headOk && f.bar && f.noB && f.noM
  | .barexp f => f.headOk && f.bar && f.b.isSI && f.noM
  | .barwait f => f.headOk && f.bar && (f.b.isS || f.b.isImax 1) && f.noM
  | .bartest f => f.headOk && f.d.isP && f.a.isImax 15 && (f.b.isS || f.b.isImax 1) && f.noM
  | .join f => f.headOk && f.d.isS && f.a.isS && f.b.isSI && f.noM
  | .leave f => f.headOk && f.noD && f.noA && f.noB && f.noM
  | .partyq f => f.headOk && f.d.isS && f.a.isImax 33 && f.noB && f.noM
  | .spawn f => f.headOk && f.noD && f.a.isSI && (f.b.isVp || f.b.isS) && f.noM
  | .termq f => f.headOk && f.d.isS && f.a.isS && f.noB && f.noM
  | .accalloc f => f.headOk && f.d.isP && f.a.isZ && f.b.isSI && f.noM
  | .accfree f => f.headOk && f.noD && f.a.isZ && f.noB && f.noM
  -- tiles and copies (R307, R310, R315)
  | .tdef f => f.headOk && f.d.isT && f.a.isS && f.noB && f.noM
  | .tfree f => f.headOk && f.d.isT && f.noA && f.noB && f.noM
  | .tstat f => f.headOk && f.d.isS && f.a.isT && f.b.isImax 1 && f.noM
  | .tld f => f.headOk && f.d.isVd && f.a.isT && f.b.isSI && f.noM
  | .tst f => f.headOk && f.d.isT && f.a.isV && f.noB && f.noM
  | .cpl f => f.headOk && f.d.isS && f.a.isS && f.b.isSI && modOnly f.m 0x3E0
  | .cpt f => f.headOk && f.d.isT && f.a.isS && f.b.isSk 4 && modOnly f.m 0x3E0
  | .cpq f => f.headOk && f.d.isQ && f.a.isS && f.b.isSI && f.noM
  | .cpo f => f.headOk && f.d.isT && f.a.isS && f.b.isSk 4 && modOnly f.m 0x3E1
  | .qclose f => f.headOk && f.d.isQ && f.noA && f.noB && f.noM
  | .qstat f => f.headOk && f.d.isS && f.a.isQ && f.noB && f.noM
  -- matrix (R293)
  | .mma f => f.headOk && f.d.isZ && f.a.isTR && (f.b.isTR || f.b.isS) && modOnly f.m 0x3C && f.type ≤ 1
  | .mmas f => f.headOk && f.d.isZ && f.a.isTR && f.b.isTR && modOnly f.m 0x1FC && f.type ≤ 1
  | .mmx f => f.headOk && f.d.isZ && f.a.isTR && f.b.isTR && modOnly f.m 0x3C && (f.type == 2 || f.type == 3)
  | .msca f => f.headOk && f.d.isZ && f.a.isZ && f.b.isT && f.noM
  | .msl f => f.headOk && f.d.isZ && f.a.isTR && (f.b.isTR || f.b.isS) && modOnly f.m 0x33F &&
      (modBits f.m 9 1 == 1 ||
        (1 ≤ modBits f.m 0 6 && modBits f.m 0 6 ≤ (if modBits f.m 8 1 == 1 then 4 else 8)))
  | .mzero f => f.headOk && f.d.isZ && f.noA && f.noB && modOnly f.m 0x3C && (f.type == 8 || f.type == 6 || f.type == 7)
  | .mlda f => f.headOk && f.d.isZ && f.a.isT && f.noB && modOnly f.m 0x3C && (f.type == 8 || f.type == 6 || f.type == 7)
  | .mcvt f => f.headOk && f.d.isT && f.a.isZ && f.noB && modOnly f.m 0x3F && (f.type == 8 || f.type == 6 || f.type == 7)
  | .mstat f => f.headOk && f.d.isS && f.a.isZ && f.noB && f.noM
  -- fabric (R319)
  | .coll f => f.headOk && f.d.isT && f.a.isSk 3 && f.b.isImax 15 && f.noM
  | .collDone f => f.headOk && f.noD && f.a.isSk 4 && f.noB && modOnly f.m 0x300 && modBits f.m 9 1 == 1
  | .rld f => f.headOk && modOnly f.m 0x207 && modBits f.m 0 3 ≤ 3 && f.xferW (modBits f.m 9 1 == 1) &&
      regsOf (modBits f.m 0 3) f.d && f.a.isS && (f.b.isVp || f.b.isS)
  | .rst f => f.headOk && modOnly f.m 0x007 && modBits f.m 0 3 ≤ 3 && regsOf (modBits f.m 0 3) f.d && f.a.isS &&
      (f.b.isVp || f.b.isS)
  | .rstBlk f => f.headOk && modOnly f.m 0x308 && modBits f.m 9 1 == 1 && f.d.isT && f.a.isS && f.b.isSk 4
  | .rred f => f.headOk && f.d.isT && f.a.isT && f.b.isSk 4 && modBits f.m 0 1 == 0 && modBits f.m 5 3 ≤ 3 &&
      [8, 4, 5, 6, 7].contains (modBits f.m 1 4) && (modBits f.m 5 3 != 3 || modBits f.m 1 4 == 6)
  | .ratom f => f.headOk && f.atomDst && f.a.isS && (f.b.isVp || f.b.isS) && modBits f.m 5 3 == 0 && f.atomT
  | .vmask f => f.headOk && f.d.isP && f.a.isV && f.b.isS && modOnly f.m 0x3C
  | .vrsc f => f.headOk && f.d.isVd && f.a.isV && f.b.isSI && modOnly f.m 3
  | .msv f => f.headOk && f.noM && f.b.isP && f.d.isVd && f.a.isV &&
      (match f.d, f.a with | .v x _ _, .v y _ _ => x ≤ 253 && y ≤ 253 | _, _ => false)
  | .gangq f => f.headOk && f.d.isS && f.a.isS && f.b.isS && f.noM
  | .gangack f => f.headOk && f.noD && f.a.isS && f.noB && f.noM
  -- bank control (R327)
  | .xmodeStep1 f => f.headOk && f.d.isS && f.a.isS && f.b.isS && f.noM
  | .xmodeStep2 f => f.headOk && f.d.isS && f.a.isS && f.b.isS && f.noM
  | .xmodeStep3 f => f.headOk && f.d.isS && f.a.isS && f.b.isS && f.noM
  | .xmodeExit f => f.headOk && f.d.isS && f.a.isS && f.b.isS && f.noM
  | .xmodeOtherWord f => f.headOk && f.d.isS && f.a.isS && f.b.isS && f.noM
  | .xprog f => f.headOk && f.d.isS && f.a.isS && f.b.isSI && f.noM
  | .xcol f => f.headOk && f.noD && f.a.isS && f.b.isSk 4 && f.noM
  | .xread f => f.headOk && f.d.isSk 4 && f.a.isS && f.noB && f.noM
  | .xstat f => f.headOk && f.d.isS && f.a.isS && f.noB && f.noM
  | .xreset f => f.headOk && f.noD && f.a.isS && f.noB && f.noM
  -- access engine (R316)
  | .afor f => f.headOk && f.d.isS && f.a.isSI && f.b.isS && f.m != 0
  | .aend f => f.headOk && f.noD && f.noA && f.noB && f.noM
  | .qpush f => f.headOk && f.d.isQ && f.a.isS && f.b.isSI && f.noM
  | .await f => f.headOk && f.d.isT && (f.a == .imm 0 || f.a == .imm 2) && f.noB && f.noM
  -- system (R329, R32)
  | .csrr f => f.headOk && f.d.isS && f.a.isCsr && f.noB && f.noM
  | .csrw f => f.headOk && f.d.isCsr && f.a.isS && f.noB && f.noM
  | .replay f => f.headOk && f.d.isS && f.a.isS && f.b.isS && f.noM
  | .tlbinv f => f.headOk && f.noD && f.a.isS && f.b.isS && f.noM
  | .evpost f => f.headOk && f.noD && f.a.isS && f.b.isS && f.noM
  | .launch f => f.headOk && f.d.isSk 2 && f.a.isS && f.b.isS && modOnly f.m 0x200
  | .resume f => f.headOk && f.noD && f.a.isS && f.b.isV && f.noM
  | .kill f => f.headOk && f.noD && f.a.isV && f.noB && f.noM
  | .ctxopCreate f => f.headOk && f.d.isS && f.a.isS && f.b.isS && f.m == 0
  | .ctxopActivate f => f.headOk && f.d.isS && f.a.isS && f.b.isS && f.m == 1
  | .ctxopPreempt f => f.headOk && f.d.isS && f.a.isS && f.b.isS && f.m == 2
  | .ctxopRestore f => f.headOk && f.d.isS && f.a.isS && f.b.isS && f.m == 3
  | .ctxopReset f => f.headOk && f.d.isS && f.a.isS && f.b.isS && f.m == 4
  | .ctxopDestroy f => f.headOk && f.d.isS && f.a.isS && f.b.isS && f.m == 5
  | .ctxopQuery f => f.headOk && f.d.isS && f.a.isS && f.b.isS && f.m == 6
  | .ctxopModify f => f.headOk && f.d.isS && f.a.isS && f.b.isS && f.m == 7
  | .energyq f => f.headOk && f.d.isS && f.a.isImax 10 && f.noB && f.noM
  -- executor instructions (R139, R140)
  | .setk s v => s != 2 && s != 3 || (if s == 2 then v ≤ 7 else v ≤ 255)
  | .setm s v => s != 2 && s != 3 || (if s == 2 then v ≤ 7 else v ≤ 255)
  | .xout w => w ≤ 248
  | .xin _ w => w ≤ 248
  | .execRel s => s ≤ 2
  | .execAcq s => s ≤ 2
  | .execFence s => s ≤ 2
  | _ => true

end Sys2Proof
end

