-- ==== Sys2Proof/Machine/Operands.lean ====
section
/-! DEFINITION. Every operand form: V registers with read permutations and sub-modifiers (R214, R217, R218), the register
window and the operand buffer (R68 to R71), S registers, immediates (R216), predicates, guards (R211), and the writes of
results. -/

namespace Sys2Proof
namespace Operand
def vreg : Operand → Nat
  | .v r _ _ => r.toNat
  | _ => 0
def sreg : Operand → Nat
  | .s n => n.toNat
  | _ => 0
def pnum : Operand → Nat
  | .pred n => n.toNat
  | _ => 0
def immU : Operand → Nat
  | .imm x => x.toNat
  | _ => 0
def immS : Operand → Int
  | .imm x => x.toInt
  | _ => 0
def tileNum : Operand → Nat
  | .tile n => n.toNat
  | .role _ n => n.toNat
  | _ => 0
def zNum : Operand → Nat
  | .acc n => n.toNat
  | _ => 0
def qNum : Operand → Nat
  | .queue n => n.toNat
  | _ => 0
def csrNum : Operand → Nat
  | .csr n => n.toNat
  | _ => 0
end Operand

namespace Machine

/-! ## Register window and operand buffer -/

namespace Caravan

/-- Register k of lane L as an instruction reads it (R71). -/
def reg (c : Caravan) (k L : Nat) : W32 :=
  if c.staged.contains k then sget 0 c.slots (1024 * k + L) else sget 0 c.win (1024 * k + L)

/-- An instruction's write of register k of lane L (R71). -/
def setReg (c : Caravan) (k L : Nat) (x : W32) : Caravan :=
  if c.staged.contains k then
    { c with slots := sset 0 c.slots (1024 * k + L) x, swr := sset 0 c.swr k (sget 0 c.swr k ||| laneBit L) }
  else { c with win := sset 0 c.win (1024 * k + L) x }

/-- A register pair (R168): the even register holds the low half. -/
def reg64 (c : Caravan) (k L : Nat) : W64 := (c.reg (k + 1) L).append (c.reg k L)
def setReg64 (c : Caravan) (k L : Nat) (x : W64) : Caravan :=
  (c.setReg k L (x.setWidth 32)).setReg (k + 1) L ((x >>> 32).setWidth 32)

/-- Write a value to register k in every lane of a set; the values are computed before any write (R218). -/
def writeLanes (c : Caravan) (k : Nat) (part : Mask) (v : Nat → W32) : Caravan :=
  (lanesBelow c.width part).foldl (fun a L => a.setReg k L (v L)) c

def writeLanes64 (c : Caravan) (k : Nat) (part : Mask) (v : Nat → W64) : Caravan :=
  (lanesBelow c.width part).foldl (fun a L => a.setReg64 k L (v L)) c

def pred (c : Caravan) (n : Nat) : Mask := sget 0 c.preds n
def setPred (c : Caravan) (n : Nat) (m : Mask) : Caravan := { c with preds := sset 0 c.preds n m }

/-- Write a predicate in the lanes of a set. -/
def writePred (c : Caravan) (n : Nat) (part : Mask) (v : Nat → Bool) : Caravan :=
  c.setPred n ((c.pred n &&& ~~~part) ||| (maskWhere c.width v &&& part))

/-- Copy each lane that an instruction has written of each staged register to the window (R71). -/
def flushStaged (c : Caravan) : Caravan :=
  let win := c.staged.foldl (fun w k =>
    (lanesBelow c.width (sget 0 c.swr k)).foldl (fun w L => sset 0 w (1024 * k + L) (sget 0 c.slots (1024 * k + L))) w) c.win
  { c with win := win, swr := [] }

/-- Stage registers in the named order (R70). -/
def stage (c : Caravan) (ks : List Nat) : Caravan :=
  let slots := ks.foldl (fun a k =>
    (List.range c.width).foldl (fun a L => sset 0 a (1024 * k + L) (sget 0 c.win (1024 * k + L))) a) []
  { c with staged := ks, slots := slots, swr := [] }

end Caravan

/-- The lane whose register lane L reads under a permutation code (R217). -/
def permLane (code : Nat) (L low : Nat) : Nat :=
  let w := L / 32
  let i := L % 32
  match code with
  | 1 => 32 * w + (i ^^^ 1)
  | 2 => 32 * w + (i ^^^ 2)
  | 3 => 32 * w + (i ^^^ 4)
  | 4 => 32 * w + (i ^^^ 8)
  | 5 => 32 * w + (i ^^^ 16)
  | 6 => 32 * w + 8 * (i / 8) + (i + 1) % 8
  | 7 => 32 * w + 8 * (i / 8) + (i + 2) % 8
  | 8 => 32 * w + 8 * (i / 8) + (i + 4) % 8
  | 9 => 32 * w + (31 - i)
  | 10 => 32 * w + 8 * (i / 8) + (7 - i % 8)
  | 11 => 32 * w
  | 12 => 32 * w + 8 * (i / 8)
  | 13 => low
  | 14 => 32 * (w ^^^ 1) + i
  | _ => L

/-- Types by which ABS and NEG act (R214). -/
inductive SrcTy where
  | int | fp32 | fp16
  deriving DecidableEq, Repr

/-- HALF, ABS and NEG of a 32-bit value, in that order (R214). -/
def subMod32 (ty : SrcTy) (sub : BitVec 4) (x : W32) : W32 :=
  let half := sub.toNat / 4
  let x := if half = 0 then x
    else let h := (x >>> (16 * (half - 1))).setWidth 16
      h.append h
  let x := if sub.getLsbD 1 then
      match ty with
      | .int => if x.msb then 0 - x else x
      | .fp32 => x &&& 0x7FFFFFFF
      | .fp16 => x &&& 0x7FFF7FFF
    else x
  if sub.getLsbD 0 then
    match ty with
    | .int => 0 - x
    | .fp32 => x ^^^ 0x80000000
    | .fp16 => x ^^^ 0x80008000
  else x

/-- ABS and NEG of a 64-bit floating-point value (R214). -/
def subMod64 (sub : BitVec 4) (x : W64) : W64 :=
  let x := if sub.getLsbD 1 then x &&& 0x7FFFFFFFFFFFFFFF else x
  if sub.getLsbD 0 then x ^^^ 0x8000000000000000 else x

/-- How a 32-bit or 64-bit immediate is read (R216). -/
def immVal (w : Nat) (zero : Bool) (x : BitVec 16) : BitVec w := if zero then x.setWidth w else x.signExtend w

/-- imm32 of MOVI and SMOVI (R216). -/
def imm32 : Operand → Operand → W32
  | .imm a, .imm b => b.append a
  | _, _ => 0


namespace State

/-- An S register of the issuing agent: the caravan's, or the slice's own (R93). -/
def sreg (s : State) (n : Nat) : W64 :=
  if s.cur.slice then sget 0 s.me.slice.sregs n else sget 0 s.me.sregs n

def setS (s : State) (n : Nat) (x : W64) : State :=
  if s.cur.slice then s.setMe { s.me with slice := { s.me.slice with sregs := sset 0 s.me.slice.sregs n x } }
  else s.setMe { s.me with sregs := sset 0 s.me.sregs n x }

/-- A 32-bit source of lane L (R218, R229). -/
def src32 (s : State) (ty : SrcTy) (zero : Bool) (o : Operand) (L : Nat) : W32 :=
  match o with
  | .v r p sub => subMod32 ty sub (s.me.reg r.toNat (permLane p.toNat L (lowest s.me.width s.me.mask)))
  | .s n => (s.sreg n.toNat).setWidth 32
  | .imm x => immVal 32 zero x
  | _ => 0

/-- A 64-bit source of lane L: a pair, an S register whole, an immediate extended (R229). -/
def src64 (s : State) (zero : Bool) (o : Operand) (L : Nat) : W64 :=
  match o with
  | .v r p sub => subMod64 sub (s.me.reg64 r.toNat (permLane p.toNat L (lowest s.me.width s.me.mask)))
  | .s n => s.sreg n.toNat
  | .imm x => immVal 64 zero x
  | _ => 0

/-- A scalar source: an S register or an immediate. -/
def srcS (s : State) (zero : Bool) (o : Operand) : W64 :=
  match o with
  | .s n => s.sreg n.toNat
  | .imm x => immVal 64 zero x
  | _ => 0

/-- A predicate source of lane L. -/
def srcP (s : State) (o : Operand) (L : Nat) : Bool := (s.me.pred o.pnum).getLsbD L

/-- The lanes for which the guard is true (R211). -/
def guardMask (s : State) (g : Guard) : Mask :=
  if g.pred = 63 then (if g.neg then 0 else BitVec.allOnes 1024)
  else if g.neg then ~~~(s.me.pred g.pred.toNat) else s.me.pred g.pred.toNat

/-- The lanes that take part (R218). -/
def part (s : State) (f : Fields) : Mask := s.me.mask &&& s.guardMask f.g

/-- The caravan's guard: in its lowest active lane; a slice reads none but "never" (R211). -/
def caravanGuard (s : State) (f : Fields) : Bool :=
  if f.g.pred = 63 then !f.g.neg else (s.guardMask f.g).getLsbD (lowest s.me.width s.me.mask)

def lowLane (s : State) : Nat := lowest s.me.width s.me.mask

/-- Results of a per-pass instruction. -/
def putV (s : State) (f : Fields) (v : Nat → W32) : State := s.setMe (s.me.writeLanes f.d.vreg (s.part f) v)
def putV64 (s : State) (f : Fields) (v : Nat → W64) : State := s.setMe (s.me.writeLanes64 f.d.vreg (s.part f) v)
def putP (s : State) (n : Nat) (f : Fields) (v : Nat → Bool) : State := s.setMe (s.me.writePred n (s.part f) v)

end State
end Machine
end Sys2Proof
end

