-- ==== Sys2Proof/Machine/Flags.lean ====
section
/-! DEFINITION. Numbers, rounding and the FLAGS register (chapter 09): formats, decode_fp, round_fp, round_int, saturation,
and the flags each raises (R163 to R167, R169 to R176, R241). -/

namespace Sys2Proof.Machine

/-! ## FLAGS (R166) -/

abbrev Flag := BitVec 7
def fNV : Flag := 1
def fDZ : Flag := 2
def fOF : Flag := 4
def fUF : Flag := 8
def fNX : Flag := 16
def fSAT : Flag := 32
def fRSVD : Flag := 64
def flagIf (b : Bool) (x : Flag) : Flag := if b then x else 0

/-- Flags are sticky (R167). -/
def State.raise (s : State) (x : Flag) : State := s.setMe { s.me with flags := s.me.flags ||| x }

/-- The flags of the lanes of a set (R167). -/
def lanesFlags (W : Nat) (part : Mask) (fl : Nat → Flag) : Flag := (lanesBelow W part).foldl (fun a L => a ||| fl L) 0

/-! ## Formats (R163) -/

structure Fmt where
  ebits : Nat
  fbits : Nat
  deriving DecidableEq, Repr

def fp64 : Fmt := { ebits := 11, fbits := 52 }
def fp32 : Fmt := { ebits := 8, fbits := 23 }
def fp16 : Fmt := { ebits := 5, fbits := 10 }
def bf16 : Fmt := { ebits := 8, fbits := 7 }

namespace Fmt
def bias (f : Fmt) : Nat := 2 ^ (f.ebits - 1) - 1
def width (f : Fmt) : Nat := 1 + f.ebits + f.fbits
/-- Exponent of the last place of the subnormals. -/
def qmin (f : Fmt) : Int := 1 - (f.bias : Int) - (f.fbits : Int)
def signBit (f : Fmt) (neg : Bool) : Nat := if neg then 2 ^ (f.ebits + f.fbits) else 0
def infinity (f : Fmt) (neg : Bool) : Nat := f.signBit neg + (2 ^ f.ebits - 1) * 2 ^ f.fbits
def largest (f : Fmt) (neg : Bool) : Nat := f.infinity neg - 1
def nan (f : Fmt) : Nat := f.infinity false + 2 ^ (f.fbits - 1)
end Fmt

/-- decode_fp (R176): a NaN, an infinity, or ±m·2^e. -/
inductive Val where
  | nan (signalling : Bool)
  | inf (neg : Bool)
  | fin (neg : Bool) (m : Nat) (e : Int)
  deriving DecidableEq, Repr

def decodeFp (f : Fmt) (x : Nat) : Val :=
  let neg := field x (f.ebits + f.fbits) 1 = 1
  let ex := field x f.fbits f.ebits
  let fr := field x 0 f.fbits
  if ex = 2 ^ f.ebits - 1 then
    if fr = 0 then .inf neg else .nan (fr < 2 ^ (f.fbits - 1))
  else if ex = 0 then .fin neg fr f.qmin
  else .fin neg (2 ^ f.fbits + fr) (f.qmin + (ex - 1 : Nat))

namespace Val
def isNan : Val → Bool
  | .nan _ => true
  | _ => false
def isSnan : Val → Bool
  | .nan b => b
  | _ => false
def isZero : Val → Bool
  | .fin _ m _ => m = 0
  | _ => false
def isInf : Val → Bool
  | .inf _ => true
  | _ => false
def neg : Val → Bool
  | .nan _ => false
  | .inf b => b
  | .fin b _ _ => b
end Val

/-! ## Rounding (R165, R174) -/

/-- Number of binary digits. -/
def digits (m : Nat) : Nat := if m = 0 then 0 else m.log2 + 1

/-- The mode's decision to go one up in magnitude: kept part odd, remainder, half of the discarded range. -/
def roundUp (rm : Nat) (neg odd : Bool) (rem half : Nat) : Bool :=
  match rm with
  | 0 => rem > half || (rem = half && odd)
  | 1 => false
  | 2 => !neg && rem ≠ 0
  | _ => neg && rem ≠ 0

/-- m·2^e rounded to a multiple of 2^q; and whether that changed it. -/
def roundAt (rm : Nat) (neg : Bool) (m : Nat) (e q : Int) : Nat × Bool :=
  if q ≤ e then (m * 2 ^ (e - q).toNat, false)
  else
    let k := (q - e).toNat
    let r := m % 2 ^ k
    let g := m / 2 ^ k
    (if roundUp rm neg (g % 2 = 1) r (2 ^ (k - 1)) then g + 1 else g, r ≠ 0)

/-- round_fp of ±m·2^e, or of a value strictly between that and ±(m+1)·2^e when `sticky` (R165, R176). The callers give a
sticky value more digits than any format holds. -/
def roundFp (f : Fmt) (rm : Nat) (neg : Bool) (m : Nat) (e : Int) (sticky : Bool := false) : Nat × Flag :=
  if m = 0 && !sticky then (f.signBit neg, 0) else
  let (m, e) := if sticky then (2 * m + 1, e - 1) else (m, e)
  let p := f.fbits + 1
  let q0 : Int := e + (digits m : Nat) - (p : Nat)
  let q := max q0 f.qmin
  let (g, inexact) := roundAt rm neg m e q
  let (g, q) := if g = 2 ^ p then (2 ^ (p - 1), q + 1) else (g, q)
  let top : Int := (f.bias : Int) - (f.fbits : Int)
  if q > top && g ≥ 2 ^ (p - 1) then
    let toInf := rm = 0 || (rm = 2 && !neg) || (rm = 3 && neg)
    (if toInf then f.infinity neg else f.largest neg, fOF ||| fNX)
  else
    -- tininess after rounding, with unbounded exponent
    let (g0, _) := roundAt rm neg m e q0
    let tiny := q0 < f.qmin && !(g0 = 2 ^ p && q0 + 1 = f.qmin)
    let bits := if g < 2 ^ (p - 1) then g else (q - f.qmin + 1).toNat * 2 ^ f.fbits + (g - 2 ^ (p - 1))
    (f.signBit neg + bits, flagIf inexact fNX ||| flagIf (tiny && inexact) fUF)

/-- round_int of ±m·2^e (R176). -/
def roundInt (rm : Nat) (neg : Bool) (m : Nat) (e : Int) : Int × Bool :=
  let (g, x) := roundAt rm neg m e 0
  (if neg then -(g : Int) else g, x)

/-- sat (R176). -/
def clamp (lo hi x : Int) : Int := if x < lo then lo else if x > hi then hi else x

/-- Exact sum of dyadics ±m·2^e, as an integer over 2^e. -/
def addExact (a b : Bool × Nat × Int) : Int × Int :=
  let e := min a.2.2 b.2.2
  let x : Int := a.2.1 * 2 ^ (a.2.2 - e).toNat
  let y : Int := b.2.1 * 2 ^ (b.2.2 - e).toNat
  ((if a.1 then -x else x) + (if b.1 then -y else y), e)

/-- round_fp of i·2^e; a zero has the sign given. -/
def roundSum (f : Fmt) (rm : Nat) (i : Int) (e : Int) (zneg : Bool) : Nat × Flag :=
  if i = 0 then (f.signBit zneg, 0) else roundFp f rm (i < 0) i.natAbs e

/-! ## Integers (R169, R170, R241) -/

/-- Integer types of R173 by code: width, signedness, range. -/
def intRange (t : Nat) : Int × Int :=
  match t with
  | 0 => (-7, 7)
  | 1 => (-127, 127)
  | 8 => (-2 ^ 31, 2 ^ 31 - 1)
  | 9 => (0, 2 ^ 32 - 1)
  | 10 => (-2 ^ 63, 2 ^ 63 - 1)
  | 11 => (0, 2 ^ 64 - 1)
  | 12 => (-2 ^ 15, 2 ^ 15 - 1)
  | 13 => (0, 2 ^ 16 - 1)
  | 14 => (-2 ^ 7, 2 ^ 7 - 1)
  | _ => (0, 2 ^ 8 - 1)

/-- si_value of R176: SI4, SI8. -/
def siValue (t x : Nat) : Int × Flag :=
  let w := if t = 0 then 4 else 8
  let c := x % 2 ^ w
  if c = 2 ^ (w - 1) then (0, fRSVD) else (signed w c, 0)

/-- dx_value of R176 as mantissa and exponent: DXB4 (2), DXB8 (3); `pair`: E0 in bits 7:0, E1 in bits 15:8. -/
def dxParts (t x : Nat) : Nat × Int × Flag :=
  let w := if t = 2 then 3 else 7
  let m := x % 2 ^ w
  (field x w 1, if m = 2 ^ (w - 1) then 0 else signed w m, if m = 2 ^ (w - 1) then fRSVD else 0)

def dxExp (pair sel : Nat) : Int := signed 8 (field pair (8 * sel) 8)

/-- Clamp an exact integer to a type's range, with SAT when that changes it. -/
def satInt (t : Nat) (x : Int) : Int × Flag :=
  let (lo, hi) := intRange t
  (clamp lo hi x, flagIf (x < lo || x > hi) fSAT)

/-! ## Atomic arithmetic (R270, R271) -/

/-- op(old, x) of an atomic, on 8·w-bit values: op and type codes of R270. FADD raises no flag. -/
def atomicOp (op t : Nat) (old x : Nat) : Nat :=
  let n := if t ≥ 2 then 64 else 32
  let a := old % 2 ^ n
  let b := x % 2 ^ n
  let less := if t % 2 = 0 then decide (signed n a < signed n b) else decide (a < b)
  match op with
  | 0 => (a + b) % 2 ^ n
  | 1 => if less then a else b
  | 2 => if less then b else a
  | 3 => a &&& b
  | 4 => a ||| b
  | 5 => a ^^^ b
  | 6 => b
  | _ =>
    let f := if t = 2 then fp64 else fp32
    match decodeFp f a, decodeFp f b with
    | .nan _, _ => f.nan
    | _, .nan _ => f.nan
    | .inf p, .inf q => if p = q then f.infinity p else f.nan
    | .inf p, _ => f.infinity p
    | _, .inf q => f.infinity q
    | .fin p m e, .fin q m' e' =>
      let (i, k) := addExact (p, m, e) (q, m', e')
      (roundSum f 0 i k (p && q && m = 0 && m' = 0)).1

end Sys2Proof.Machine
end

