-- ==== Sys2Proof/Machine/FloatOps.lean ====
section
/-! DEFINITION. The values of the floating-point and conversion instructions (R252 to R262), on bit strings as numbers, with
the flags that each raises. -/

namespace Sys2Proof.Machine

/-! ## Type codes (R173) -/

def typeBits (t : Nat) : Nat :=
  match t with
  | 0 => 4
  | 1 => 8
  | 2 => 4
  | 3 => 8
  | 4 => 16
  | 5 => 16
  | 6 => 32
  | 7 => 64
  | 8 => 32
  | 9 => 32
  | 10 => 64
  | 11 => 64
  | 12 => 16
  | 13 => 16
  | _ => 8

def fmtOf (t : Nat) : Fmt :=
  match t with
  | 4 => fp16
  | 5 => bf16
  | 7 => fp64
  | _ => fp32

def isFloat (t : Nat) : Bool := 4 ≤ t && t ≤ 7
def isSigned (t : Nat) : Bool := t = 0 || t = 1 || t = 8 || t = 10 || t = 12 || t = 14

/-! ## Arithmetic (R252) -/

def snanFlag (l : List Val) : Flag := flagIf (l.any Val.isSnan) fNV

def fpAdd (f : Fmt) (rm a b : Nat) : Nat × Flag :=
  let x := decodeFp f a
  let y := decodeFp f b
  match x, y with
  | .inf p, .inf q => if p = q then (f.infinity p, 0) else (f.nan, fNV)
  | .inf p, .fin _ _ _ => (f.infinity p, 0)
  | .fin _ _ _, .inf q => (f.infinity q, 0)
  | .fin p m e, .fin q m' e' =>
    let (i, k) := addExact (p, m, e) (q, m', e')
    roundSum f rm i k (if p = q then p else rm = 3)
  | _, _ => (f.nan, snanFlag [x, y])

def fpMul (f : Fmt) (rm a b : Nat) : Nat × Flag :=
  let x := decodeFp f a
  let y := decodeFp f b
  if x.isNan || y.isNan then (f.nan, snanFlag [x, y])
  else match x, y with
    | .fin p m e, .fin q m' e' => roundFp f rm (p != q) (m * m') (e + e')
    | x, y => if x.isZero || y.isZero then (f.nan, fNV) else (f.infinity (x.neg != y.neg), 0)

/-- a·b + c with one rounding. -/
def fpFma (f : Fmt) (rm a b c : Nat) : Nat × Flag :=
  let x := decodeFp f a
  let y := decodeFp f b
  let z := decodeFp f c
  let sn := snanFlag [x, y, z]
  let neg := x.neg != y.neg
  if x.isNan || y.isNan then (f.nan, sn)
  else if (x.isZero && y.isInf) || (x.isInf && y.isZero) then (f.nan, sn ||| fNV)
  else if (x.isInf || y.isInf) && z.isInf && z.neg != neg then (f.nan, sn ||| fNV)
  else match x, y, z with
    | _, _, .nan _ => (f.nan, sn)
    | .fin _ m e, .fin _ m' e', .fin r n k =>
      let (i, j) := addExact (neg, m * m', e + e') (r, n, k)
      roundSum f rm i j (if neg = r then neg else rm = 3)
    | .fin _ _ _, .fin _ _ _, .inf r => (f.infinity r, 0)
    | _, _, _ => (f.infinity neg, 0)

/-! ## Order (R253, R254) -/

/-- A key that orders the values of a format, −0 below +0. -/
def fpKey (f : Fmt) (x : Nat) : Int :=
  let n := 2 ^ (f.ebits + f.fbits)
  if x % (2 * n) ≥ n then -((x % n : Nat) : Int) - 1 else (x % n : Nat)

/-- FMIN, FMAX and the FP64 forms. -/
def fpPick (f : Fmt) (max nanOut : Bool) (a b : Nat) : Nat × Flag :=
  let x := decodeFp f a
  let y := decodeFp f b
  let fl := snanFlag [x, y]
  if x.isNan && y.isNan then (f.nan, fl)
  else if x.isNan then (if nanOut then f.nan else b, fl)
  else if y.isNan then (if nanOut then f.nan else a, fl)
  else if max then (if fpKey f b > fpKey f a then b else a, 0)
  else (if fpKey f b < fpKey f a then b else a, 0)

/-- Comparison of two numbers that are no NaN: −0 equals +0. -/
def fpLess (f : Fmt) (a b : Nat) : Bool :=
  !((decodeFp f a).isZero && (decodeFp f b).isZero) && fpKey f a < fpKey f b

/-- FSET, DSET and PKSET (R254). -/
def fpCompare (f : Fmt) (code a b : Nat) : Bool × Flag :=
  let x := decodeFp f a
  let y := decodeFp f b
  let un := x.isNan || y.isNan
  let lt := !un && fpLess f a b
  let gt := !un && fpLess f b a
  let quiet := snanFlag [x, y]
  let any := flagIf un fNV
  match code with
  | 0 => (!un && !lt && !gt, quiet)
  | 1 => (un || lt || gt, quiet)
  | 2 => (lt, any)
  | 3 => (!un && !gt, any)
  | 4 => (gt, any)
  | 5 => (!un && !lt, any)
  | 6 => (!un, quiet)
  | _ => (un, quiet)

/-! ## Special functions of FP32 (R255, R256) -/

/-- The integer square root, bit by bit from 2^(n−1) down. -/
def isqrt (n x : Nat) : Nat :=
  (List.range n).reverse.foldl (fun r i => if (r + 2 ^ i) * (r + 2 ^ i) ≤ x then r + 2 ^ i else r) 0

/-- 1 / (±m·2^e). -/
def recip (f : Fmt) (rm : Nat) (neg : Bool) (m : Nat) (e : Int) : Nat × Flag :=
  let k := digits m + 64
  roundFp f rm neg (2 ^ k / m) (-(k : Int) - e) (2 ^ k % m ≠ 0)

/-- A value m·2^e as m'·2^(2h). -/
def evenExp (m : Nat) (e : Int) : Nat × Int := if e % 2 = 0 then (m, e / 2) else (2 * m, (e - 1) / 2)

def fpSqrt (f : Fmt) (rm m : Nat) (e : Int) : Nat × Flag :=
  let (n, h) := evenExp m e
  let r := isqrt 64 (n * 2 ^ 64)
  roundFp f rm false r (h - 32) (r * r ≠ n * 2 ^ 64)

def fpRsqrt (f : Fmt) (rm m : Nat) (e : Int) : Nat × Flag :=
  let (n, h) := evenExp m e
  let r := isqrt 64 (2 ^ 120 / n)
  roundFp f rm false r (-60 - h) (r * r * n ≠ 2 ^ 120)

/-- 2^(0.b₁b₂…) to 240 fraction bits, rounded down: `bits` are b_i, b_(i+1), … and `root` is 2^(2^−(i−1)). -/
def powBits : List Bool → Nat → Nat → Nat
  | [], _, acc => acc
  | b :: r, root, acc =>
    let root := isqrt 242 (root * 2 ^ 240)
    powBits r root (if b then acc * root / 2 ^ 240 else acc)

/-- 2^x for a finite x = ±m·2^e. A result that is no power of two is irrational, so the value lies strictly above the
240 bits kept. -/
def fpExp2 (f : Fmt) (rm : Nat) (neg : Bool) (m : Nat) (e : Int) : Nat × Flag :=
  if m = 0 then roundFp f rm false 1 0
  else
    let lim (x : Int) : Int := clamp (-400) 400 x
    if e ≥ 0 then
      let n : Int := if e > 40 then 400 else lim (m * 2 ^ e.toNat : Nat)
      roundFp f rm false 1 (if neg then -n else n)
    else
      let k := (-e).toNat
      let whole : Int := if neg then -(((m + 2 ^ k - 1) / 2 ^ k : Nat) : Int) else (m / 2 ^ k : Nat)
      let frac := if neg then (2 ^ k - m % 2 ^ k) % 2 ^ k else m % 2 ^ k
      if frac = 0 then roundFp f rm false 1 (lim whole)
      else
        let tz := ((List.range k).find? (fun i => frac / 2 ^ i % 2 = 1)).getD 0
        let bits := ((List.range k).reverse.take (k - tz)).map (fun i => decide (frac / 2 ^ i % 2 = 1))
        let p := powBits bits (2 ^ 241) (2 ^ 240)
        roundFp f rm false p (lim whole - 240) true

/-- log2 of y / 2^400 for 1 ≤ y / 2^400 < 2, as n bits after the point, rounded down. -/
def logBits : Nat → Nat → Nat → Nat
  | 0, _, acc => acc
  | n + 1, y, acc =>
    let y := y * y / 2 ^ 400
    if y ≥ 2 ^ 401 then logBits n (y / 2) (2 * acc + 1) else logBits n y (2 * acc)

/-- log2 of m·2^e > 0 by the procedure of R256. -/
def fpLog2 (f : Fmt) (rm m : Nat) (e : Int) : Nat × Flag :=
  let d := digits m
  let top := 2 ^ (d - 1)
  let ex : Int := e + (d - 1 : Nat)
  if m = top then roundSum f rm ex 0 false
  else
    let big := m * m > 2 * top * top
    let ex := if big then ex + 1 else ex
    let l := logBits 150 (m * 2 ^ 400 / top) 0
    let t := if big then 2 ^ 150 - l else l
    let sh := digits t - 48
    let r := (t / 2 ^ sh + (if sh = 0 then 0 else t / 2 ^ (sh - 1) % 2)) * 2 ^ sh
    let (b, fl) := roundSum f rm (ex * 2 ^ 150 + (if big then -(r : Int) else r)) (-150) false
    (b, fl ||| fNX)

/-- The four functions of R255 and R256 with their special cases. -/
inductive SpecialFn where
  | rcp | rsq | sqrt | ex2 | lg2
  deriving DecidableEq, Repr

def fpSpecial (g : SpecialFn) (rm a : Nat) : Nat × Flag :=
  let f := fp32
  match decodeFp f a with
  | .nan sg => (f.nan, flagIf sg fNV)
  | .inf neg =>
    match g with
    | .rcp => (f.signBit neg, 0)
    | .rsq => if neg then (f.nan, fNV) else (0, 0)
    | .sqrt => if neg then (f.nan, fNV) else (f.infinity false, 0)
    | .ex2 => if neg then (0, 0) else (f.infinity false, 0)
    | .lg2 => if neg then (f.nan, fNV) else (f.infinity false, 0)
  | .fin neg m e =>
    match g with
    | .rcp => if m = 0 then (f.infinity neg, fDZ) else recip f rm neg m e
    | .rsq => if m = 0 then (f.infinity neg, fDZ) else if neg then (f.nan, fNV) else fpRsqrt f rm m e
    | .sqrt => if m = 0 then (f.signBit neg, 0) else if neg then (f.nan, fNV) else fpSqrt f rm m e
    | .ex2 => fpExp2 f rm neg m e
    | .lg2 => if m = 0 then (f.infinity true, fDZ) else if neg then (f.nan, fNV) else fpLog2 f rm m e

/-! ## Rounding, scaling, classes (R257 to R259) -/

def fpRnd (f : Fmt) (rm : Nat) (exact : Bool) (a : Nat) : Nat × Flag :=
  match decodeFp f a with
  | .nan sg => (f.nan, flagIf sg fNV)
  | .inf neg => (f.infinity neg, 0)
  | .fin neg m e =>
    let (i, x) := roundInt rm neg m e
    ((roundFp f 0 neg i.natAbs 0).1, flagIf (exact && x) fNX)

def fpScale (f : Fmt) (rm a : Nat) (n : Int) : Nat × Flag :=
  match decodeFp f a with
  | .nan sg => (f.nan, flagIf sg fNV)
  | .inf neg => (f.infinity neg, 0)
  | .fin neg m e => roundFp f rm neg m (e + clamp (-1000) 1000 n)

def fpClass (f : Fmt) (a : Nat) : Nat :=
  match decodeFp f a with
  | .nan sg => if sg then 2 ^ 0 else 2 ^ 1
  | .inf neg => if neg then 2 ^ 2 else 2 ^ 9
  | .fin neg m _ =>
    if m = 0 then (if neg then 2 ^ 5 else 2 ^ 6)
    else if m < 2 ^ f.fbits then (if neg then 2 ^ 4 else 2 ^ 7)
    else if neg then 2 ^ 3 else 2 ^ 8

/-! ## Conversions (R175, R260, R261) -/

/-- An integer into an integer type (R175). -/
def intTo (t : Nat) (x : Int) : Nat × Flag :=
  if isFloat t then roundFp (fmtOf t) 0 (x < 0) x.natAbs 0
  else let (v, fl) := satInt t x; (wrap (typeBits t) v, fl)

/-- A value into type t: `rm` for what rounds. -/
def convert (rm sty dty x : Nat) : Nat × Flag :=
  if isFloat sty then
    match decodeFp (fmtOf sty) x with
    | .nan sg => if isFloat dty then ((fmtOf dty).nan, flagIf sg fNV) else (0, fNV)
    | .inf neg =>
      if isFloat dty then ((fmtOf dty).infinity neg, 0)
      else
        let (lo, hi) := intRange dty
        (wrap (typeBits dty) (if neg then lo else hi), if dty ≤ 1 then fSAT else fNV)
    | .fin neg m e =>
      if isFloat dty then roundFp (fmtOf dty) rm neg m e
      else
        let (i, changed) := roundInt rm neg m e
        let (v, fl) := satInt dty i
        (wrap (typeBits dty) v, if fl ≠ 0 then (if dty ≤ 1 then fSAT else fNV) else flagIf changed fNX)
  else
    let (i, fl) : Int × Flag :=
      if sty ≤ 1 then siValue sty x
      else (if isSigned sty then signed (typeBits sty) x else (x % 2 ^ typeBits sty : Nat), 0)
    let (r, fl') := if isFloat dty then roundFp (fmtOf dty) rm (i < 0) i.natAbs 0 else intTo dty i
    (r, fl ||| fl')

/-! ## Block formats (R172, R262) -/

/-- M and G of a block type: DXB4 (2), DXB8 (3). -/
def dxMax (t : Nat) : Int := if t = 2 then 3 else 63
def dxGap (t : Nat) : Int := if t = 2 then 2 else 6

/-- round_int(x · 2^−e) of a finite FP32 value, and whether that changed it. -/
def dxRound (rm : Nat) (neg : Bool) (m : Nat) (ex e : Int) : Int × Bool := roundInt rm neg m (ex - e)

/-- e0 of the FP32 values of a block (R172). -/
def dxBlockExp (t rm : Nat) (l : List Nat) : Int :=
  let lo := -128 + dxGap t
  let fits (e : Int) : Bool := l.all (fun x =>
    match decodeFp fp32 x with
    | .fin neg m ex => (dxRound rm neg m ex e).1.natAbs ≤ (dxMax t).toNat
    | _ => true)
  match (List.range 260).find? (fun (i : Nat) => fits (lo + i)) with
  | some i => lo + i
  | none => lo

/-- The code of one value and the flags it raises. -/
def dxCode (t rm : Nat) (e0 : Int) (x : Nat) : Nat × Flag :=
  let w := if t = 2 then 3 else 7
  match decodeFp fp32 x with
  | .fin neg m ex =>
    let (m1, c1) := dxRound rm neg m ex (e0 - dxGap t)
    if m1.natAbs ≤ (dxMax t).toNat then (2 ^ w + wrap w m1, flagIf c1 fNX)
    else
      let (m0, c0) := dxRound rm neg m ex e0
      (wrap w m0, flagIf c0 fNX)
  | _ => (0, fNV ||| fNX)

def dxPair (t : Nat) (e0 : Int) : Nat := wrap 8 e0 + 2 ^ 8 * wrap 8 (e0 - dxGap t)

/-- CVTDX.DEC of one element. -/
def dxDecode (t rm code pair : Nat) : Nat × Flag :=
  let (sel, m, fl) := dxParts t code
  let (r, fl') := roundFp fp32 rm (m < 0) m.natAbs (dxExp pair sel)
  (r, fl ||| fl')

end Sys2Proof.Machine
end

