-- ==== Sys2Proof/Machine/Codes.lean ====
section
/-! DEFINITION. The codes of R121: parity, the (137,128) code, Reed-Solomon over GF(2^8), CRC-32C. -/

namespace Sys2Proof.Machine

/-- Number of set bits among the low n of x. -/
def onesIn (n x : Nat) : Nat := (List.range n).foldl (fun a i => if x.testBit i then a + 1 else a) 0

/-- PARITY: bit i covers the 64-bit word i of 32 bytes. -/
def parityCode (x : BitVec 256) : Nat :=
  (List.range 4).foldl (fun a i => a + (if onesIn 64 (x.toNat / 2 ^ (64 * i)) % 2 = 1 then 2 ^ i else 0)) 0

/-- Positions 1 to 136 that are not powers of two, ascending: the places of the 128 data bits of a half. -/
def dataPlaces : List Nat := ((List.range 137).drop 3).filter (fun p => !([4, 8, 16, 32, 64, 128].contains p))

/-- SECDED: the nine check bits of a half of 128 bits. -/
def secdedHalf (h : Nat) : Nat :=
  let low := (List.range 8).foldl (fun a j =>
    a + (if ((dataPlaces.zipIdx.filter (fun p => p.1.testBit j && h.testBit p.2)).length) % 2 = 1 then 2 ^ j else 0)) 0
  low + (if (onesIn 128 h + onesIn 8 low) % 2 = 1 then 256 else 0)

/-- SECDED: both halves of a sector, bits 8:0 and 17:9. -/
def secdedCode (x : BitVec 256) : Nat := secdedHalf (x.toNat % 2 ^ 128) + 2 ^ 9 * secdedHalf (x.toNat / 2 ^ 128)

/-- Product in GF(2^8) with field polynomial x^8 + x^4 + x^3 + x^2 + 1. -/
def gfMul (a b : Nat) : Nat :=
  ((List.range 8).foldl (fun (p : Nat × Nat) i =>
    let twice := if p.2 < 128 then 2 * p.2 else (2 * p.2) ^^^ 0x11D
    (if b.testBit i then p.1 ^^^ p.2 else p.1, twice)) (0, a)).1

/-- Coefficients 0 to 3 of g(x) = (x + 1)(x + 2)(x + 4)(x + 8). -/
def symbolGen : List Nat :=
  [1, 2, 4, 8].foldl (fun g r => (List.range (g.length + 1)).map (fun i =>
    (if i = 0 then 0 else g.getD (i - 1) 0) ^^^ gfMul r (g.getD i 0))) [1]

/-- SYMBOL: the remainder of D(x) modulo g(x), check symbol j in bits 8j+7 : 8j. -/
def symbolCode (x : BitVec 256) : Nat :=
  let r := (List.range 32).foldl (fun (r : List Nat) i =>
    let f := (x.toNat / 256 ^ (31 - i) % 256) ^^^ r.getD 3 0
    (List.range 4).map (fun j => (if j = 0 then 0 else r.getD (j - 1) 0) ^^^ gfMul f (symbolGen.getD j 0))) [0, 0, 0, 0]
  (List.range 4).foldl (fun a j => a + 2 ^ (8 * j) * r.getD j 0) 0

/-- CRC-32C of n bytes, the first in the low byte of x: polynomial 0x1EDC6F41 reflected, with initial value and final XOR of
ones. -/
def crc32c (n x : Nat) : BitVec 32 :=
  let one (c : Nat) : Nat := if c % 2 = 1 then (c / 2) ^^^ 0x82F63B78 else c / 2
  let byte (c b : Nat) : Nat := (List.range 8).foldl (fun c _ => one c) (c ^^^ b)
  BitVec.ofNat 32 (((List.range n).foldl (fun c i => byte c (x / 256 ^ i % 256)) 0xFFFFFFFF) ^^^ 0xFFFFFFFF)

/-- E2E: over the 32 plaintext bytes and VA div 32 as 8 bytes. -/
def e2eCode (plain va32 : Nat) : BitVec 32 := crc32c 40 (plain % 2 ^ 256 + 2 ^ 256 * (va32 % 2 ^ 64))

/-- The side-band bits of a sector written under a grade, over those it had: `stored` is what the cells hold, `plain` the
data, and a grade's free bits stay (R120, R124). -/
def sideBand (grade : Nat) (stored : BitVec 256) (plain va32 : Nat) (old : BitVec 32) : BitVec 32 :=
  match grade with
  | 0 => (old &&& 0xFFFFFFF0) ||| BitVec.ofNat 32 (parityCode stored)
  | 1 => (old &&& 0xFFFC0000) ||| BitVec.ofNat 32 (secdedCode stored)
  | 2 => BitVec.ofNat 32 (symbolCode stored)
  | _ => e2eCode plain va32

end Sys2Proof.Machine
end

