-- ==== Sys2Proof/Machine/Cells.lean ====
section
/-! DEFINITION. The channel point: row activation, hot-row control and capture (R118, R129 to R131), sectors with their
grades, codes and keys (R120 to R126, R373), the memory-side cache (R128). -/

namespace Sys2Proof.Machine

/-- Who makes a channel access: its context, ASID and VA, for the events of R127. -/
structure Origin where
  ctx  : Nat
  asid : Nat
  va   : Nat
  deriving DecidableEq, Repr

/-! ## Rows -/

/-- Count one activation of row r in a bank's table (R129); the table and the row's new count. -/
def countRow (t : List (Nat × Nat)) (r : Nat) : List (Nat × Nat) × Nat :=
  match t.find? (fun p => p.1 = r) with
  | some (_, n) => (t.map (fun p => if p.1 = r then (r, n + 1) else p), n + 1)
  | none =>
    if t.length < 32 then (t ++ [(r, 1)], 1)
    else
      let least := t.foldl (fun a p => min a p.2) (t.headD (0, 0)).2
      let e := t.findIdx (fun p => p.2 = least)
      (t.set e (r, least + 1), least + 1)

/-- The existing rows among r−2, r−1, r+1, r+2 (R130). -/
def neighbours (r : Nat) : List Nat :=
  (if r ≥ 2 then [r - 2] else []) ++ (if r ≥ 1 then [r - 1] else []) ++
    (if r + 1 < 32768 then [r + 1] else []) ++ (if r + 2 < 32768 then [r + 2] else [])

def isCaptured (c : Channel) (bank row : Nat) : Bool := c.captured.any (fun p => p.1 = bank && p.2.1 = row)

/-- Activate a row: STATACT, the counting table, alerts with their refresh-management commands, then capture (R118, R129
to R131). -/
def State.activate (s : State) (o : Origin) (ch bank row : Nat) : State :=
  let c := s.chan ch
  let (t, n) := countRow (sget [] c.hot bank) row
  let c := { c with rows := sset 0 c.rows bank (row + 1), hot := sset [] c.hot bank t, statact := c.statact + 1 }
  let a := field c.hrcfg.toNat 0 16
  let rfm := if a ≠ 0 && n % a = 0 then (neighbours row).length else 0
  let c := { c with statrfm := c.statrfm + BitVec.ofNat 64 rfm, statback := c.statback + BitVec.ofNat 64 (180 * rfm),
                    blocked := if rfm = 0 || c.blocked.contains bank then c.blocked else c.blocked ++ [bank] }
  if field c.hrcfg.toNat 16 16 ≠ 0 && n = field c.hrcfg.toNat 16 16 && c.captured.length < field c.hrcfg.toNat 32 7 then
    (s.setChan ch { c with captured := c.captured ++ [(bank, row, false)], statcap := c.statcap + 1 }).chanEvent
      [o.ctx] ch 0x24 o.va o.asid bank row n
  else s.setChan ch c

/-- An access opens its row unless the row is open or captured; a write marks a captured copy dirty (R118, R131). -/
def State.openRow (s : State) (o : Origin) (ch bank row : Nat) (write : Bool) : State :=
  let c := s.chan ch
  if isCaptured c bank row then
    if write then s.setChan ch
      { c with captured := c.captured.map (fun p => if p.1 = bank && p.2.1 = row then (bank, row, true) else p) }
    else s
  else if sget 0 c.rows bank = row + 1 then s
  else s.activate o ch bank row

/-! ## Sectors -/

/-- What a check of a part of a sector finds (R125). -/
inductive Check where
  | clean
  | corrected
  | uncorrectable
  /-- Not detected, or miscorrected: altered blocks read as unpredictable bytes. -/
  | broken
  deriving DecidableEq, Repr

/-- Number of flipped bits lo+n−1 : lo. -/
def flipCount (f : BitVec 288) (lo n : Nat) : Nat := (List.range n).foldl (fun a i => if f.getLsbD (lo + i) then a + 1 else a) 0

/-- Bits lo+n−1 : lo as a mask. -/
def flipMask (lo n : Nat) : BitVec 288 := BitVec.ofNat 288 ((2 ^ n - 1) * 2 ^ lo)

/-- The parts of a sector that a grade checks apart, each with its finding and the bits that it covers (R120, R121, R125). The
codes are linear, so the flipped bits alone decide; `free`: the device's choice where more errors than a code can tell apart
may be detected or miscorrected. -/
def sectorParts (f : BitVec 288) (grade : Nat) (free : Nat → Bool) : List (Check × BitVec 288) :=
  match grade with
  | 0 => (List.range 4).map (fun i =>
      let n := flipCount f (64 * i) 64 + flipCount f (256 + i) 1
      (if n % 2 = 1 then .uncorrectable else if n = 0 then .clean else .broken, flipMask (64 * i) 64 ||| flipMask (256 + i) 1))
  | 1 => (List.range 2).map (fun h =>
      let n := flipCount f (128 * h) 128 + flipCount f (256 + 9 * h) 9
      (if n = 0 then .clean else if n = 1 then .corrected else if n = 2 then .uncorrectable
        else if free h then .uncorrectable else .broken, flipMask (128 * h) 128 ||| flipMask (256 + 9 * h) 9))
  | _ =>
      let n := ((List.range 36).filter (fun j => flipCount f (8 * j) 8 ≠ 0)).length
      [(if n = 0 then .clean else if n ≤ 2 then .corrected else if free 0 then .uncorrectable else .broken, flipMask 0 288)]

/-- The sector was written under another grade than it is read under (R122). -/
def Sector.misread (x : Sector) (grade : Nat) : Bool := x.written ≠ 0 && x.grade ≠ grade

/-- Byte i of a sector lies in a 16-byte block that holds an altered bit once what is correctable has been corrected (R125):
what a miscorrection alters in a SECDED half or a SYMBOL sector is not known, so the whole of it counts. -/
def Sector.altered (x : Sector) (grade : Nat) (free : Nat → Bool) (i : Nat) : Bool :=
  x.misread grade || match grade with
    | 0 => flipCount x.flips (128 * (i / 16)) 128 ≠ 0
    | 1 => (((sectorParts x.flips 1 free).map (·.1)).getD (i / 16) .clean) = .broken
    | _ => (sectorParts x.flips 2 free).any (fun p => p.1 = .broken)

/-- Byte i of sector n as decrypted under a key (R122, R373). -/
def sectorByte (s : State) (n i key gen : Nat) (altered : Nat → Bool) : Byte :=
  let x := s.sector n
  let a := 32 * n + i
  if x.written = 0 then Config.coldByte a key gen
  else if x.key ≠ key || x.gen ≠ gen || altered i then Config.brokenByte a s.freeCtr
  else if x.written.getLsbD i then mget s.mem a else Config.coldByte a key gen

/-- The 32 bytes of a sector as a number. -/
def sectorPlain (s : State) (n key gen : Nat) (altered : Nat → Bool) : Nat :=
  (List.range 32).foldr (fun i a => (sectorByte s n i key gen altered).toNat + 256 * a) 0

def noneAltered (_ : Nat) : Bool := false

/-- The E2E code of a sector fits its data at a VA (R121, R122). -/
def e2eFits (s : State) (n key gen va : Nat) (f : BitVec 288) : Bool :=
  let x := s.sector n
  x.written ≠ 0 && f = 0 && x.sb = e2eCode (sectorPlain s n key gen noneAltered) (va / 32)

/-- An uncorrectable sector is counted and reported (R126). `ev`: the type of the event, UE or UE_MERGED. -/
def State.uncorrectable (s : State) (o : Origin) (n grade ev : Nat) : State :=
  let ch := Flat.chan (32 * n)
  let c := s.chan ch
  (s.setChan ch { c with statue := c.statue + 1 }).chanEvent [o.ctx] ch ev o.va o.asid (Flat.bank (32 * n)) (Flat.row (32 * n)) grade

/-- Read a sector: the check, what is corrected on the way, STATCE or STATUE with its event, and the data; nothing when
uncorrectable (R123, R125, R126). `held`: the memory-side cache holds its bytes, so the cells are not read, and of the codes
only E2E is checked. -/
def State.readSector (s : State) (o : Origin) (n key grade ev : Nat) (held : Bool) : State × Option Nat :=
  let ch := Flat.chan (32 * n)
  let x := s.sector n
  let gen := (s.keySlot key).gen
  let f := if held then 0 else x.flips
  let (w, s) := if x.written ≠ 0 && (x.grade ≠ grade || f ≠ 0 || x.key ≠ key || x.gen ≠ gen) then s.fresh else (0, s)
  if grade = 3 then
    if e2eFits s n key gen o.va f then (s, some (sectorPlain s n key gen noneAltered))
    else (s.uncorrectable o n grade ev, none)
  else if held then (s, some (sectorPlain s n key gen noneAltered))
  else
    let parts := sectorParts f grade w.getLsbD
    if parts.any (fun p => p.1 = .uncorrectable) || (x.misread grade && w.getLsbD 63) then (s.uncorrectable o n grade ev, none)
    else
      let plain := sectorPlain s n key gen (x.altered grade w.getLsbD)
      let fixed := (parts.filter (fun p => p.1 = .corrected)).foldl (fun m p => m ||| p.2) 0
      if fixed = 0 then (s, some plain)
      else
        let c := s.chan ch
        ((s.setSector n { x with flips := x.flips &&& ~~~fixed }).setChan ch { c with statce := c.statce + 1 }, some plain)

/-- Write the bytes of `m` in a sector and its code (R121 to R123, R126): a partial write merges with what the sector holds, or
with zeros when that is uncorrectable. -/
def State.writeSector (s : State) (o : Origin) (n key grade : Nat) (m : BitVec 32) (data : Nat) (held : Bool) : State :=
  if m = 0 then s else
  let x0 := s.sector n
  let gen := (s.keySlot key).gen
  let f := if held then 0 else x0.flips
  let same := x0.written = 0 || (x0.key = key && x0.gen = gen && x0.grade = grade && f = 0)
  let (s, old) := if m = BitVec.allOnes 32 then (s, some 0) else s.readSector o n key grade 0x21 held
  let whole := m = BitVec.allOnes 32 || old = none || !same || grade = 3
  let base := old.getD 0
  let mem := (List.range 32).foldl (fun mem i =>
    if m.getLsbD i then mset mem (32 * n + i) (BitVec.ofNat 8 (data / 256 ^ i))
    else if whole then mset mem (32 * n + i) (BitVec.ofNat 8 (base / 256 ^ i)) else mem) s.mem
  let x : Sector := { written := if whole then BitVec.allOnes 32 else x0.written ||| m, key := key, gen := gen, grade := grade,
                      sb := x0.sb ^^^ (x0.flips >>> 256).setWidth 32, flips := 0 }
  let s := { s with mem := mem }.setSector n x
  let plain := sectorPlain s n key gen noneAltered
  s.setSector n { x with sb := sideBand grade (Config.sealed n key gen (BitVec.ofNat 256 plain)) plain (o.va / 32) x.sb }

/-! ## Lines at the channel point -/

/-- The memory-side cache's line that holds a channel-local line address (R128). -/
def mscAt (c : Channel) (flat : Nat) : Option MscLine := c.msc.find? (fun l => l.extent = none && l.flat = flat / 128 * 128)

/-- A clean line of the memory-side cache with the sectors of `m`. -/
def MscLine.clean (o : Origin) (base : Nat) (m : BitVec 128) : MscLine :=
  { asid := BitVec.ofNat 16 o.asid, tag := o.va / 128, flat := base, dirty := false, extent := none, ext := 0,
    valid := m, dbytes := 0 }

/-- Sector numbers that a byte mask of a 128-byte line touches, with the mask of each. -/
def lineSectors (m : BitVec 128) : List (Nat × BitVec 32) :=
  ((List.range 4).map (fun j => (j, (m >>> (32 * j)).setWidth 32))).filter (fun p => p.2 ≠ 0)

/-- Bytes p .. p+n−1 of a line as a mask. -/
def byteMask (p n : Nat) : BitVec 128 := BitVec.ofNat 128 ((2 ^ n - 1) * 2 ^ p)

/-- Every bit of a byte mask widened to its byte. -/
def widen (m : BitVec 128) : BitVec 1024 :=
  BitVec.ofNat 1024 ((List.range 128).foldr (fun i a => (if m.getLsbD i then 255 else 0) + 256 * a) 0)

/-- Put the bytes of `m` of `x` over `y`. -/
def mergeLine (m : BitVec 128) (x y : BitVec 1024) : BitVec 1024 := (x &&& widen m) ||| (y &&& ~~~(widen m))

/-! ## Fabric writes (R116, R147, R150, R196) -/

/-- Runs of set bits of a byte mask: first byte and length, in pieces that cross no 16-byte boundary. -/
def runs (m : BitVec 128) : List (Nat × Nat) :=
  ((List.range 128).foldl (fun (acc : List (Nat × Nat)) i =>
    if m.getLsbD i then
      match acc with
      | (p, n) :: r => if p + n = i && i % 16 ≠ 0 then (p, n + 1) :: r else (i, 1) :: acc
      | [] => [(i, 1)]
    else acc) []).reverse

/-- A line's dirty bytes go to a node as writes on the RELIABLE class, which the node acknowledges (R147, R150, R196); `code`:
what is done to the piece at a byte of the line before it leaves. -/
def State.sendBytes (s : State) (node : BitVec 16) (c base : Nat) (m : BitVec 128) (x : BitVec 1024)
    (code : Nat → BitVec 128 → BitVec 128) : State :=
  let piece (p : Nat × Nat) : Req :=
    { lane := p.1, va := BitVec.ofNat 64 (base + p.1), w := p.2, home := true, sys := true, deep := false, priv := false, off := 0,
      strong := false, fill := false, act := .wr (code p.1 (BitVec.ofNat 128 (field x.toNat (8 * p.1) (8 * p.2)))) }
  let rs := (runs m).map piece
  if rs.isEmpty then s
  else
    rs.foldl (fun t r => t.send (.request (2 ^ 64 + s.nextDev) r.lane node c r.va r.w r.act)) (s.addDevOp c .wback rs)

/-- Lines of an extent leave the device under the context's slot KBASE (R116). -/
def State.extentCode (s : State) (id off : Nat) (p : Nat) (x : BitVec 128) : BitVec 128 :=
  let k := (s.ctx (s.extent id).owner).kbase
  Config.extentSealed k (s.keySlot k).gen id (off + p) x

/-- The dirty bytes of an extent's line go to its node. -/
def State.sendExtent (s : State) (id off : Nat) (m : BitVec 128) (x : BitVec 1024) : State :=
  let e := s.extent id
  s.sendBytes e.node e.owner (e.base.toNat + off) m x (s.extentCode id off)

/-! ## Replacement in the memory-side cache (R128) -/

/-- A line leaves: a dirty one is written to the cells, which opens its row, or to the extent's node (R118, R128). The model
keeps the bytes of a DRAM line in memory; what the cells held of its sectors is then written over. -/
def State.mscOut (s : State) (ch : Nat) (l : MscLine) : State :=
  let c := s.chan ch
  let s := s.setChan ch { c with msc := c.msc.filter (fun x => x ≠ l) }
  match l.extent with
  | some id => s.sendExtent id l.flat l.dbytes l.ext
  | none =>
    if !l.dirty then s
    else
      let s := s.openRow { ctx := 0, asid := l.asid.toNat, va := 128 * l.tag } ch (Flat.bank l.flat) (Flat.row l.flat) true
      (lineSectors l.valid).foldl (fun s p =>
        let n := l.flat / 32 + p.1
        s.setSector n { s.sector n with flips := 0 }) s

/-- Make room for a line of an ASID and tag: of a full set of 16 the line used longest ago leaves. -/
def State.mscRoom (s : State) (ch asid tag : Nat) : State :=
  let set (l : MscLine) : Bool := Config.mscSet l.asid.toNat l.tag % 480 = Config.mscSet asid tag % 480
  let old := (s.chan ch).msc.filter set
  if old.length < 16 then s
  else match old with
    | l :: _ => s.mscOut ch l
    | [] => s

/-- A line is used: it is the last to leave its set. -/
def Channel.touch (c : Channel) (l : MscLine) : Channel := { c with msc := c.msc.filter (fun x => x ≠ l) ++ [l] }

/-- Sector j of the line at `base` lies in the memory-side cache (R128); `dirty`: a write. -/
def State.mscHold (s : State) (o : Origin) (base j : Nat) (dirty : Bool) : State :=
  let ch := Flat.chan base
  match mscAt (s.chan ch) base with
  | some l =>
    let c := s.chan ch
    s.setChan ch { c with msc := c.msc.filter (fun x => x ≠ l) ++
      [{ l with valid := l.valid ||| byteMask (32 * j) 32, dirty := l.dirty || dirty }] }
  | none =>
    let s := s.mscRoom ch o.asid (o.va / 128)
    let c := s.chan ch
    s.setChan ch { c with msc := c.msc ++ [{ MscLine.clean o base (byteMask (32 * j) 32) with dirty := dirty }] }

/-- The memory-side cache holds sector j of the line at `base`. -/
def mscHolds (s : State) (base j : Nat) : Bool :=
  match mscAt (s.chan (Flat.chan base)) base with
  | some l => l.valid.getLsbD (32 * j)
  | none => false

/-! ## Lines -/

/-- Sectors of a line that the memory-side cache holds are served from it; the others open their row (R118, R128). With
`alloc` (CACHE 3) the sectors read are allocated. The data of the sectors named, and those that are uncorrectable. -/
def State.readLine (s : State) (o : Origin) (flat key grade : Nat) (m : BitVec 128) (alloc : Bool) :
    State × BitVec 1024 × BitVec 128 :=
  let ch := Flat.chan flat
  let base := flat / 128 * 128
  (lineSectors m).foldl (fun (acc : State × BitVec 1024 × BitVec 128) p =>
    let (s, d, bad) := acc
    let n := base / 32 + p.1
    let held := mscHolds s base p.1
    let s := if held then s.mscHold o base p.1 false else s.openRow o ch (Flat.bank base) (Flat.row base) false
    match s.readSector { o with va := o.va / 128 * 128 + 32 * p.1 } n key grade 0x20 held with
    | (s, none) => (s, d, bad ||| byteMask (32 * p.1) 32)
    | (s, some x) =>
      (if alloc && !held then s.mscHold o base p.1 false else s, d ||| (BitVec.ofNat 1024 x <<< (256 * p.1)), bad)) (s, 0, 0)

/-- Write bytes of a line at the channel point: into the memory-side cache where it holds the sector or, with `alloc`
(CACHE 3), takes it; else into the cells (R126, R128). A sector that cannot be filled is not allocated. -/
def State.writeLine (s : State) (o : Origin) (flat key grade : Nat) (m : BitVec 128) (x : BitVec 1024) (alloc : Bool) : State :=
  let ch := Flat.chan flat
  let base := flat / 128 * 128
  (lineSectors m).foldl (fun s p =>
    let n := base / 32 + p.1
    let q := { o with va := o.va / 128 * 128 + 32 * p.1 }
    let held := mscHolds s base p.1
    let whole := p.2 = BitVec.allOnes 32
    let s := if held || (alloc && whole) then s else s.openRow o ch (Flat.bank base) (Flat.row base) true
    let ue := (s.chan ch).statue
    let s := s.writeSector q n key grade p.2 ((x >>> (256 * p.1)).toNat % 2 ^ 256) held
    if held || (alloc && (s.chan ch).statue = ue) then s.mscHold o base p.1 true else s) s

end Sys2Proof.Machine
end

