-- ==== Sys2Proof/Machine/Translate.lean ====
section
/-! DEFINITION. Where a virtual address goes (R96, R97) and its translation at the channel (R99 to R105). -/

namespace Sys2Proof.Machine

/-! ## Routing -/

/-- Where an access goes (R97). -/
inductive Route where
  /-- Core-store byte o of device core k through the core window (R106). -/
  | window (k o : Nat)
  /-- The register windows of context 0 (R119, R145, R378). -/
  | regs
  | banked (ch : Nat)
  | interleaved (ch : Nat)
  /-- OUT_OF_RANGE. -/
  | bad
  deriving DecidableEq, Repr

/-- The hash of R97. -/
def chanHash (va : Nat) : Nat :=
  field va 8 9 ^^^ field va 17 9 ^^^ field va 26 9 ^^^ field va 35 9 ^^^ field va 44 9

/-- Top of a VA, bits 56:48. -/
def vaTop (va : Nat) : Nat := field va 48 9

/-- The table window of context 0 (R99). -/
def inTableWindow (c va : Nat) : Bool := c = 0 && vaTop va = 0x1EC

/-- R97 for a 57-bit VA of context c; `core`: the issuing core of a caravan, a slice or an engine operation. -/
def route (s : State) (c : Nat) (core : Option Nat) (va : Nat) : Route :=
  if c = 0 && 0x1ED ≤ vaTop va && vaTop va ≤ 0x1EF then .regs
  else
    let w := (s.ctx c).winarea.toNat
    match (if w ≠ 0 && w ≤ va && va < w + 2 ^ 25 then core else none) with
    | some k => .window (clusterCore k ((va - w) / 2 ^ 22)) ((va - w) % 2 ^ 22)
    | none =>
      if vaTop va = 0x1EB then if field va 40 8 = 0 then .banked (field va 31 9) else .bad
      else if inTableWindow c va && va % 2 ^ 48 ≥ 2 ^ 35 then .bad
      else .interleaved (chanHash va)

/-! ## The tables -/

/-- A leaf as the translation unit holds it (R101). -/
structure Leaf where
  pte  : Nat
  /-- Page size as a power of two. -/
  size : Nat
  /-- Table-window VA of the entry; 0 for the table window's own mapping. -/
  entry : Nat
  deriving DecidableEq, Repr

namespace Leaf
def w (l : Leaf) : Bool := field l.pte 1 1 = 1
def x (l : Leaf) : Bool := field l.pte 2 1 = 1
def a (l : Leaf) : Bool := field l.pte 4 1 = 1
def d (l : Leaf) : Bool := field l.pte 5 1 = 1
def home (l : Leaf) : Nat := field l.pte 8 3
def cache (l : Leaf) : Nat := field l.pte 11 2
def grade (l : Leaf) : Nat := field l.pte 13 3
def frame (l : Leaf) : Nat := field l.pte 20 32
def keyx (l : Leaf) : Nat := field l.pte 52 12
end Leaf

/-- Outcome of a walk. -/
inductive Walk where
  | leaf (l : Leaf)
  /-- V = 0 at this level, with PG. -/
  | absent (pg : Bool) (level : Nat)
  /-- A walk error (R103): the entry's VA, its level, and whether UE was the reason. -/
  | error (entry level : Nat)
  /-- The walker waits at the channel of a table entry (R134). -/
  | busy
  deriving DecidableEq, Repr

def tableVa (frame idx : Nat) : Nat := 0x1EC * 2 ^ 48 + 4096 * frame + 8 * idx

/-- Flat address of a byte of the table window (R99, R102). -/
def tableFlat (va : Nat) : Nat := Flat.dram (chanHash va) (256 * (va % 2 ^ 35 / 4096) + va % 256)

/-- The line of an address space in a list of lines (R98). -/
def lineAt (ls : List Line) (asid tag : Nat) : Option Line := ls.find? (fun l => l.asid.toNat = asid && l.tag = tag)

/-- Put a line in place of the line with its tag, or at the end; a line without a valid byte goes. -/
def putLine (ls : List Line) (l : Line) : List Line :=
  if l.valid = 0 then ls.filter (fun p => !(p.asid = l.asid && p.tag = l.tag))
  else if ls.any (fun p => p.asid = l.asid && p.tag = l.tag) then
    ls.map (fun p => if p.asid = l.asid && p.tag = l.tag then l else p)
  else ls ++ [l]

def lineBytes (l : Line) (p n : Nat) : Nat := field l.data.toNat (8 * p) (8 * n)
def hasBytes (l : Line) (p n : Nat) : Bool := byteMask p n &&& ~~~l.valid = 0

/-- The channel serves ordinary requests of operation `op` now (R134). -/
def chanServes (c : Channel) (op : Nat) : Bool :=
  match c.mode with
  | .compute => c.cmds.isEmpty
  | .exiting => c.cmds.isEmpty
  | .suspended => c.snap.contains op
  | _ => true

/-- The operation number under which the device's own requests wait: the front end's, records', write-backs' (R134). -/
def devOp : Nat := 2 ^ 63

/-- A request of operation `op` has to wait at a channel. -/
def State.noteWait (s : State) (ch op : Nat) : State :=
  let c := s.chan ch
  if c.waits.contains op then s else s.setChan ch { c with waits := c.waits ++ [op] }

/-- A request of operation `op` is served at a channel. -/
def State.noteServed (s : State) (ch op : Nat) : State :=
  let c := s.chan ch
  if c.waits.contains op then s.setChan ch { c with waits := c.waits.filter (fun n => n ≠ op) } else s

/-- The walker's read of a table entry must wait at the entry's channel: the home L2 does not hold it, and the channel serves
no request of operation `wait` (R99, R134). Without an operation (an executor's own walk, a write-back's) it never waits. -/
def entryWaits (s : State) (entry : Nat) (wait : Option Nat) : Bool :=
  let ch := chanHash entry
  let held := match lineAt (s.die (dieOfChannel ch)).l2 (s.ctx 0).asid.toNat (entry / 128) with
    | some l => hasBytes l (entry % 128) 8
    | none => false
  !held && match wait with
    | some op => !chanServes (s.chan ch) op
    | none => false

/-- Read a table entry at its home L2, and from the channel where the L2 does not hold it (R99). -/
def State.readEntry (s : State) (c asid va entry : Nat) : State × Option Nat :=
  let ch := chanHash entry
  let a0 := (s.ctx 0).asid.toNat
  match lineAt (s.die (dieOfChannel ch)).l2 a0 (entry / 128) with
  | some l =>
    if hasBytes l (entry % 128) 8 then (s, some (lineBytes l (entry % 128) 8))
    else
      let (s, d, bad) := s.readLine { ctx := c, asid := asid, va := va } (tableFlat entry) 0 1 (byteMask (entry % 128) 8) false
      if bad = 0 then
        (s, some (field (mergeLine l.valid l.data d).toNat (8 * (entry % 128)) 64)) else (s, none)
  | none =>
    let (s, d, bad) := s.readLine { ctx := c, asid := asid, va := va } (tableFlat entry) 0 1 (byteMask (entry % 128) 8) false
    if bad = 0 then (s, some (field d.toNat (8 * (entry % 128)) 64)) else (s, none)

/-- A table entry is well formed at a level above 1 (R100, R103). -/
def tableOk (e level : Nat) : Bool :=
  e / 2 ^ 43 = 0 && field e 4 16 = 0 && field e 1 2 = 0 && (level > 3 || field e 7 1 = 0)

/-- Size of the page that a leaf at a level forms (R100). -/
def leafSize (e level : Nat) : Nat := if level = 3 then 30 else if level = 2 then 21 else if field e 6 1 = 1 then 16 else 12

/-- What one leaf can meet alone of R100 to R103. An extent that is FREE has no size to exceed: its refusal is R104's (log 112). -/
def leafOk (s : State) (e level va : Nat) : Bool :=
  let size := leafSize e level
  let home := field e 8 3
  let frame := field e 20 32
  let blocks := if size = 16 then va % 2 ^ 16 / 4096 else 0
  let inBank := vaTop va = 0x1EB
  field e 16 4 = 0 && (level = 1 || field e 6 1 = 0) && (level ≠ 1 || field e 7 1 = 0) && field e 13 3 ≤ 3 &&
    (inBank == (home = 1)) &&
    match home with
    | 0 => frame < 2 ^ 23 && (size ≠ 21 || frame % 16 = 0) && (size ≠ 30 || frame % 8192 = 0) &&
        256 * (frame + (2 ^ size - 1) / 2 ^ 17) + 255 < 2 ^ 31
    | 1 => size ≠ 30 && frame = field va 12 13 / (if size = 21 then 2 ^ 9 else 1) * (if size = 21 then 2 ^ 9 else 1)
    | 2 => size ≤ 16 && frame < 2 ^ 20 && frame / 1024 < 768 && frame % 1024 ≤ 767 && field e 11 2 = 2 &&
        field e 52 12 = 0 && (size = 12 || (blocks ≤ frame % 1024 && frame % 1024 - blocks + 15 ≤ 767))
    | 3 => size ≠ 30 && frame < 2 ^ 19 && field e 52 12 = 0 &&
        (let first := frame % 2 ^ 16 - (if size = 16 then blocks else 0)
         first + 2 ^ (size - 12) ≤ 1024 * (s.die (frame / 2 ^ 16)).pinned) && (size ≠ 16 || blocks ≤ frame % 2 ^ 16)
    | 4 => frame < (s.extent (field e 52 12)).size || (s.extent (field e 52 12)).st = .free
    | 5 => field e 52 12 = 0
    | 6 => frame < 256 && field e 52 12 = 0
    | _ => false

/-- The walk from level `level` with table frame `frame` (R99 to R103). -/
def State.walkFrom (s : State) (c asid va : Nat) (wait : Option Nat) : Nat → Nat → State × Walk
  | 0, _ => (s, .error 0 0)
  | level + 1, frame =>
    let k := level + 1
    let entry := tableVa frame (field va (12 + 9 * level) 9)
    if entryWaits s entry wait then (s.noteWait (chanHash entry) (wait.getD devOp), .busy) else
    let s := match wait with
      | some op => s.noteServed (chanHash entry) op
      | none => s
    let (s, r) := s.readEntry c asid va entry
    match r with
    | none => (s, .error entry k)
    | some e =>
      if field e 0 1 = 0 then (s, .absent (field e 3 1 = 1) k)
      else if k = 1 || (k ≤ 3 && field e 7 1 = 1) then
        if leafOk s e k va then (s, .leaf { pte := e, size := leafSize e k, entry := entry }) else (s, .error entry k)
      else if tableOk e k then s.walkFrom c asid va wait level (field e 20 23)
      else (s, .error entry k)

/-- The mapping of the table window (R99): HOME 0, CACHE 0, SECDED, KEYX 0, A = 0, W = 1, X = 0, D never set. -/
def tableLeaf (va : Nat) : Leaf := { pte := 0x2023 + 2 ^ 20 * (va % 2 ^ 35 / 4096), size := 12, entry := 0 }

def tlbAt (c : Channel) (asid va : Nat) : Option TlbEnt :=
  c.tlb.find? (fun t => t.asid.toNat = asid && t.vpn = va / 2 ^ t.size)

/-- Keep a leaf in a channel's TLB of 4,096 entries (R99). -/
def keepTlb (t : List TlbEnt) (e : TlbEnt) : List TlbEnt :=
  let t := t.filter (fun p => !(p.asid = e.asid && p.vpn = e.vpn && p.size = e.size))
  (if t.length < 4096 then t else t.drop 1) ++ [e]

/-- Count a request for a page with A = 1 (R115): the requesting die's counter of the 64 KiB region; at ACCTHR an
ACCESS_NOTICE is posted and the region's counters clear. -/
def State.countAccess (s : State) (c ch die va : Nat) : State :=
  let x := s.chan ch
  let asid := (s.ctx c).asid
  let old := match x.acc.find? (fun r => r.asid = asid && r.region = va / 65536) with
    | some r => r.counts
    | none => []
  let n := min 0xFFFF (sget 0 old die + 1)
  let counts := sset 0 old die n
  let rest := x.acc.filter (fun r => !(r.asid = asid && r.region = va / 65536))
  let rest := if rest.length < 1024 then rest else rest.drop 1
  let thr := field (s.ctx c).accthr.toNat 0 16
  if thr ≠ 0 && sget 0 old die < n && n = thr then
    let packed := (List.range 8).foldr (fun d a => sget 0 counts d + 2 ^ 16 * a) 0
    (s.setChan ch { x with acc := rest }).faultRecord c 0 0x3FF 1 0 0 (s.nextFaultSeq 0 0x3FF) 0 0 1 packed
      (va / 65536 * 65536)
  else s.setChan ch { x with acc := rest ++ [{ asid := asid, region := va / 65536, counts := counts }] }

/-- The translation unit serves a request: it counts for a page with A = 1, in the counter of the requesting die (R115). -/
def State.countServed (s : State) (c ch die va : Nat) (l : Leaf) : State := if l.a then s.countAccess c ch die va else s

/-- Translate a VA at its channel (R99): TLB, else the walk. `wait`: the operation whose request it is, for the channels of
the table entries (R134); none where the walk does not wait. -/
def State.translate (s : State) (c ch va : Nat) (wait : Option Nat) : State × Walk :=
  if inTableWindow c va then (s, .leaf (tableLeaf va)) else
  let asid := (s.ctx c).asid.toNat
  let (s, r) := match tlbAt (s.chan ch) asid va with
    | some t => (s, Walk.leaf { pte := t.pte.toNat, size := t.size, entry := t.entry })
    | none => s.walkFrom c asid va wait 5 (field (s.ctx c).root.toNat 0 23)
  match r with
  | .leaf l =>
    let x := s.chan ch
    let e : TlbEnt := { asid := (s.ctx c).asid, vpn := va / 2 ^ l.size, size := l.size, pte := BitVec.ofNat 64 l.pte,
                        entry := l.entry }
    (if (tlbAt x asid va).isSome then s else s.setChan ch { x with tlb := keepTlb x.tlb e }, .leaf l)
  | .error e k => (s.chanEvent [c] ch 0x22 e (s.ctx c).asid.toNat 0 0 k, .error e k)
  | r => (s, r)

end Sys2Proof.Machine
end

