-- ==== Sys2Proof/Machine/Cache.lean ====
section
/-! DEFINITION. Lines in L1, L2 and the memory-side cache: write-back, fills, drops, replacement, the dirty-line FIFO (R12, R98,
R105, R116, R128, R189, R197). -/

namespace Sys2Proof.Machine

/-! ## Where a byte of a page lies (R102) -/

inductive Back where
  | dram (flat : Nat)
  | core (k o : Nat)
  | pinned (flat : Nat)
  | extent (id off : Nat)
  | host (addr : Nat)
  | const (ch i : Nat)
  deriving DecidableEq, Repr

/-- Frame of the first 4 KiB of a page whose entries are consecutive (R102). -/
def Leaf.firstFrame (l : Leaf) : Nat := if l.size = 16 then l.frame - l.entry / 8 % 16 else l.frame

def backOf (l : Leaf) (ch va : Nat) : Back :=
  let o := va % 2 ^ l.size
  let a := 4096 * l.firstFrame + o
  match l.home with
  | 0 => .dram (Flat.dram ch (256 * (l.frame + o / 2 ^ 17) + o % 256))
  | 1 => .dram (Flat.dram ch (va % 2 ^ 31))
  | 2 => .core (l.frame / 1024) (4096 * (l.firstFrame % 1024) + o)
  | 3 => .pinned (Flat.pinned (l.frame / 2 ^ 16) (4096 * (l.firstFrame % 2 ^ 16) + o))
  | 4 => .extent l.keyx a
  | 5 => .host a
  | _ => .const ch (l.frame % 256)

/-- The channel that an access hashes to. -/
def chanOfVa (va : Nat) : Nat := if vaTop va = 0x1EB then field va 31 9 else chanHash va

/-- A line as a fill brings it: the attributes of the leaf and the place of its bytes (R105). -/
def Leaf.line (l : Leaf) (asid : BitVec 16) (ch va : Nat) : Line :=
  { asid := asid, tag := va / 128, data := 0, valid := 0, dirty := 0, w := l.w && l.home ≠ 6, x := l.x, home := l.home,
    cache := l.cache, grade := l.grade, key := l.keyx, psize := l.size, chan := ch,
    flat := match backOf l ch (va / 128 * 128) with
      | .dram f => f
      | .core k o => Flat.core k o
      | .pinned f => f
      | .extent _ o => o
      | .host a => a
      | .const _ i => i
    priv := false, unfilled := false }

/-- A line in the locations of a deep scope: HOME 0 or 1, served by channel c, in bank b if one is named (R200). -/
def Line.inDeep (l : Line) (c : Nat) (b : Option Nat) : Bool :=
  l.home ≤ 1 && l.chan = c && match b with
    | some k => Flat.bank l.flat = k
    | none => true

/-- The context that holds an ASID (R17). -/
def ctxOfAsid (s : State) (asid : BitVec 16) : Nat :=
  ((List.range 256).find? (fun c => (s.ctx c).st != .free && (s.ctx c).asid = asid)).getD 0

/-! ## D (R105) -/

/-- Set D in the entry of a page, at the entry's home (R99, R105). -/
def State.setD (s : State) (c va : Nat) (l : Leaf) : State :=
  if l.d || l.entry = 0 then s else
  let ch := chanHash l.entry
  let a0 := (s.ctx 0).asid.toNat
  let d := dieOfChannel ch
  let p := l.entry % 128
  let held := match lineAt (s.die d).l2 a0 (l.entry / 128) with
    | some x => if hasBytes x p 1 then some x else none
    | none => none
  let s := match held with
    | some x =>
      let y := { x with data := x.data ||| (0x20#1024 <<< (8 * p)), dirty := x.dirty ||| byteMask p 1 }
      s.setDie d { s.die d with l2 := putLine (s.die d).l2 y }
    | none =>
      let o : Origin := { ctx := c, asid := a0, va := l.entry }
      let (s, v, bad) := s.readLine o (tableFlat l.entry) 0 1 (byteMask p 1) false
      if bad = 0 then s.writeLine o (tableFlat l.entry) 0 1 (byteMask p 1) (v ||| (0x20#1024 <<< (8 * p))) false else s
  let cch := chanOfVa va
  let x := s.chan cch
  s.setChan cch { x with tlb := x.tlb.map (fun t => if t.entry = l.entry && t.asid = (s.ctx c).asid then
    { t with pte := t.pte ||| 0x20 } else t) }

/-- A dirty write-back of a page reaches its channel: it counts there for the home die, and D is set (R105, R115). -/
def State.writebackD (s : State) (asid : BitVec 16) (va : Nat) : State :=
  let c := ctxOfAsid s asid
  let ch := chanOfVa va
  match s.translate c ch va none with
  | (s, .leaf l) => (s.countServed c ch (dieOfChannel ch) va l).setD c va l
  | (s, _) => s

/-! ## The memory-side cache's fabric lines (R116, R117) -/

def extLine (c : Channel) (id off : Nat) : Option MscLine :=
  c.msc.find? (fun l => l.extent = some id && l.flat = off / 128 * 128)

/-- Put bytes into the extent line of a channel, which takes its place in its set (R116, R128); `dirty`: they are a write. -/
def State.putExt (s : State) (ch : Nat) (asid : BitVec 16) (tag id off : Nat) (m : BitVec 128) (x : BitVec 1024) (dirty : Bool) :
    State :=
  let s := if (extLine (s.chan ch) id off).isSome then s else s.mscRoom ch asid.toNat tag
  let c := s.chan ch
  let old := (extLine c id off).getD { asid := asid, tag := tag, flat := off / 128 * 128, dirty := false,
                                       extent := some id, ext := 0, valid := 0, dbytes := 0 }
  let new := { old with ext := mergeLine m x old.ext, valid := old.valid ||| m,
                        dbytes := old.dbytes ||| (if dirty then m else 0) }
  s.setChan ch { c with msc := c.msc.filter (fun l => !(l.extent = some id && l.flat = off / 128 * 128)) ++ [new] }

/-- The memory-side caches write the dirty bytes of an extent's lines to its node (R117, R196). -/
def State.flushExt (s : State) (p : MscLine → Bool) (drop : Bool) : State :=
  s.chans.foldl (fun s kc =>
    let c := s.chan kc.1
    let s := c.msc.foldl (fun s l =>
      match l.extent with
      | some id => if p l then s.sendExtent id l.flat l.dbytes l.ext else s
      | none => s) s
    let msc := (c.msc.map (fun l => if l.extent.isSome && p l then { l with dbytes := 0 } else l)).filter
      (fun l => !(drop && l.extent.isSome && p l))
    if msc = c.msc then s else s.setChan kc.1 { s.chan kc.1 with msc := msc }) s

/-! ## L2 to the channel point -/

/-- The channel of a home-L2 line takes its write-back now (R134). -/
def outServes (s : State) (l : Line) : Bool := chanServes (s.chan l.chan) devOp

/-- Write the dirty bytes of a home-L2 line onward (R122, R126, R202). -/
def State.lineOut (s : State) (l : Line) : State :=
  if l.dirty = 0 then s else
  let va := 128 * l.tag
  let s := (s.noteServed l.chan devOp).writebackD l.asid va
  let o : Origin := { ctx := ctxOfAsid s l.asid, asid := l.asid.toNat, va := va }
  match l.home with
  | 0 => s.writeLine o l.flat l.key l.grade l.dirty l.data (l.cache = 3)
  | 1 => s.writeLine o l.flat l.key l.grade l.dirty l.data (l.cache = 3)
  | 4 => s.putExt l.chan l.asid l.tag l.key l.flat l.dirty l.data true
  | 5 => s.sendBytes (s.ctx o.ctx).evnode o.ctx l.flat l.dirty l.data (fun _ x => x)
  | _ => { s with mem := (List.range 128).foldl (fun m i =>
      if l.dirty.getLsbD i then mset m (l.flat + i) (BitVec.ofNat 8 (field l.data.toNat (8 * i) 8)) else m) s.mem }

/-- Bytes of a home-L2 line have been written onward: they are clean. -/
def Die.wrote (x : Die) (l : Line) : Die :=
  { x with l2 := x.l2.map (fun y => if y.asid = l.asid && y.tag = l.tag then { y with dirty := y.dirty &&& ~~~l.dirty } else y) }

/-- A line that the home L2 holds now and that satisfies p is written onward, or waits at its channel (R134). -/
def State.flushLine (s : State) (d : Nat) (p : Line → Bool) (l : Line) : State :=
  match lineAt (s.die d).l2 l.asid.toNat l.tag with
  | some x =>
    if !p x || x.dirty = 0 then s
    else if !outServes s x then s.noteWait x.chan devOp
    else
      let s := s.lineOut x
      s.setDie d ((s.die d).wrote x)
  | none => s

/-- The lines of a home L2 that satisfy p are written onward, and then those that this has dirtied, which hold table entries
(R105, R202); `drop`: what is clean then leaves. -/
def State.flushL2 (s : State) (d : Nat) (p : Line → Bool) (drop : Bool) : State :=
  let s := (s.die d).l2.foldl (fun s l => s.flushLine d p l) s
  let s := (s.die d).l2.foldl (fun s l => s.flushLine d p l) s
  if drop then s.setDie d { s.die d with l2 := (s.die d).l2.filter (fun l => !(p l && l.dirty = 0)) } else s

/-- No dirty line of a home L2 satisfies p. -/
def l2Clean (s : State) (d : Nat) (p : Line → Bool) : Bool := (s.die d).l2.all (fun l => !(p l && l.dirty ≠ 0))

/-- Lines of a home L2 that satisfy p leave without write-back. -/
def State.dropL2 (s : State) (d : Nat) (p : Line → Bool) : State :=
  s.setDie d { s.die d with l2 := (s.die d).l2.filter (fun l => !p l) }

/-- Ways of each of the 65,536 sets of a die's L2 that its pinned storage leaves (R12, R380). -/
def l2Ways (x : Die) : Nat := 16 - (x.pinned + 1) / 2

def l2SetOf (l : Line) : Nat := Config.l2Set l.asid.toNat l.tag % 65536

/-- Put a line into a home L2. A line new to a full set takes the place of the one put there longest ago that can leave: a
clean one, or a dirty one whose channel takes its write-back; if none can, those stay until one does (R12, R134). -/
def State.putL2 (s : State) (d : Nat) (l : Line) : State :=
  let x := s.die d
  let set := x.l2.filter (fun p => l2SetOf p = l2SetOf l)
  let s :=
    if l.valid = 0 || (lineAt x.l2 l.asid.toNat l.tag).isSome || set.length < l2Ways x then s
    else match set.find? (fun p => p.dirty = 0 || outServes s p) with
      | some v => (s.lineOut v).dropL2 d (fun p => p.asid = v.asid && p.tag = v.tag)
      | none => s
  s.setDie d { s.die d with l2 := putLine (s.die d).l2 l }

/-! ## L1 to the home L2 -/

/-- A write that is not withheld replaces bytes of a line: earlier withheld writes of them are overtaken (R192). -/
def State.unveilMask (s : State) (asid : BitVec 16) (tag : Nat) (m : BitVec 128) : State :=
  if s.veils.isEmpty then s
  else { s with veils := s.veils.filter (fun v => !(v.asid = asid && v.va / 128 = tag && m.getLsbD (v.va % 128))) }

/-- Merge bytes of a line into the home L2 as dirty bytes (R189). -/
def State.toL2 (s : State) (l : Line) (m : BitVec 128) : State :=
  if m = 0 then s else
  let s := s.unveilMask l.asid l.tag m
  let d := dieOfChannel l.chan
  let old := (lineAt (s.die d).l2 l.asid.toNat l.tag).getD { l with data := 0, valid := 0, dirty := 0, priv := false }
  s.putL2 d { old with data := mergeLine m l.data old.data, valid := old.valid ||| m, dirty := old.dirty ||| m }

def fifoHas (f : List FifoEnt) (asid : BitVec 16) (tag : Nat) : Bool := f.contains (.line asid tag)

/-- Write back the dirty bytes of an L1 line and free its FIFO entry (R187, R197); the line stays, clean. -/
def State.cleanL1 (s : State) (k : Nat) (asid : BitVec 16) (tag : Nat) : State :=
  match lineAt (s.core k).l1 asid.toNat tag with
  | some l =>
    let s := s.toL2 l l.dirty
    let c := s.core k
    s.setCore k { c with l1 := putLine c.l1 { l with dirty := 0 }, fifo := c.fifo.filter (fun e => e != FifoEnt.line asid tag) }
  | none =>
    let c := s.core k
    s.setCore k { c with fifo := c.fifo.filter (fun e => e != FifoEnt.line asid tag) }

/-- A line leaves L1. -/
def State.dropL1 (s : State) (k : Nat) (asid : BitVec 16) (tag : Nat) : State :=
  let c := s.core k
  s.setCore k { c with l1 := c.l1.filter (fun l => !(l.asid = asid && l.tag = tag)),
                       fifo := c.fifo.filter (fun e => e != FifoEnt.line asid tag) }

/-- Lines that a core's L1 holds: 128 KiB to 1 MiB by the L1SIZE of its partition (R12, R52). -/
def l1Lines (c : Core) : Nat := 1024 * 2 ^ c.l1size

/-- Put a line into a core's L1; when that is full, the line put there longest ago is written back and leaves (R12, R197). -/
def State.putL1 (s : State) (k : Nat) (l : Line) : State :=
  let c := s.core k
  let s :=
    if l.valid = 0 || (lineAt c.l1 l.asid.toNat l.tag).isSome || c.l1.length < l1Lines c then s
    else match c.l1 with
      | v :: _ => (s.cleanL1 k v.asid v.tag).dropL1 k v.asid v.tag
      | [] => s
  s.setCore k { s.core k with l1 := putLine (s.core k).l1 l }

/-- Write back every line of a core's L1 that satisfies p. -/
def State.cleanL1All (s : State) (k : Nat) (p : Line → Bool) : State :=
  (s.core k).l1.foldl (fun s l => if p l && l.dirty ≠ 0 then s.cleanL1 k l.asid l.tag else s) s

/-- The first line entry of the FIFO. -/
def firstLine : List FifoEnt → Option (BitVec 16 × Nat)
  | [] => none
  | .line a t :: _ => some (a, t)
  | .marker _ :: r => firstLine r

def fifoLines (f : List FifoEnt) : Nat := (f.filter (fun e => match e with | .line _ _ => true | .marker _ => false)).length

/-- A line becomes dirty: it takes a FIFO entry unless it holds one or is private; when the FIFO is full the oldest
entry's line is written back first (R74, R197). -/
def State.takeFifo (s : State) (k : Nat) (l : Line) : State :=
  let c := s.core k
  if l.priv || fifoHas c.fifo l.asid l.tag then s
  else
    let s := if fifoLines c.fifo < 512 then s else
      match firstLine c.fifo with
      | some (a, t) => s.cleanL1 k a t
      | none => s
    let c := s.core k
    s.setCore k { c with fifo := c.fifo ++ [.line l.asid l.tag] }

/-- Write back the lines whose entries stand ahead of a caravan's marker, or all of them (R197). -/
def State.drainFifo (s : State) (k : Nat) (slot : Option Nat) : State :=
  let ahead : List FifoEnt := match slot with
    | some n => (s.core k).fifo.takeWhile (fun e => e != FifoEnt.marker n)
    | none => (s.core k).fifo
  let s := ahead.foldl (fun s e => match e with
    | .line a t => s.cleanL1 k a t
    | .marker _ => s) s
  match slot with
  | some n =>
    let c := s.core k
    s.setCore k { c with fifo := c.fifo.filter (fun e => e != FifoEnt.marker n) }
  | none => s

/-- What an acquire drops from L1: every byte that is not dirty, private lines untouched (R196); of the lines that
satisfy p. -/
def State.acquireL1 (s : State) (k : Nat) (p : Line → Bool) : State :=
  let c := s.core k
  let ls := (c.l1.map (fun l => if !l.priv && p l then { l with valid := l.dirty } else l)).filter (fun l => l.valid ≠ 0)
  s.setCore k { c with l1 := ls }

end Sys2Proof.Machine
end

