-- ==== Sys2Proof/Machine/Access.lean ====
section
/-! DEFINITION. One access of memory: the register windows (R119, R145, R378), the core window (R106), and translated
memory in L1, at the home L2, at the channel point, or at another node (R104, R105, R187, R263). -/

namespace Sys2Proof.Machine

/-- Who accesses (R186). -/
structure User where
  ctx   : Nat
  /-- Issuing core of a caravan, a slice or an engine operation. -/
  core  : Option Nat
  /-- A copy (R119 turns it away from registers). -/
  copy  : Bool
  fetch : Bool
  /-- LDL or STL (R74). -/
  priv  : Bool
  /-- Operation number, under which it waits at a channel (R134). -/
  op    : Nat
  /-- The caravan or slice whose program order the access keeps (R188); none for the device and the engines. -/
  who   : Option Agent
  deriving DecidableEq, Repr

def User.device (c : Nat) : User :=
  { ctx := c, core := none, copy := false, fetch := false, priv := false, op := devOp, who := none }

/-- The die that a request counts for at a channel (R115; log 98). -/
def User.die (u : User) (ch : Nat) : Nat := (u.core.map dieOfCore).getD (dieOfChannel ch)

/-- Where an access asks to be performed: as a plain access, at the home (`sys`: SYSTEM scope), or at the channel point
(R187, R279). -/
inductive Place where
  | plain
  | home (sys : Bool)
  | deep
  deriving DecidableEq, Repr

/-- What becomes of an access. -/
inductive Res where
  | ok (x : Nat)
  | cause (c : LaneCause)
  /-- V = 0 and PG = 1 at this level (R109). -/
  | park (level : Nat)
  /-- To be performed at another node (R149). -/
  | remote
  /-- To be performed here once its bytes have come from another node (R105, R116). -/
  | fill
  /-- Waits at its channel (R130, R134). -/
  | busy
  deriving DecidableEq, Repr

namespace Act
def writes : Act → Bool
  | .rd => false
  | .mdrd => false
  | _ => true
/-- The new value, from the old one. -/
def new (a : Act) (w old : Nat) : Option Nat :=
  match a with
  | .wr x => some (x.toNat % 2 ^ (8 * w))
  | .rmw op t x none => some (atomicOp op t old x.toNat)
  | .rmw _ _ x (some c) => if old % 2 ^ (8 * w) = c.toNat % 2 ^ (8 * w) then some (x.toNat % 2 ^ (8 * w)) else none
  | _ => none
def needsOld : Act → Bool
  | .wr _ => false
  | .mdwr _ => false
  | _ => true
/-- Access kind of a fault record (R110). -/
def kind : Act → Nat
  | .rd => 0
  | .mdrd => 0
  | .rmw _ _ _ _ => 2
  | _ => 1
end Act

/-! ## Ports (R145, R146): what a write to LCTL does -/

/-- Reliable flits that a port holds are sent again, in order, over another port that reaches the same next hop; without one they are
lost (R150). -/
def State.reroute (s : State) (p : Nat) : State :=
  let x := s.port p
  let s := s.setPort p { x with buffer := [] }
  match (List.range 36).find? (fun q => q ≠ p && (s.port q).st = .up && Config.sameHop p q) with
  | some q =>
    let s := s.setPort q { s.port q with buffer := (s.port q).buffer ++ x.buffer }
    { s with fab := { s.fab with via := x.buffer.foldl (fun v n => sput v n q) s.fab.via } }
  | none => s

def State.disSet (s : State) (p : Nat) : State :=
  let s := s.setPort p { s.port p with st := .down, dis := true, tries := 0, attempts := 0 }
  s.reroute p

/-- DIS written 0: a DOWN port trains, and so does one that had FAILED (its DIS was written 1 first) (R146). -/
def State.disClear (s : State) (p : Nat) : State :=
  let x := s.port p
  if x.st = .down then s.setPort p { x with dis := false, st := .training, attempts := 0 }
  else s.setPort p { x with dis := false }

/-! ## Register windows of context 0 -/

def modeCode : ChMode → Nat
  | .normal => 0
  | .arming => 1
  | .compute => 2
  | .suspended => 3
  | .exiting => 4

def linkCode : LinkState → Nat
  | .down => 0
  | .training => 1
  | .up => 2
  | .retrain => 3
  | .failed => 4

/-- CMODE (R119). -/
def cmodeWord (c : Channel) : W64 :=
  BitVec.ofNat 64 (modeCode c.mode + 8 * c.steps + 256 * (if c.mode = .normal then 0 else c.owner))

/-- A channel register by offset (R119); none where no register is listed. -/
def chanReg (c : Channel) (o : Nat) : Option W64 :=
  if o = 0x00 then some (cmodeWord c) else if o = 0x08 then some c.hrcfg else if o = 0x10 then some c.obound
  else if o = 0x18 then some c.statact else if o = 0x20 then some c.statrfm else if o = 0x28 then some c.statback
  else if o = 0x30 then some c.statcap else if o = 0x38 then some c.statce else if o = 0x40 then some c.statue
  else if o = 0x48 then some c.statsusp
  else if 0x2000 ≤ o && o < 0x4000 && o % 8 = 0 then
    some (((sget 0 c.const ((o - 0x2000) / 32)) >>> (64 * (o % 32 / 8))).setWidth 64)
  else none

def setChanReg (c : Channel) (o : Nat) (x : W64) : Channel :=
  if o = 0x08 then
    let n := field x.toNat 32 7
    { c with hrcfg := (x &&& 0xFFFFFFFF) ||| (BitVec.ofNat 64 (if n > 64 then 64 else n) <<< 32) }
  else if o = 0x10 then { c with obound := if field x.toNat 0 16 < 500 then 500 else x &&& 0xFFFF }
  else if o = 0x18 then { c with statact := x } else if o = 0x20 then { c with statrfm := x }
  else if o = 0x28 then { c with statback := x } else if o = 0x30 then { c with statcap := x }
  else if o = 0x38 then { c with statce := x } else if o = 0x40 then { c with statue := x }
  else if o = 0x48 then { c with statsusp := x }
  else if 0x2000 ≤ o then
    let i := (o - 0x2000) / 32
    let p := 64 * (o % 32 / 8)
    let e := sget 0 c.const i
    let e := (e &&& ~~~(0xFFFFFFFFFFFFFFFF#256 <<< p)) ||| (x.setWidth 256 <<< p)
    { c with const := sset 0 c.const i e }
  else c

/-- A port register (R145). -/
def portReg (p : Port) (o : Nat) : Option W64 :=
  if o = 0x00 then some (BitVec.ofNat 64 (linkCode p.st + 2 ^ 16 * p.peer.toNat + 2 ^ 32 * p.peerPort.toNat))
  else if o = 0x08 then some (if p.dis then 1 else 0) else if o = 0x10 then some p.retry
  else if o = 0x18 then some p.check else if o = 0x20 then some p.drop else if o = 0x28 then some p.retrain
  else none

def State.setPortReg (s : State) (p o : Nat) (x : W64) : State :=
  if o = 0x08 then if x.getLsbD 0 then s.disSet p else s.disClear p
  else if o = 0x10 then s.setPort p { s.port p with retry := x }
  else if o = 0x18 then s.setPort p { s.port p with check := x }
  else if o = 0x20 then s.setPort p { s.port p with drop := x }
  else if o = 0x28 then s.setPort p { s.port p with retrain := x }
  else s

/-- An access of n bytes to the register windows: 8-byte aligned loads and stores of listed registers only (R119, R145);
the command window reads zero and takes no caravan's write (R378). -/
def State.regAccess (s : State) (u : User) (va n : Nat) (act : Act) : State × Res :=
  let top := vaTop va
  if top = 0x1EF then
    if va % 2 ^ 48 < 4096 && !u.fetch then (s, .ok 0) else (s, .cause .permission)
  else
    let ok := n = 8 && va % 8 = 0 && !u.copy && !u.fetch && (match act with | .rd => true | .wr _ => true | _ => false)
    if !ok then (s, .cause .permission)
    else if top = 0x1ED then
      let ch := va % 2 ^ 48 / 16384
      match (if ch < 512 then chanReg (s.chan ch) (va % 16384) else none) with
      | none => (s, .cause .permission)
      | some old =>
        match act.new 8 old.toNat with
        | some x => (s.setChan ch (setChanReg (s.chan ch) (va % 16384) (BitVec.ofNat 64 x)), .ok old.toNat)
        | none => (s, .ok old.toNat)
    else
      let p := va % 2 ^ 48 / 4096
      match (if p < 36 then portReg (s.port p) (va % 4096) else none) with
      | none => (s, .cause .permission)
      | some old =>
        match act.new 8 old.toNat with
        | some x => (s.setPortReg p (va % 4096) (BitVec.ofNat 64 x), .ok old.toNat)
        | none => (s, .ok old.toNat)

/-! ## The core store and the core window -/

/-- The caravan whose register window holds byte o of core k, with the register, lane and byte (R68). -/
def windowAt (s : State) (k o : Nat) : Option (Nat × Nat × Nat × Nat) :=
  (List.range 16).findSome? (fun slot =>
    let c := s.cv k slot
    if c.st != .absent && c.rbase ≤ o && o < c.rbase + 4 * c.width * c.nregs then
      let p := o - c.rbase
      some (slot, p / (4 * c.width), p % (4 * c.width) / 4, p % 4)
    else none)

/-- A core-store byte as a load of it finds it: a register window's from the window (R71). -/
def State.storeByte (s : State) (k o : Nat) : Byte :=
  match windowAt s k o with
  | some (slot, r, L, b) => ((sget 0 (s.cv k slot).win (1024 * r + L)) >>> (8 * b)).setWidth 8
  | none => mget s.mem (Flat.core k o)

def State.setStoreByte (s : State) (k o : Nat) (x : Byte) : State :=
  match windowAt s k o with
  | some (slot, r, L, b) =>
    let c := s.cv k slot
    let w := sget 0 c.win (1024 * r + L)
    let w := (w &&& ~~~(0xFF#32 <<< (8 * b))) ||| (x.setWidth 32 <<< (8 * b))
    s.setCv k slot { c with win := sset 0 c.win (1024 * r + L) w }
  | none => { s with mem := mset s.mem (Flat.core k o) x }

def State.storeLoad (s : State) (k o : Nat) : Nat → Nat
  | 0 => 0
  | n + 1 => (s.storeByte k o).toNat + 256 * s.storeLoad k (o + 1) n

def State.storePut (s : State) (k o : Nat) : Nat → Nat → State
  | 0, _ => s
  | n + 1, x => (s.setStoreByte k o (BitVec.ofNat 8 x)).storePut k (o + 1) n (x / 256)

/-- Bytes of storage that a caravan's queues take (R89). -/
def queueBytes (c : Caravan) : Nat := c.nq * c.qdepth * 4 * c.width

/-- The bytes o .. o+n−1 of core k belong to context c as register window, queue, tile or party scratch (R106). -/
def windowOwns (s : State) (c k o n : Nat) : Bool :=
  ((List.range 16).any (fun slot =>
    let v := s.cv k slot
    v.st != .absent && v.ctx = c && v.rbase ≤ o && o + n ≤ v.rbase + 4 * v.width * v.nregs + queueBytes v)) ||
  (s.core k).tiles.any (fun kt =>
    let t := kt.2
    t.defined && t.ctx = c && 256 * t.base ≤ o && o + n ≤ 256 * t.base + 32 * t.pitch * (t.rows + 1)) ||
  (s.core k).parties.any (fun kp =>
    let p := kp.2
    p.st != .free && p.ctx = c && 256 * p.scrBase ≤ o && o + n ≤ 256 * (p.scrBase + p.scrSize))

def State.windowAccess (s : State) (u : User) (k o n : Nat) (act : Act) : State × Res :=
  if u.fetch then (s, .cause .permission)
  else if o ≥ 3 * 2 ^ 20 then (s, .cause .outOfRange)
  else match act with
    | .mdrd => (s, .cause .permission)
    | .mdwr _ => (s, .cause .permission)
    | _ =>
      if !windowOwns s u.ctx k o n then (s, .cause .permission)
      else
        let old := s.storeLoad k o n
        match act.new n old with
        | some x => (s.storePut k o n x, .ok old)
        | none => (s, .ok old)

/-! ## Translated memory -/

/-- R104 for a leaf. -/
def leafCheck (s : State) (c : Nat) (l : Leaf) (write fetch : Bool) : Option LaneCause :=
  let x := s.ctx c
  let first := match l.home with
    | 0 => if x.kbase ≤ l.keyx && l.keyx < x.kbase + x.kcount && (s.keySlot l.keyx).full then none else some .permission
    | 1 => if x.kbase ≤ l.keyx && l.keyx < x.kbase + x.kcount && (s.keySlot l.keyx).full then none else some .permission
    | 4 =>
      let e := s.extent l.keyx
      if e.st = .gone then some .extentGone
      else if e.st != .free && e.owner = c && (s.keySlot x.kbase).full then none else some .permission
    | _ => none
  match first with
  | some e => some e
  | none =>
    if write && !(l.w && l.home ≠ 6) then some .permission
    else if fetch && !l.x then some .permission else none

/-- A request must wait at its channel: the mode, or a refresh-management block of its bank (R130, R134). -/
def chanWaits (s : State) (u : User) (ch : Nat) (b : Back) : Bool :=
  !chanServes (s.chan ch) u.op ||
    match b with
    | .dram f => (s.chan ch).blocked.contains (Flat.bank f)
    | _ => false

/-- The memory-side cache holds the bytes `m` of an extent's line. -/
def extHas (c : Channel) (id off : Nat) (m : BitVec 128) : Bool :=
  match extLine c id off with
  | some y => m &&& ~~~y.valid = 0
  | none => false

/-- An access of n bytes at the channel point (R102, R115, R118, R128). -/
def State.pointAccess (s : State) (u : User) (ch : Nat) (l : Leaf) (va n : Nat) (act : Act) : State × Res :=
  let b := backOf l ch va
  let asid := (s.ctx u.ctx).asid
  let p := va % 128
  let m := byteMask p n
  let o : Origin := { ctx := u.ctx, asid := asid.toNat, va := va }
  if chanWaits s u ch b then (s.noteWait ch u.op, .busy) else
  let s := s.noteServed ch u.op
  let s := if act.writes then s.setD u.ctx va l else s
  let missing := match b with
    | .extent id a => act.needsOld && !extHas (s.chan ch) id a m
    | _ => false
  if missing then (s, .fill) else
  let s := s.countServed u.ctx ch (u.die ch) va l
  match b with
  | .dram f =>
    let (s, d, bad) := if act.needsOld then s.readLine o f l.keyx l.grade m (l.cache = 3) else (s, 0, 0)
    if bad ≠ 0 then (s, .cause .dataUncorrectable) else
    let old := field d.toNat (8 * p) (8 * n)
    match act.new n old with
    | some x => (s.writeLine o f l.keyx l.grade m (BitVec.ofNat 1024 (x * 2 ^ (8 * p))) (l.cache = 3), .ok old)
    | none => (s, .ok old)
  | .core k a =>
    let old := s.storeLoad k a n
    match act.new n old with
    | some x => (s.storePut k a n x, .ok old)
    | none => (s, .ok old)
  | .pinned f =>
    let old := mload s.mem f n
    match act.new n old with
    | some x => ({ s with mem := mstore s.mem f n x }, .ok old)
    | none => (s, .ok old)
  | .const c i => (s, .ok (field (sget 0 (s.chan c).const i).toNat (8 * (va % 32)) (8 * n)))
  | .host _ => (s, .remote)
  | .extent id a =>
    let old := match extLine (s.chan ch) id a with
      | some y => field y.ext.toNat (8 * p) (8 * n)
      | none => 0
    match act.new n old with
    | some v => (s.putExt ch asid (va / 128) id a m (BitVec.ofNat 1024 (v * 2 ^ (8 * p))) true, .ok old)
    | none => (s, .ok old)

/-! ## Withheld writes (R192) -/

/-- An operation of a caravan with a strong access that satisfies p and is still to be performed, numbered below `op`. -/
def strongBefore (s : State) (a : Agent) (op : Nat) (p : Act → Bool) : Bool :=
  let hit (r : Req) : Bool := r.strong && p r.act
  s.ops.any (fun o => o.core = a.core && o.cslot = a.slot && o.slice = a.slice && o.id < op &&
    (o.todo.any hit || o.remote.any hit)) ||
  s.parks.any (fun x => x.core = a.core && x.cslot = a.slot && x.srckind = 0 && match x.what with
    | .lanes n rs => n < op && rs.any hit
    | _ => false)

/-- A write is still withheld. -/
def Veil.holds (s : State) (v : Veil) : Bool :=
  strongBefore s { core := v.core, slot := v.slot, slice := false } v.op (fun _ => true)

/-- What of a byte is withheld from a reader, oldest first: past the newest write of the byte that is its own or is withheld no
more, every write is. -/
def withheld (s : State) (who : Option Agent) (asid : BitVec 16) (va : Nat) : List Veil :=
  (s.veils.filter (fun v => v.asid = asid && v.va = va)).foldl (fun l v =>
    if v.holds s && who ≠ some { core := v.core, slot := v.slot, slice := false } then l ++ [v] else []) []

/-- A read by an agent of n bytes that hold x: withheld writes are not seen. -/
def seen (s : State) (who : Option Agent) (asid : BitVec 16) (va x : Nat) : Nat → Nat
  | 0 => 0
  | n + 1 =>
    (match withheld s who asid va with
      | v :: _ => v.old.toNat
      | [] => x % 256) + 256 * seen s who asid (va + 1) (x / 256) n

/-- Some of n bytes is withheld from an agent. -/
def anyWithheld (s : State) (who : Option Agent) (asid : BitVec 16) (va n : Nat) : Bool :=
  (List.range n).any (fun i => !(withheld s who asid (va + i)).isEmpty)

/-- A line as a fill of a core's L1 brings it. -/
def seenLine (s : State) (who : Option Agent) (l : Line) : Line :=
  if s.veils.any (fun v => v.asid = l.asid && v.va / 128 = l.tag) then
    { l with data := BitVec.ofNat 1024 (seen s who l.asid (128 * l.tag) l.data.toNat 128) }
  else l

/-- A write of n bytes that held x is withheld. -/
def State.veil (s : State) (a : Agent) (op : Nat) (asid : BitVec 16) (va x n : Nat) : State :=
  { s with veils := s.veils ++ (List.range n).map (fun i =>
      { core := a.core, slot := a.slot, op := op, asid := asid, va := va + i, old := BitVec.ofNat 8 (x / 256 ^ i) }) }

/-- The new value that an action leaves in place of an old one. -/
def Act.after (a : Act) (n old : Nat) : Nat := (a.new n old).getD old

/-- An access at the home or at the channel point: what its agent sees there, and what of earlier withheld writes its own
write overtakes (R192). -/
def State.homeView (s : State) (u : User) (va n : Nat) (act : Act) (r : State × Res) : State × Res :=
  let asid := (s.ctx u.ctx).asid
  match r with
  | (s, .ok x) =>
    match act with
    | .rd => (s, .ok (if s.veils.isEmpty then x else seen s u.who asid va x n))
    | _ => ((if (act.new n x).isSome then s.unveilMask asid (va / 128) (byteMask (va % 128) n) else s), .ok x)
  | r => r

/-! ## The caches -/

/-- What a request at the home L2 finds. -/
inductive Fetched where
  /-- A line with its attributes and the bytes asked for; `held`: the home L2 holds it. -/
  | line (l : Line) (held : Bool)
  /-- A page that allocates in no cache. -/
  | uncached (l : Leaf)
  | stop (r : Res)
  deriving DecidableEq, Repr

/-- Find the leaf of a VA at its channel, with the checks of R103 and R104. -/
def State.findLeaf (s : State) (u : User) (ch va : Nat) (write : Bool) : State × (Leaf ⊕ Res) :=
  match s.translate u.ctx ch va (some u.op) with
  | (s, .busy) => (s, .inr .busy)
  | (s, .absent true k) => (s, .inr (.park k))
  | (s, .absent false _) => (s, .inr (.cause .outOfRange))
  | (s, .error _ _) => (s, .inr (.cause .outOfRange))
  | (s, .leaf l) =>
    match leafCheck s u.ctx l write u.fetch with
    | some c => (s, .inr (.cause c))
    | none => (s, .inl l)

/-- The bytes of a line from behind the caches: those that are there, and those that are uncorrectable. -/
def State.lineFrom (s : State) (u : User) (ch : Nat) (l : Leaf) (va : Nat) : State × BitVec 1024 × BitVec 128 × BitVec 128 :=
  let base := va / 128 * 128
  let all := BitVec.allOnes 128
  match backOf l ch base with
  | .dram f =>
    let (s, d, bad) := s.readLine { ctx := u.ctx, asid := (s.ctx u.ctx).asid.toNat, va := base } f l.keyx l.grade all false
    (s, d, all &&& ~~~bad, bad)
  | .core k a => (s, BitVec.ofNat 1024 (s.storeLoad k a 128), all, 0)
  | .pinned f => (s, BitVec.ofNat 1024 (mload s.mem f 128), all, 0)
  | .const c i =>
    let e := (sget 0 (s.chan c).const i).toNat
    (s, BitVec.ofNat 1024 (e * (1 + 2 ^ 256 + 2 ^ 512 + 2 ^ 768)), all, 0)
  | .host _ => (s, 0, 0, 0)
  | .extent id a =>
    match extLine (s.chan ch) id a with
    | some y => (s, y.ext, y.valid, 0)
    | none => (s, 0, 0, 0)

/-- A request for a line at its home L2 (R98, R99, R105): its attributes, and where `need` is not empty its bytes.
`known`: the leaf, where the channel has been asked already. -/
def State.fromHome (s : State) (u : User) (ch va : Nat) (need : BitVec 128) (write : Bool) (known : Option Leaf) :
    State × Fetched :=
  let asid := (s.ctx u.ctx).asid
  let d := dieOfChannel ch
  let held := lineAt (s.die d).l2 asid.toNat (va / 128)
  let full := match held with
    | some l => if need &&& ~~~l.valid = 0 then some l else none
    | none => none
  match full with
  | some l =>
    if write && !l.w then (s, .stop (.cause .permission))
    else if u.fetch && !l.x then (s, .stop (.cause .permission)) else (s, .line l true)
  | none =>
    let (s, r) : State × (Leaf ⊕ Res) := match known with
      | some l => (s, .inl l)
      | none => s.findLeaf u ch va write
    match r with
    | .inr r => (s, .stop r)
    | .inl l =>
      if l.cache ≥ 2 then (s, .uncached l)
      else if chanWaits s u ch (backOf l ch va) then (s.noteWait ch u.op, .stop .busy)
      else
        let s := s.noteServed ch u.op
        let s := if write then s.setD u.ctx va l else s
        let s := s.countServed u.ctx ch (u.die ch) va l
        let fresh := (l.line asid ch va)
        if need = 0 then (s, .line { fresh with unfilled := true } false)
        else
          let (s, x, valid, bad) := s.lineFrom u ch l va
          let old := held.getD fresh
          if bad &&& need &&& ~~~old.valid ≠ 0 then (s, .stop (.cause .dataUncorrectable))
          else
            -- a clean byte gives way to what the fill brings: no access sees half of a write (R189)
            let keep := old.dirty ||| (old.valid &&& ~~~valid)
            let new := { old with data := mergeLine keep old.data x, valid := old.valid ||| valid }
            if need &&& ~~~new.valid ≠ 0 then (s, .stop .fill)
            else if bad ≠ 0 then (s, .line new held.isSome)
            else (s.putL2 d new, .line new true)

/-- Apply an action to bytes p .. p+n−1 of a line. -/
def lineAct (l : Line) (p n : Nat) (act : Act) : Line × Nat :=
  let old := lineBytes l p n
  match act.new n old with
  | some x =>
    let m := byteMask p n
    ({ l with data := mergeLine m (BitVec.ofNat 1024 (x * 2 ^ (8 * p))) l.data, valid := l.valid ||| m,
              dirty := l.dirty ||| m }, old)
  | none => (l, old)

/-- Perform an action on a line at its home L2. -/
def State.homePut (s : State) (d : Nat) (l : Line) (p n : Nat) (act : Act) : State × Res :=
  let (l', old) := lineAct l p n act
  if l'.dirty = l.dirty && l'.data = l.data then (s, .ok old)
  else (s.putL2 d { l' with priv := false }, .ok old)

/-- An access performed at the home L2 (R187). -/
def State.homeAccess (s : State) (u : User) (ch va n : Nat) (act : Act) (known : Option Leaf) : State × Res :=
  let need := if act.needsOld then byteMask (va % 128) n else 0
  match s.fromHome u ch va need act.writes known with
  | (s, .stop r) => (s, r)
  | (s, .uncached l) => s.pointAccess u ch l va n act
  | (s, .line l _) => s.homePut (dieOfChannel ch) l (va % 128) n act

/-- An access through the issuing core's L1 (R98, R105, R189, R197). -/
def State.l1Access (s : State) (u : User) (k ch va n : Nat) (act : Act) : State × Res :=
  let p := va % 128
  let asid := (s.ctx u.ctx).asid
  let held := lineAt (s.core k).l1 asid.toNat (va / 128)
  let denied := match held with
    | some l => (act.writes && !l.w) || (u.fetch && !l.x)
    | none => false
  if denied then (s, .cause .permission) else
  let have_ := match held with
    | some l => !act.needsOld || hasBytes l p n
    | none => false
  -- a private line that no resident caravan has written is zeros, without a memory read (R74)
  let cold := u.priv && held.isNone && !(s.core k).touched.contains (asid, va / 128)
  -- the line with what the access needs, or where else the access goes
  let (s, r) : State × Fetched :=
    if have_ then (s, .line (held.getD (tableLeaf 0 |>.line asid ch va)) true)
    else
      let need := if act.needsOld && !cold then byteMask p n else 0
      match s.fromHome u ch va need act.writes none with
      | (s, .line l h) =>
        if l.cache = 0 then
          let l := seenLine s u.who l
          let mine := held.getD { l with data := 0, valid := 0, dirty := 0, priv := u.priv }
          let got := if need = 0 then 0 else l.valid
          let keep := mine.dirty ||| (mine.valid &&& ~~~got)
          let new := { mine with data := mergeLine keep mine.data l.data, valid := mine.valid ||| got,
                                 unfilled := mine.unfilled || (need = 0 && !cold) }
          (s, .line (if cold then { new with data := 0, valid := BitVec.allOnes 128 } else new) true)
        else (s, .line l h)
      | r => r
  match r with
  | .stop r => (s, r)
  | .uncached l => s.homeView u va n act (s.pointAccess u ch l va n act)
  | .line l _ =>
    if l.cache ≠ 0 then s.homeView u va n act (s.homePut (dieOfChannel ch) l p n act)
    else
      let (l', old) := lineAct l p n act
      -- the first write of a private line: from now on the memory behind it counts, zeros and all
      let first := l'.priv && l'.dirty ≠ 0 && !(s.core k).touched.contains (asid, va / 128)
      let l' := if first then { l' with dirty := l'.valid } else l'
      let s := if first then s.setCore k { s.core k with touched := (s.core k).touched ++ [(asid, va / 128)] } else s
      let s := if l'.dirty ≠ 0 && l.dirty = 0 then s.takeFifo k l' else s
      (s.putL1 k l', .ok old)

/-- Before a strong access is performed at the home, the issuing core's L1 writes back the line's dirty bytes (R187). -/
def State.beforeHome (s : State) (u : User) (va : Nat) : State :=
  match u.core with
  | some k => s.cleanL1 k (s.ctx u.ctx).asid (va / 128)
  | none => s

/-- The home L2 writes its dirty bytes of a line onward; `drop`: the line leaves (R187, R279). -/
def State.l2LineOut (s : State) (c ch va : Nat) (drop : Bool) : State :=
  let asid := (s.ctx c).asid
  s.flushL2 (dieOfChannel ch) (fun l => l.asid = asid && l.tag = va / 128) drop

/-- A copy of the bytes in the issuing core's L1 takes the value performed at the home (R187, R191). -/
def State.updateL1 (s : State) (u : User) (va n x : Nat) : State :=
  match u.core with
  | none => s
  | some k =>
    match lineAt (s.core k).l1 (s.ctx u.ctx).asid.toNat (va / 128) with
    | none => s
    | some l =>
      let m := byteMask (va % 128) n
      let l' := { l with data := mergeLine m (BitVec.ofNat 1024 (x * 2 ^ (8 * (va % 128)))) l.data, valid := l.valid ||| m }
      s.putL1 k l'

/-- Free metadata bits at the channel point (R124, R272). A read makes check 5 of R263 as any read does. -/
def State.metaAccess (s : State) (u : User) (ch va : Nat) (act : Act) : State × Res :=
  match s.findLeaf u ch va act.writes with
  | (s, .inr r) => (s, r)
  | (s, .inl l) =>
    if l.home > 1 || l.grade > 1 then (s, .cause .permission) else
    let b := backOf l ch va
    if chanWaits s u ch b then (s.noteWait ch u.op, .busy) else
    let s := s.noteServed ch u.op
    match b with
    | .dram f =>
      let o : Origin := { ctx := u.ctx, asid := (s.ctx u.ctx).asid.toNat, va := va }
      let s := if act.writes then s.setD u.ctx va l else s
      let s := s.countServed u.ctx ch (u.die ch) va l
      match act with
      | .mdwr v =>
        let s := s.openRow o ch (Flat.bank f) (Flat.row f) true
        let x := s.sector (f / 32)
        let sb := if l.grade = 0 then (x.sb &&& 0xF) ||| (v.setWidth 28).setWidth 32 <<< 4
          else (x.sb &&& 0x3FFFF) ||| (v.setWidth 14).setWidth 32 <<< 18
        (s.setSector (f / 32) { x with sb := sb }, .ok 0)
      | _ =>
        let (s, _, bad) := s.readLine o f l.keyx l.grade (byteMask (f % 128 / 32 * 32) 32) false
        let x := s.sector (f / 32)
        let sb := x.sb ^^^ (x.flips >>> 256).setWidth 32
        if bad ≠ 0 then (s, .cause .dataUncorrectable)
        else (s, .ok (if l.grade = 0 then sb.toNat / 2 ^ 4 else sb.toNat / 2 ^ 18))
    | _ => (s, .cause .permission)

/-- A read-modify-write waits for bytes that are withheld from it (R192). -/
def Act.mayWait : Act → Bool
  | .rmw _ _ _ _ => true
  | _ => false

/-- An access of translated memory (R187). A line that the home L2 holds tells its attributes without the channel. -/
def State.accessAt (s : State) (u : User) (pl : Place) (ch va n : Nat) (act : Act) : State × Res :=
  let asid := (s.ctx u.ctx).asid
  match act with
  | .mdrd => s.metaAccess u ch va act
  | .mdwr _ => s.metaAccess u ch va act
  | _ =>
    if act.mayWait && anyWithheld s u.who asid va n then (s, .busy) else
    match pl with
    | .plain =>
      match u.core with
      | some k => s.l1Access u k ch va n act
      | none => s.homeView u va n act (s.homeAccess u ch va n act none)
    | .home sys =>
      let s := s.beforeHome u va
      let held := lineAt (s.die (dieOfChannel ch)).l2 asid.toNat (va / 128)
      let away (s : State) (l : Leaf) : State × Res :=
        if chanWaits s u ch (backOf l ch va) then (s.noteWait ch u.op, .busy)
        else
          let s := s.noteServed ch u.op
          let s := if act.writes then s.setD u.ctx va l else s
          let s := s.countServed u.ctx ch (u.die ch) va l
          (s.flushExt (fun x => l.home = 4 && x.extent = some l.keyx && x.tag = va / 128) true, .remote)
      let (s, r) : State × Res := match held with
        | some l =>
          if sys && (l.home = 4 || l.home = 5) then
            if act.writes && !l.w then (s, .cause .permission)
            else
              let s := s.l2LineOut u.ctx ch va true
              match s.findLeaf u ch va act.writes with
              | (s, .inr r) => (s, r)
              | (s, .inl l) => away s l
          else s.homeView u va n act (s.homeAccess u ch va n act none)
        | none =>
          match s.findLeaf u ch va act.writes with
          | (s, .inr r) => (s, r)
          | (s, .inl l) =>
            if sys && (l.home = 4 || l.home = 5) then away s l
            else if l.cache ≥ 2 then s.homeView u va n act (s.pointAccess u ch l va n act)
            else s.homeView u va n act (s.homeAccess u ch va n act (some l))
      match r with
      | .ok old => (s.updateL1 u va n (act.after n old), .ok old)
      | r => (s, r)
    | .deep =>
      let s := s.beforeHome u va
      let s := match u.core with
        | some k => s.dropL1 k asid (va / 128)
        | none => s
      let s := s.l2LineOut u.ctx ch va true
      match s.findLeaf u ch va act.writes with
      | (s, .inr r) => (s, r)
      | (s, .inl l) => s.homeView u va n act (s.pointAccess u ch l va n act)

/-- One access of n bytes within a 128-byte line, by checks 3 to 5 of R263 and R187. -/
def State.access (s : State) (u : User) (pl : Place) (va n : Nat) (act : Act) : State × Res :=
  match route s u.ctx u.core va with
  | .bad => (s, .cause .outOfRange)
  | .regs => s.regAccess u va n act
  | .window k o => s.windowAccess u k o n act
  | .banked ch => s.accessAt u pl ch va n act
  | .interleaved ch => s.accessAt u pl ch va n act

/-- A VA of the register windows of context 0 (R97). -/
def inRegs (c va : Nat) : Bool := c = 0 && 0x1ED ≤ vaTop va && vaTop va ≤ 0x1EF

/-- An access by checks 1 to 5 of R263: 57 bits (R96), natural alignment, then the access. The register windows have an
alignment rule of their own (R119, R145). -/
def State.checkedAccess (s : State) (u : User) (pl : Place) (va : W64) (n align : Nat) (act : Act) : State × Res :=
  if va.toNat ≥ 2 ^ 57 then (s, .cause .outOfRange)
  else if va.toNat % align ≠ 0 && !inRegs u.ctx va.toNat then (s, .cause .misaligned)
  else s.access u pl va.toNat n act

end Sys2Proof.Machine
end

