-- ==== Sys2Proof/Machine/Records.lean ====
section
/-! DEFINITION. Accesses that may have to wait at a channel or for another node (R134, R149), reading and writing memory as the
device itself, and the posting of fault and event records (R111, R112, R162, R379). -/

namespace Sys2Proof.Machine

/-! ## Accesses that wait (R134, R149) -/

/-- The node and the address there of a page's byte that lies at another node: an extent's, or the context's EVNODE (R102,
R116, R147). -/
def pageTarget (s : State) (c : Nat) (va : W64) : BitVec 16 × W64 :=
  match (s.translate c (chanOfVa va.toNat) va.toNat none).2 with
  | .leaf l => match backOf l (chanOfVa va.toNat) va.toNat with
    | .extent id a => ((s.extent id).node, (s.extent id).base + BitVec.ofNat 64 a)
    | .host a => ((s.ctx c).evnode, BitVec.ofNat 64 a)
    | _ => ((s.ctx c).evnode, va)
  | _ => ((s.ctx c).evnode, va)

/-- Bytes that have come from another node for a cached page lie in the caches (R105, R116, R189). -/
def State.fillBytes (s : State) (u : User) (va n : Nat) (x : BitVec 128) : State :=
  let ch := chanOfVa va
  let asid := (s.ctx u.ctx).asid
  let p := va % 128
  let m := byteMask p n
  match s.translate u.ctx ch va none with
  | (s, .leaf l) =>
    match backOf l ch va with
    | .extent id a =>
      let k := (s.ctx (s.extent id).owner).kbase
      let y := Config.extentOpened k (s.keySlot k).gen id a x
      let kept := match extLine (s.chan ch) id a with
        | some z => z.dbytes
        | none => 0
      s.putExt ch asid (va / 128) id a (m &&& ~~~kept) (y.setWidth 1024 <<< (8 * p)) false
    | _ =>
      if l.cache ≥ 2 then s
      else
        let d := dieOfChannel ch
        let old := (lineAt (s.die d).l2 asid.toNat (va / 128)).getD (l.line asid ch va)
        s.putL2 d { old with data := mergeLine (m &&& ~~~old.dirty) (x.setWidth 1024 <<< (8 * p)) old.data, valid := old.valid ||| m }
  | (s, _) => s

/-- Who asks, as the lane number of a request of the device's own: 0 the device itself; a caravan, by core and slot; what has come over
the fabric, by the number that it waits with. -/
def asker (core slot : Nat) : Nat := 1 + 16 * core + slot
def User.asker (u : User) : Nat :=
  match u.who with
  | some a => Machine.asker a.core a.slot
  | none => if u.op = devOp then 0 else u.op

/-- An access of the device's own as a request to another node; `fill`: for its line's bytes. -/
def askReq (who va n : Nat) (fill : Bool) (act : Act) : Req :=
  { lane := who, va := BitVec.ofNat 64 va, w := n, home := true, sys := true, deep := false, priv := false, off := 0,
    strong := false, fill := fill, act := act }

/-- What a request says to the node: one for a line's bytes reads them. -/
def Req.sent (r : Req) : Act := if r.fill then .rd else r.act

/-- An answered or waiting request of the device's own, with the node that it goes to. -/
def OpKind.asked : OpKind → Option (BitVec 16 × Req × Option LaneCause)
  | .dev node r x => some (node, r, x)
  | _ => none

/-- Ask another node: its answer, which is used up, or the wish for it. -/
def State.askNode (s : State) (node : BitVec 16) (c : Nat) (addr : W64) (r : Req) : State × Res :=
  match s.ops.findSome? (fun o => match o.kind.asked with
    | some (_, q, x) => if o.ctx = c && q = r then some (o, x) else none
    | none => none) with
  | none => ({ s with want := .node node c addr r }, .busy)
  | some (o, x) =>
    if !o.remote.isEmpty then ({ s with want := .waits }, .busy)
    else (s.setOp { o with done := true }, match x with
      | some c => .cause c
      | none => .ok (sget 0 o.vals 0).toNat)

/-- An access that makes what it belongs to wait, where it has to wait itself. -/
def State.ask (s : State) (u : User) (pl : Place) (va n : Nat) (act : Act) : State × Res :=
  let g := pageTarget s u.ctx (BitVec.ofNat 64 va)
  match s.access u pl va n act with
  | (t, .busy) => ({ t with want := .waits }, .busy)
  | (t, .remote) => t.askNode g.1 u.ctx g.2 (askReq u.asker va n false act)
  | (t, .fill) =>
    match t.askNode g.1 u.ctx g.2 (askReq u.asker va n true act) with
    | (t, .ok x) =>
      match (t.fillBytes u va n (BitVec.ofNat 128 x)).access u pl va n act with
      | (t, .ok x) => (t, .ok x)
      | (t, .cause x) => (t, .cause x)
      | (t, .park level) => (t, .park level)
      | (t, _) => ({ t with want := .waits }, .busy)
    | r => r
  | r => r

/-- The same by checks 1 and 2 of R263. -/
def State.askChecked (s : State) (u : User) (pl : Place) (va : W64) (n : Nat) (act : Act) : State × Res :=
  if va.toNat ≥ 2 ^ 57 then (s, .cause .outOfRange)
  else if va.toNat % n ≠ 0 && !inRegs u.ctx va.toNat then (s, .cause .misaligned)
  else s.ask u pl va.toNat n act

/-- Answers that have been used up go. -/
def State.dropAnswers (s : State) : State := { s with ops := s.ops.filter (fun o => !(o.kind.asked.isSome && o.done)) }

/-- Requests and answers of what no longer asks go. -/
def State.dropAsked (s : State) (p : Nat → Bool) : State :=
  { s with ops := s.ops.filter (fun o => match o.kind.asked with
    | some (_, r, _) => !p r.lane
    | none => true) }

/-- A caravan has asked another node, and has not yet used the answer. -/
def hasAsked (s : State) (core slot : Nat) : Bool :=
  s.ops.any (fun o => match o.kind.asked with
    | some (_, r, _) => r.lane = asker core slot
    | none => false)

/-- What t was to do waits: the channels know it, and what it wants of another node is asked for. -/
def State.awaits (s t : State) : State :=
  let s := t.chans.foldl (fun s kc =>
    if kc.2.waits = (s.chan kc.1).waits then s else s.setChan kc.1 { s.chan kc.1 with waits := kc.2.waits }) s
  match t.want with
  | .node node c addr r =>
    (s.addDevOp c (.dev node r none) [r]).send (.request (2 ^ 64 + s.nextDev) r.lane node c addr r.w r.sent)
  | _ => s

/-- Do what makes its accesses as one: where one of them has to wait, nothing of it is done yet. The state, and whether it is
done. -/
def State.whole (s : State) (body : State → State) : State × Bool :=
  let t := body s
  if t.want = .nothing then (t.dropAnswers, true) else (s.awaits t, false)

/-! ## The device's own accesses (R112) -/

/-- The device reads n ≤ 16 bytes of a context's memory at SYSTEM scope (R112); none where the access fails. -/
def State.devRead (s : State) (c va n : Nat) : State × Option Nat :=
  match s.ask (User.device c) (.home true) va n .rd with
  | (s, .ok x) => (s, some x)
  | (s, _) => (s, none)

/-- The device writes n ≤ 16 bytes: true when it is done. -/
def State.devWrite (s : State) (c va n x : Nat) : State × Bool :=
  match s.ask (User.device c) (.home true) va n (.wr (BitVec.ofNat 128 x)) with
  | (s, .ok _) => (s, true)
  | (s, _) => (s, false)

/-- n·k bytes in pieces of k, upward; stops at the first that fails. -/
def State.devReads (s : State) (c va k : Nat) : Nat → State × Option Nat
  | 0 => (s, some 0)
  | n + 1 =>
    match s.devRead c va k with
    | (s, none) => (s, none)
    | (s, some x) =>
      match s.devReads c (va + k) k n with
      | (s, none) => (s, none)
      | (s, some y) => (s, some (x + 2 ^ (8 * k) * y))

def State.devWrites (s : State) (c va k : Nat) : Nat → Nat → State × Bool
  | 0, _ => (s, true)
  | n + 1, x =>
    match s.devWrite c va k (x % 2 ^ (8 * k)) with
    | (s, false) => (s, false)
    | (s, true) => s.devWrites c (va + k) k n (x / 2 ^ (8 * k))

/-! ## Record queues -/

/-- The record queue of a context: its fault queue or its event queue. -/
def Context.queue (x : Context) (fault : Bool) : RecQueue := if fault then x.faultq else x.eventq
def Context.setQueue (x : Context) (fault : Bool) (q : RecQueue) : Context :=
  if fault then { x with faultq := q } else { x with eventq := q }
def Context.queueVa (x : Context) (fault : Bool) : Nat := if fault then x.faultqVa.toNat else x.evqVa.toNat

/-- The queue lies at another node (R162). -/
def queueAway (s : State) (c : Nat) (fault : Bool) : Bool := !fault && (s.ctx c).evnode != s.dev.nodeid

/-- Write n pieces of k bytes at the queue (R147, R162): a queue at another node is reached under the context's id. -/
def State.queueWrite (s : State) (c : Nat) (fault : Bool) (va k : Nat) : Nat → Nat → State × Bool
  | 0, _ => (s, true)
  | n + 1, x =>
    let y := x % 2 ^ (8 * k)
    match (if queueAway s c fault then
        match s.askNode (s.ctx c).evnode c (BitVec.ofNat 64 va) (askReq 0 va k false (.wr (BitVec.ofNat 128 y))) with
        | (s, .ok _) => (s, true)
        | (s, _) => (s, false)
      else s.devWrite c va k y) with
    | (s, false) => (s, false)
    | (s, true) => s.queueWrite c fault (va + k) k n (x / 2 ^ (8 * k))

def State.setQueue (s : State) (c : Nat) (fault : Bool) (q : RecQueue) : State :=
  s.setCtx c ((s.ctx c).setQueue fault q)

/-- Entries in the ring, as far as CONS is known. -/
def RecQueue.full (q : RecQueue) : Bool := (q.prod - q.cons).toNat ≥ 2 ^ q.log2n

/-- Read CONS (R111, R162); at another node, when the ring seems full. -/
def State.readCons (s : State) (c : Nat) (fault : Bool) : State :=
  let va := (s.ctx c).queueVa fault + 8
  let (s, r) :=
    if !queueAway s c fault then s.devRead c va 8
    else if !((s.ctx c).queue fault).full then (s, none)
    else match s.askNode (s.ctx c).evnode c (BitVec.ofNat 64 va) (askReq 0 va 8 false .rd) with
      | (s, .ok x) => (s, some x)
      | (s, _) => (s, none)
  match r with
  | some x => s.setQueue c fault { (s.ctx c).queue fault with cons := BitVec.ofNat 64 x }
  | none => s

/-- Write OVF, where it is due and the header is reachable (R112). -/
def State.writeOvf (s : State) (c : Nat) (fault : Bool) : State :=
  let q := (s.ctx c).queue fault
  if !q.ovfDue || !q.on then s
  else
    (s.whole (fun s =>
      match s.queueWrite c fault ((s.ctx c).queueVa fault + 28) 4 1 q.ovf.toNat with
      | (s, true) => s.setQueue c fault { (s.ctx c).queue fault with ovfDue := false }
      | (s, false) => s)).1

/-- A record is held: OVF counts it, and is written where the header is reachable (R111, R112). -/
def State.holdRecord (s : State) (c : Nat) (fault : Bool) (bits : Nat) : State :=
  let q := (s.ctx c).queue fault
  (s.setQueue c fault { q with held := q.held ++ [bits], ovf := q.ovf + 1, ovfDue := true }).writeOvf c fault

/-- A write of a queue has failed: a period of holding begins, with RECORD_HELD, unless one is under way (R112). -/
def State.postFails (s : State) (c : Nat) (fault : Bool) (va : Nat) : State :=
  let q := (s.ctx c).queue fault
  let s := s.setQueue c fault { q with failing := true }
  if q.failing || (c = 0 && !fault) then s else s.ctxEvent [0] 0x0001 0x0005 va c

/-- Write one record, then advance PROD (R111, R162): true when both are done. -/
def State.putRecord (s : State) (c : Nat) (fault : Bool) (bits : Nat) : State × Bool :=
  let s := s.readCons c fault
  let q := (s.ctx c).queue fault
  let hdr := (s.ctx c).queueVa fault
  let size := if fault then 64 else 32
  if q.full then (s, false)
  else
    let va := q.base.toNat + size * (q.prod.toNat % 2 ^ q.log2n)
    match s.queueWrite c fault va 16 (size / 16) bits with
    | (s, false) => (s.postFails c fault va, false)
    | (s, true) =>
      match s.queueWrite c fault hdr 8 1 (q.prod + 1).toNat with
      | (s, false) => (s.postFails c fault hdr, false)
      | (s, true) =>
        let s := s.setQueue c fault { (s.ctx c).queue fault with prod := q.prod + 1 }
        if fault && q.notify && q.prod = q.cons then
          (s.ctxEvent [c] 0x0001 0x0004 (q.prod + 1).toNat c, true)
        else (s, true)

/-- Try to post one record: whether it is posted; none while one of its accesses has to wait. -/
def State.tryPost (s : State) (c : Nat) (fault : Bool) (bits : Nat) : State × Option Bool :=
  let (t, ok) := s.putRecord c fault bits
  if t.want = .nothing then (t.dropAnswers, some ok) else (s.awaits t, none)

/-- Post a record, or hold it, or keep it until its accesses need not wait (R111, R112, R162, R379). -/
def State.postRecord (s : State) (p : Post) : State :=
  let x := s.ctx p.ctx
  let q := x.queue p.fault
  if x.st = .free && p.ctx ≠ 0 then s
  else if !q.on then
    if p.ctx = 0 && !p.fault then
      if s.dev.early.length < 1024 then { s with dev := { s.dev with early := s.dev.early ++ [p.bits] } }
      else { s with dev := { s.dev with lost := s.dev.lost + 1 } }
    else s.setQueue p.ctx p.fault { q with held := q.held ++ [p.bits] }
  else if !q.held.isEmpty then s.holdRecord p.ctx p.fault p.bits
  else if !q.waiting.isEmpty then s.setQueue p.ctx p.fault { q with waiting := q.waiting ++ [p.bits] }
  else match s.tryPost p.ctx p.fault p.bits with
    | (s, some true) => s
    | (s, some false) => s.holdRecord p.ctx p.fault p.bits
    | (s, none) => s.setQueue p.ctx p.fault { (s.ctx p.ctx).queue p.fault with waiting := [p.bits] }

/-- The records that wait are posted, oldest first, as far as they need not wait any more; after one that fails, all are
held. -/
def State.postWaiting (s : State) (c : Nat) (fault : Bool) : Nat → State
  | 0 => s
  | n + 1 =>
    let q := (s.ctx c).queue fault
    match q.waiting with
    | [] => s
    | r :: l =>
      if !q.on then s.setQueue c fault { q with held := q.held ++ q.waiting, waiting := [] }
      else match s.tryPost c fault r with
        | (s, none) => s
        | (s, some true) => (s.setQueue c fault { (s.ctx c).queue fault with waiting := l }).postWaiting c fault n
        | (s, some false) =>
          (r :: l).foldl (fun s x => s.holdRecord c fault x) (s.setQueue c fault { (s.ctx c).queue fault with waiting := [] })

/-- Retry held records, oldest first, until one fails or has to wait (R112). -/
def State.retryHeld (s : State) (c : Nat) (fault : Bool) : Nat → State
  | 0 => s
  | n + 1 =>
    let q := (s.ctx c).queue fault
    match q.held with
    | [] => s.setQueue c fault { q with failing := false }
    | r :: _ =>
      if !q.on then s else
      match s.tryPost c fault r with
      | (s, some true) =>
        let q := (s.ctx c).queue fault
        (s.setQueue c fault { q with held := q.held.drop 1 }).retryHeld c fault n
      | (s, _) => s

/-- A queue of a context goes on: what waits, then what is held, then OVF. -/
def State.retryQueue (s : State) (c : Nat) (fault : Bool) : State :=
  let s := s.postWaiting c fault (((s.ctx c).queue fault).waiting.length + 1)
  (s.retryHeld c fault (((s.ctx c).queue fault).held.length + 1)).writeOvf c fault

/-- Both queues of a context retry (R112). -/
def State.retryQueues (s : State) (c : Nat) : State := (s.retryQueue c true).retryQueue c false

/-- Take the oldest record that the device has made and post it. -/
def State.postNext (s : State) : State :=
  match s.posts with
  | [] => s
  | p :: r => { s with posts := r }.postRecord p

end Sys2Proof.Machine
end

