-- ==== Sys2Proof/Machine/Ops.lean ====
section
/-! DEFINITION. The shared operations of the issuing agent: the PC, the mask and the reconvergence stack, taking a trap
(R337 to R346) and leaving one, the check order of R221, parking (R109), the lane procedure (R263), releases and acquires
(R196, R202), barriers (R81). -/

namespace Sys2Proof.Machine

open Host (Outcome)

/-! ## PC -/

namespace State

/-- PC of the issuing agent. -/
def pc (s : State) : W64 := if s.cur.slice then s.me.slice.pc else s.me.pc

def setPc (s : State) (x : W64) : State :=
  if s.cur.slice then s.setMe { s.me with slice := { s.me.slice with pc := x } } else s.setMe { s.me with pc := x }

/-- Go on at the next instruction (R209). -/
def advance (s : State) : State := s.setPc (s.pc + 12)

/-- The user of memory that the issuing agent is (R186). -/
def user (s : State) (op : Nat) : User :=
  { ctx := s.me.ctx, core := some s.cur.core, copy := false, fetch := false, priv := false, op := op, who := some s.cur }

end State

/-! ## Kernels and manifest roles (R42, R55) -/

def State.kernel (s : State) (k : KernelId) : Option Kernel := (s.ctx k.ctx).kernels.find? (fun x => x.kid = k)

def State.setKernel (s : State) (x : Kernel) : State :=
  let c := s.ctx x.kid.ctx
  s.setCtx x.kid.ctx { c with kernels := c.kernels.map (fun y => if y.kid = x.kid then x else y) }

/-- A manifest role entry of a kernel's record. -/
def roleEntry (k : Kernel) (r : Nat) : Nat := field k.record.toNat (512 + 64 * r) 64

/-- Kind, core and member mask of a role (R42). -/
def State.role (s : State) (c : Caravan) (r : Nat) : Nat × Nat × Nat :=
  match s.kernel c.kid with
  | none => (0, 0, 0)
  | some k => let e := roleEntry k r; (field e 0 2, field e 4 3, field e 8 8)

/-! ## Turns (R188, R190, R192, R207, R208) -/

/-- Every lane of an operation has been served. -/
def Op.served (o : Op) : Bool := o.todo.isEmpty && o.remote.isEmpty && o.held.isEmpty

/-- The requests of an operation that are still to be performed: at their channel, at another node, or parked. -/
def undone (s : State) (o : Op) : List Req :=
  o.todo ++ o.remote ++ s.parks.flatMap (fun p => match p.what with
    | .lanes n rs => if n = o.id then rs else []
    | _ => [])

/-- Requests of an operation have still to reach the stages that a later MARK's requests reach (R207). -/
def reaching (s : State) (o : Op) : Bool :=
  !o.done && match o.kind with
    | .copy _ => true
    | .bank _ _ _ => true
    | .matrix m => match m.b with
      | .stream _ _ => true
      | _ => false
    | .rred _ _ _ _ _ _ _ _ _ _ _ sent => !sent
    | .sendTile _ _ _ _ _ _ _ _ sent _ => !sent
    | .coll _ _ _ _ => false
    | _ => !(undone s o).isEmpty

/-- Operation `op` of an agent is held at its core by MARK.PARTY (R208). -/
def State.heldBack (s : State) (a : Agent) (op : Nat) : Bool :=
  !a.slice && (s.cv a.core a.slot).marked.any (fun m => m.2.2.2 ≤ op)

/-- Operation `op` of an agent must wait for one that stands before a MARK of its own, or before that of a member whose marks
were answered with its own (R207, R208). -/
def State.behindMark (s : State) (a : Agent) (op : Nat) : Bool :=
  let c := s.cv a.core a.slot
  !a.slice &&
    (c.marks.any (fun n => n ≤ op && (s.mine a.core a.slot false).any (fun o => o.id < n && reaching s o)) ||
      c.follows.any (fun f => f.1 ≤ op && s.ops.any (fun o => o.core = f.2.1 && !o.slice &&
        (o.cslot = f.2.2.1 || o.cslot = leftSlot f.2.2.1) && o.id < f.2.2.2 && reaching s o)))

/-- An operation makes its accesses in its issuer's program order (R188, R198). -/
def Cls.inOrder : Cls → Bool
  | .CP => false
  | .MX => false
  | .CL => false
  | .fetch => false
  | _ => true

/-- A request keeps its turn: behind an earlier one of its issuer to the same line that is still to be performed (R188), behind
a MARK (R207), or held for a party's marks (R208). -/
def State.waitsTurn (s : State) (u : User) (va : W64) : Bool :=
  match u.who with
  | none => false
  | some a => !u.fetch && (s.heldBack a u.op || s.behindMark a u.op ||
      (s.mine a.core a.slot a.slice).any (fun o => o.id < u.op && o.cls.inOrder &&
        (undone s o).any (fun q => q.va.toNat / 128 = va.toNat / 128)))

/-! ## Operand queues (R89 to R91) -/

/-- Number of entries the reader sees: the landed prefix. -/
def OpQueue.count (q : OpQueue) : Nat := (q.ents.takeWhile (fun e => e.landed)).length

def OpQueue.fresh (closed : Bool) : OpQueue := { ents := [], head := 0, nextSeq := 0, closed := closed, qerr := false }

/-- A close: only what is visible stays; one that is closed already keeps its QERR (R91; log 111). -/
def OpQueue.close (q : OpQueue) (err : Bool) : OpQueue :=
  if q.closed then q else { q with ents := q.ents.takeWhile (fun e => e.landed), closed := true, qerr := err }

/-- Pop one entry (R91). -/
def OpQueue.pop (q : OpQueue) (depth : Nat) : OpQueue :=
  { q with ents := q.ents.drop 1, head := if depth = 0 then 0 else (q.head + 1) % depth }

/-- End the access slice and close its queues (R91, R342). -/
def Caravan.endSlice (c : Caravan) (err : Bool) : Caravan :=
  { c with slice := { c.slice with st := .ended, wait := .none }, queues := c.queues.map (fun q => q.close err) }

/-- The caravan finishes: no lane is left, and the slice that still runs stops (R65, R95, R365; log 99). -/
def Caravan.finish (c : Caravan) : Caravan :=
  let d := if c.slice.st = .none then c else c.endSlice false
  { d with st := .finishing, gone := c.exist, wait := .none, stall := .none }

/-! ## Masks (R62, R63) -/

namespace Caravan

/-- The state to which a wait, a park or a resume returns (R65). -/
def runState (c : Caravan) : CvState := if c.trap.taken then .trapped else .ready

/-- Take lanes out of the active mask and of every stack entry (R63). -/
def removeLanes (c : Caravan) (m : Mask) : Caravan :=
  { c with mask := c.mask &&& ~~~m, stack := c.stack.map (fun e => { e with mask := e.mask &&& ~~~m }) }

def entry (c : Caravan) (i : Nat) : StackEntry := c.stack.getD i { pc := 0, mask := 0 }

/-- The depth below which the stack is frozen (R345). -/
def floor (c : Caravan) : Nat := if c.trap.taken then c.trap.depth else 0

/-- Push a divergent region (R62). -/
def diverge (c : Caravan) (join next target : W64) (taken : Mask) : Caravan :=
  { c with stack := c.stack.take (2 * c.depth) ++ [{ pc := join, mask := c.mask }, { pc := next, mask := c.mask &&& ~~~taken }],
           depth := c.depth + 1, mask := taken, pc := target }

/-- A RECONV at PC x (R62, R345). -/
def reconv (c : Caravan) (x : W64) : Caravan :=
  if c.depth ≤ c.floor then { c with pc := x + 12 } else
  let join := c.entry (2 * (c.depth - 1))
  let pend := c.entry (2 * (c.depth - 1) + 1)
  if join.pc ≠ x then { c with pc := x + 12 }
  else if pend.mask ≠ 0 then
    { c with mask := pend.mask, pc := pend.pc,
             stack := c.stack.set (2 * (c.depth - 1) + 1) { pend with mask := 0 } }
  else { c with mask := join.mask, depth := c.depth - 1, pc := x + 12, stack := c.stack.take (2 * (c.depth - 1)) }

/-- With an empty mask, act as though RECONV had been executed at the top region's join PC, while the mask stays empty
and regions are open (R63). -/
def popEmpty (c : Caravan) : Nat → Caravan
  | 0 => c
  | n + 1 =>
    if c.mask = 0 && c.depth > c.floor then (c.reconv (c.entry (2 * (c.depth - 1))).pc).popEmpty n else c

/-- Every lane is killed; the caravan finishes as for exit (R344, R346). -/
def killAll (c : Caravan) : Caravan :=
  { c.finish with mask := 0, depth := 0, stack := [], trap := { c.trap with tmask := 0, dmask := 0 } }

/-- CARAVAN register. -/
def ordReg (c : Caravan) : Nat := c.ordinal.toNat

end Caravan

/-! ## Causes (R336) -/

def LaneCause.code : LaneCause → Nat
  | .permission => 0x10
  | .extentGone => 0x11
  | .dataUncorrectable => 0x12
  | .outOfRange => 0x13
  | .misaligned => 0x14
  | .queueClosed => 0x15
  | .queueFaulted => 0x16
  | .executorFault => 0x17

def CvCause.code : CvCause → Nat
  | .illegalEncoding => 1
  | .privilege => 2
  | .illegalConvergence => 3
  | .resource => 4
  | .tileState => 5
  | .software => 6
  | .breakpoint => 7

/-- The lowest cause recorded (R336). -/
def lowestCause (old : BitVec 8) (new : Nat) : BitVec 8 :=
  if old = 0 || new < old.toNat then BitVec.ofNat 8 new else old

/-- Record a lane cause (R337). -/
def Caravan.recordLane (c : Caravan) (pc : W64) (L : Nat) (cause : LaneCause) (va : W64) : Caravan :=
  let va := match cause with
    | .queueClosed => 0
    | .queueFaulted => 0
    | .executorFault => 0
    | _ => va
  let t := c.trap
  let found := t.table.findIdx (fun p => p.1 = pc)
  let e := min found 31
  let t := if found < t.table.length || t.npc = 32 then t else { t with table := t.table ++ [(pc, va)], npc := t.npc + 1 }
  let t := { t with laneBytes := sset 0 t.laneBytes L (BitVec.ofNat 8 (8 * e + (cause.code - 0x10))),
                    laneVas := sset 0 t.laneVas L (va.setWidth 16),
                    dmask := t.dmask ||| laneBit L,
                    summary := lowestCause t.summary cause.code }
  { c with trap := t }.removeLanes (laneBit L)

/-- A deferred trap is pending (R338). -/
def Caravan.pending (c : Caravan) : Bool := !c.trap.taken && c.trap.dmask ≠ 0

/-- TRAPREC (R343), 0 when PRIVAREA is 0. -/
def trapSlotVa (s : State) (k slot : Nat) : Nat :=
  let a := (s.ctx (s.cv k slot).ctx).privarea.toNat
  if a = 0 then 0 else (a + 3 * 2 ^ 34 + 16384 * (16 * k + slot)) % 2 ^ 57

/-! ## The trap record in memory (R340, R341, R344) -/

/-- Put an x of n bytes at byte o of a number. -/
def at_ (o x : Nat) : Nat := x * 2 ^ (8 * o)

/-- Mask words and summary word (R30). -/
def maskBytes (m : Mask) : Nat := m.toNat + 2 ^ 1024 * (summaryOf m).toNat

def popcount (m : Mask) : Nat := (lanesBelow 1024 m).length

/-- Header (R341). -/
def TrapRec.header (t : TrapRec) : Nat :=
  t.summary.toNat + 2 ^ 8 * t.ccause.toNat + 2 ^ 16 * t.code.toNat + 2 ^ 32 * t.depth + 2 ^ 37 * t.npc +
    (if t.taken then 2 ^ 43 else 0) + 2 ^ 44 * t.twhy.toNat + 2 ^ 48 * t.scause.toNat + 2 ^ 64 * t.rpc.toNat +
    2 ^ 128 * t.cpc.toNat + 2 ^ 192 * t.spc.toNat + 2 ^ 256 * popcount t.dmask

/-- The record of 4,864 bytes as a number (R340). -/
def TrapRec.image (t : TrapRec) : Nat :=
  t.header + at_ 0x40 (maskBytes t.tmask) + at_ 0x100 (maskBytes t.dmask) +
    (t.table.zipIdx.foldl (fun a p => a + at_ (0x1C0 + 16 * p.2) (p.1.1.toNat + 2 ^ 64 * p.1.2.toNat)) 0) +
    (t.laneBytes.foldl (fun a p => a + at_ (0x3C0 + p.1) p.2.toNat) 0) +
    (t.laneVas.foldl (fun a p => a + at_ (0x7C0 + 2 * p.1) p.2.toNat) 0)

/-- Stack entries 0 .. n−1 in the 144-byte layout of R30. -/
def stackImage (l : List StackEntry) : Nat :=
  l.zipIdx.foldl (fun a p =>
    a + at_ (144 * p.2) (p.1.pc.toNat + 2 ^ 64 * (summaryOf p.1.mask).toNat + 2 ^ 128 * p.1.mask.toNat)) 0

/-- Plain writes of a caravan, in pieces of 16 bytes; where the first piece that fails or waits stands, and how. -/
def State.cvWrites (s : State) (u : User) (va : Nat) : Nat → Nat → State × Option (Nat × Res)
  | 0, _ => (s, none)
  | n + 1, x =>
    if s.waitsTurn u (BitVec.ofNat 64 va) then ({ s with want := .waits }, some (va, .busy))
    else match s.ask u .plain va 16 (.wr (BitVec.ofNat 128 x)) with
      | (s, .ok _) => s.cvWrites u (va + 16) n (x / 2 ^ 128)
      | (s, r) => (s, some (va, r))

/-! ## Trap events and finishing -/

/-- TRAP_UNHANDLED or TRAP_DOUBLE (R347). -/
def State.trapEvent (s : State) (k slot typ : Nat) (pc : W64) (second : Nat) : State :=
  let c := s.cv k slot
  s.event [c.ctx] (0x5000 + k) typ
    (pc.toNat + 2 ^ 64 * c.trap.summary.toNat + 2 ^ 72 * second + 2 ^ 80 * c.ordReg)

/-- The parks of a caravan go, with the lanes that its operations held for them, its place in line for granules, and what it has asked
other nodes (R344, R346). -/
def State.dropParks (s : State) (k slot : Nat) : State :=
  let x := s.core k
  let s := (s.setCore k { x with accq := x.accq.filter (fun w => w.slot ≠ slot) }).dropAsked (fun n => n = asker k slot)
  { s with parks := s.parks.filter (fun p => !(p.srckind = 0 && p.core = k && p.cslot = slot)),
           ops := s.ops.map (fun o => if o.core = k && o.cslot = slot && !o.slice then { o with held := [] } else o) }

/-- R346: a cause raised while the caravan is TRAPPED, by the instruction at `pc`, or a failed record write. -/
def State.doubleTrap (s : State) (k slot : Nat) (pc : W64) (second : Nat) : State :=
  let s := s.trapEvent k slot 0x51 pc second
  (s.setCv k slot (s.cv k slot).killAll).dropParks k slot

/-- Post the fault records of a park: one for each pair of mask word and faulted region (R110), under one PARKID, which is
the sequence number of the first; `lanes`: lane, VA, level. -/
def State.postFaults (s : State) (c kind id : Nat) (pc : W64) (akind : Nat) (lanes : List (Nat × Nat × Nat)) : State × W32 :=
  let park := s.nextFaultSeq kind id
  let key (p : Nat × Nat × Nat) : Nat × Nat × Nat := (p.1 / 32, p.2.2, p.2.1 / 2 ^ (12 + 9 * (p.2.2 - 1)))
  let groups := ((List.range 32).map (fun w => (lanes.filter (fun p => p.1 / 32 = w)).map key)).flatten.eraseDups
  (groups.foldl (fun s g =>
    let ls := lanes.filter (fun p => key p = g)
    let m := ls.foldl (fun a p => a ||| (1#32 <<< (p.1 % 32))) 0
    s.faultRecord c kind id m g.1 pc.toNat park akind g.2.1 0 0 (ls.headD (0, 0, 0)).2.1) s, park)

/-- SRCID of a core source (R110); a departed caravan's operation keeps its slot's. -/
def coreSrc (k slot : Nat) : Nat := k + 1024 * (slot % 16)

/-- Park the caravan of core k, slot `slot`; of one that has finished, the access alone (R65, R109). -/
def State.parkCaravan (s : State) (k slot : Nat) (pc : W64) (akind : Nat) (lanes : List (Nat × Nat × Nat)) (what : ParkWhat) :
    State :=
  let c := s.cv k slot
  let (s, id) := s.postFaults c.ctx 0 (coreSrc k slot) pc akind lanes
  let p : Park := { id := id, srckind := 0, srcid := coreSrc k slot, ctx := c.ctx, core := k, cslot := slot, what := what }
  let s := { s with parks := s.parks ++ [p] }
  if c.st = .finishing || c.st = .absent then s else s.setCv k slot { s.cv k slot with st := .parked, wait := .none }

/-- Step 3 of R344: the record and the stack copy are written as plain writes of the caravan; an absent page parks it,
with KIND WRITE and the PC of TRAPBASE; any other failure is a double trap. Where they wait at a channel or for another node, the
caravan issues nothing until they are made. -/
def State.writeTrapRecord (s : State) (k slot : Nat) : State :=
  let c := s.cv k slot
  let u : User := { ctx := c.ctx, core := some k, copy := false, fetch := false, priv := false, op := devOp,
                    who := some { core := k, slot := slot, slice := false } }
  let va := trapSlotVa s k slot
  match s.whole (fun s =>
    let (s, r) := match s.cvWrites u va 304 c.trap.image with
      | (s, none) => s.cvWrites u (va + 0x1300) (18 * c.trap.depth) (stackImage (c.stack.take (2 * c.trap.depth)))
      | r => r
    let s := s.setCv k slot { s.cv k slot with stall := .none }
    match r with
    | none => s
    | some (a, .park level) => s.parkCaravan k slot (s.ctx c.ctx).trapbase 1 [(lowest c.width c.mask, a, level)] .trapWrite
    | some (_, .cause x) => s.doubleTrap k slot (s.cv k slot).pc x.code
    | some _ => s) with
  | (s, true) => s
  | (s, false) => s.setCv k slot { s.cv k slot with stall := .record }

/-- Take a trap (R344): `why` and `rpc` by R338 and R339; `ccause`, `cpc`, `code`: the caravan cause, or 0. -/
def State.takeTrap (s : State) (k slot : Nat) (why : Nat) (rpc : W64) (ccause : Nat) (cpc : W64) (code : BitVec 16) : State :=
  let c := s.cv k slot
  if c.trap.taken then s.doubleTrap k slot c.pc ccause else
  let x := s.ctx c.ctx
  let t := { c.trap with taken := true, twhy := BitVec.ofNat 4 why, rpc := rpc, tmask := c.mask, depth := c.depth,
                         ccause := BitVec.ofNat 8 ccause, cpc := cpc, code := code,
                         summary := if ccause = 0 then c.trap.summary else lowestCause c.trap.summary ccause }
  let s := s.setCv k slot { c with trap := t }
  if x.trapbase = 0 || x.privarea = 0 then
    let s := s.trapEvent k slot 0x50 rpc 0
    (s.setCv k slot (s.cv k slot).killAll).dropParks k slot
  else
    (s.setCv k slot { c with trap := t, st := .trapped, mask := t.tmask ||| t.dmask, pc := x.trapbase, wait := .none,
                             stall := .none }).writeTrapRecord k slot

/-- A caravan's wait is abandoned: it goes on as READY, and out of the line for granules (R65, R78). -/
def State.abandonWait (s : State) (k slot : Nat) : State :=
  let x := s.core k
  let s := (s.setCore k { x with accq := x.accq.filter (fun w => w.slot ≠ slot) }).dropAsked (fun n => n = asker k slot)
  let c := s.cv k slot
  s.setCv k slot { c with st := c.runState, wait := .none }

/-- The point of R338 at which a BLOCKED caravan stands, by its TWHY. -/
def Wait.point : Wait → Option Nat
  | .barrier _ _ => some 3
  | .waitc _ _ _ _ _ _ => some 4
  | _ => Option.none

/-- After an instruction, or when lanes have left: R63 for an empty mask, the full PC table of R337, the trap or the end
that follows (R65, R338, R345). -/
def State.settle (s : State) (k slot : Nat) : State :=
  let c := s.cv k slot
  match (if c.st = .blocked && c.mask ≠ 0 && c.pending then c.wait.point else none) with
  | some why => s.takeTrap k slot why c.pc 0 0 0
  | none =>
  let s := if c.mask = 0 && (c.st = .blocked || c.st = .sleeping) then s.abandonWait k slot else s
  let c := s.cv k slot
  if c.st != .ready && c.st != .trapped then s
  else if c.mask ≠ 0 then
    if c.pending && c.trap.npc ≥ 32 then s.takeTrap k slot 6 c.pc 0 0 0 else s
  else
    let d := c.popEmpty 17
    let s := s.setCv k slot d
    if d.mask ≠ 0 then
      if d.pending && d.trap.npc ≥ 32 then s.takeTrap k slot 6 d.pc 0 0 0 else s
    else if d.pending then s.takeTrap k slot 2 d.pc 0 0 0
    else s.setCv k slot d.finish

/-- Record lane causes of the instruction at `pc`, in ascending lane order: of a lane at most one until RESUME, of one that is gone
none. While TRAPPED, a double trap, with `dpc` for the handler's PC (R234, R337, R346, R347). -/
def State.raiseLanes (s : State) (k slot : Nat) (pc dpc : W64) (l : List (Nat × LaneCause × W64)) : State :=
  let c := s.cv k slot
  let out := if c.trap.taken then c.gone else c.gone ||| c.trap.dmask
  match l.filter (fun p => !out.getLsbD p.1) with
  | [] => s
  | (L, x, va) :: r =>
    if c.st = .finishing || c.st = .absent then s
    else if c.trap.taken then s.doubleTrap k slot dpc x.code
    else s.setCv k slot (((L, x, va) :: r).foldl (fun c p => c.recordLane pc p.1 p.2.1 p.2.2) c)

/-- The same cause for every lane of a mask (R336). -/
def State.raiseAll (s : State) (k slot : Nat) (pc dpc : W64) (m : Mask) (x : LaneCause) (va : W64) : State :=
  s.raiseLanes k slot pc dpc ((lanesBelow (s.cv k slot).width m).map (fun L => (L, x, va)))

/-! ## The access slice's traps and parks -/

/-- A trap of the slice at an instruction's PC (R342). -/
def State.sliceTrapAt (s : State) (k slot : Nat) (pc : W64) (cause : Nat) : State :=
  let c := s.cv k slot
  s.setCv k slot { c.endSlice true with trap := { c.trap with scause := BitVec.ofNat 8 cause, spc := pc } }

def State.sliceTrap (s : State) (k slot : Nat) (cause : Nat) : State :=
  s.sliceTrapAt k slot (s.cv k slot).slice.pc cause

/-- Park the access slice alone (R94, R109): SRCKIND ACCESS. A load of a slice that has ended parks too (R95). -/
def State.parkSlice (s : State) (k slot : Nat) (pc : W64) (akind va level : Nat) (what : ParkWhat) : State :=
  let c := s.cv k slot
  let (s, id) := s.postFaults c.ctx 1 (coreSrc k slot) pc akind [(0, va, level)]
  let p : Park := { id := id, srckind := 1, srcid := coreSrc k slot, ctx := c.ctx, core := k, cslot := slot, what := what }
  let s := { s with parks := s.parks ++ [p] }
  let c := s.cv k slot
  if c.slice.st = .ended then s else s.setCv k slot { c with slice := { c.slice with st := .parked, wait := .none } }

/-! ## Raising for the issuing agent -/

/-- A caravan cause of the issuing caravan, precise; of a slice, its trap (R221, R339). -/
def State.raiseCv (s : State) (x : CvCause) (code : BitVec 16 := 0) : State :=
  if s.cur.slice then s.sliceTrap s.cur.core s.cur.slot x.code
  else
    let rpc := match x with
      | .software => s.pc + 12
      | .breakpoint => s.pc + 12
      | _ => s.pc
    s.takeTrap s.cur.core s.cur.slot 1 rpc x.code s.pc code

/-- A lane cause for every active lane of the issuing caravan; of a slice, its trap (R94, R247). -/
def State.raiseEvery (s : State) (x : LaneCause) (va : W64) : State :=
  if s.cur.slice then s.sliceTrap s.cur.core s.cur.slot x.code
  else s.raiseAll s.cur.core s.cur.slot s.pc s.pc s.me.mask x va

/-- TILE_STATE, with DATA_UNCORRECTABLE in the lane bytes when the tile has ERR (R86, R339). -/
def State.raiseTile (s : State) (err : Bool) : State :=
  if s.cur.slice || !err || s.me.trap.taken then s.raiseCv .tileState
  else
    let c := s.me
    let lb := (lanesBelow c.width c.mask).foldl (fun a L => sset 0 a L (2 : BitVec 8)) c.trap.laneBytes
    (s.setMe { c with trap := { c.trap with laneBytes := lb } }).raiseCv .tileState

/-- The issuing agent must wait: BLOCKED (R64, R93), or at a barrier, a WAITC or an empty queue the pending trap is taken
(R65, R338); `why`: that point's TWHY, or 0. -/
def State.block (s : State) (w : Wait) (why : Nat) : State :=
  if s.cur.slice then s.setMe { s.me with slice := { s.me.slice with st := .blocked, wait := w } }
  else if why ≠ 0 && s.me.pending then s.takeTrap s.cur.core s.cur.slot why s.pc 0 0 0
  else s.setMe { s.me with st := .blocked, wait := w }

/-- An instruction that makes its accesses as one: where one of them has to wait, nothing of it is done and it is issued again (R134,
R149). -/
def State.orAway (s : State) (body : State → State) : State :=
  match s.whole body with
  | (t, true) => t
  | (t, false) => t.block .away 0

/-! ## The check order of R221 -/

/-- Opcodes that an access slice executes (R94). -/
def sliceMay : Instr → Bool
  | .smov _ => true
  | .smovi _ => true
  | .sadd _ => true
  | .ssub _ => true
  | .smul _ => true
  | .sand _ => true
  | .sor _ => true
  | .sxor _ => true
  | .sshl _ => true
  | .sshr _ => true
  | .sset _ => true
  | .ssel _ => true
  | .sld _ => true
  | .sst _ => true
  | .bra f => modBits f.m 1 1 = 1
  | .brx _ => true
  | .afor _ => true
  | .aend _ => true
  | .await _ => true
  | .ldq _ => true
  | .qpush _ => true
  | .cpl _ => true
  | .cpt _ => true
  | .cpq _ => true
  | .cpo _ => true
  | .tdef _ => true
  | .tfree _ => true
  | .waitc _ => true
  | .exitI f => modBits f.m 0 2 = 0
  | _ => false

/-- Opcodes that only an access slice executes (R90, R223). -/
def sliceOnly : Instr → Bool
  | .afor _ => true
  | .aend _ => true
  | .qpush _ => true
  | .await _ => true
  | .ldq _ => true
  | .cpq _ => true
  | _ => false

/-- Check 7 of R221 for one operand: V registers, queues, roles, .xword (R68, R89, R215, R217). -/
def operandFits (s : State) : Operand → Bool
  | .v r p _ => r.toNat < s.me.nregs && !(p = 14 && s.me.width = 32)
  | .queue q => q.toNat < s.me.nq
  | .role r _ => (s.role s.me r.toNat).1 ≠ 0
  | _ => true

/-- An operand that is "—" names no register (R228). -/
def usesOperand (o : Operand) : Bool := !o.isNone

def limitsOk (s : State) (i : Instr) (f : Fields) : Bool :=
  let rest := operandFits s f.a && operandFits s f.b && operandFits s f.d
  match i with
  | .region f => (f.d.rangeRegs ++ f.a.rangeRegs ++ f.b.rangeRegs).all (fun r => r < s.me.nregs)
  | .cvtdx f => rest && (modBits f.m 9 1 = 1 || f.d.vreg + 1 < s.me.nregs)
  | .msv f => rest && f.d.vreg + 2 < s.me.nregs && f.a.vreg + 2 < s.me.nregs
  | .mmas f => rest && modBits f.m 6 3 < s.me.nq
  | _ => rest

/-- Issue a core instruction by R221 and R211: the checks in order, then the guard, then the instruction's own effect, and
R63 after it. `priv`: only a privileged context may issue it; `once`: it executes once for the caravan. -/
def issue (i : Instr) (f : Fields) (priv once : Bool) (body : State → State) (s : State) : Outcome State Fault Refusal :=
  .next <|
    if s.cur.slice then
      if !legal i || !sliceMay i || f.g.pred ≠ 63 then s.raiseCv .illegalEncoding
      else if priv && !s.myCtx.priv then s.raiseCv .privilege
      else if !limitsOk s i f then s.raiseCv .resource
      else if f.g.neg then s.advance
      else body s
    else if !legal i || sliceOnly i then s.raiseCv .illegalEncoding
    else if priv && !s.myCtx.priv then s.raiseCv .privilege
    else if !limitsOk s i f then s.raiseCv .resource
    else if (if once then !s.caravanGuard f else s.part f = 0) then s.advance
    else (body s).settle s.cur.core s.cur.slot

/-! ## Outstanding operations -/

/-- An operation of this kind writes what its destination operand names (R72, R212). -/
def OpKind.hasDest : OpKind → Bool
  | .loadV _ _ _ => true
  | .loadR _ _ _ _ => true
  | .loadS _ _ _ _ => true
  | .tld _ => true
  | .tst _ => true
  | .ldq _ _ _ _ => true
  | .matrix _ => true
  | .bank _ (.xread _ _) _ => true
  | .remote _ _ _ _ _ returns => returns
  | .rred _ _ _ _ _ _ _ _ _ _ _ _ => true
  | .copy c => match c.kind with
    | .cpt _ _ _ _ => true
    | .cpq _ _ _ _ _ => true
    | _ => false
  | _ => false

/-- Add an operation of the issuing agent (R72, R73); its number is the old `nextOp`. One that writes no destination leaves its token
clear (R212). -/
def State.addOp (s : State) (f : Fields) (cls : Cls) (kind : OpKind) (todo remote : List Req) (held : List Nat)
    (vals : List (Nat × BitVec 128)) : State :=
  let o : Op := { id := s.nextOp, core := s.cur.core, cslot := s.cur.slot, slice := s.cur.slice, ctx := s.me.ctx, kid := s.me.kid,
                  cls := cls, tok := if f.h.setv && kind.hasDest then some f.h.setk.toNat else none, pc := s.pc, kind := kind,
                  todo := todo, remote := remote, held := held, vals := vals, done := false }
  { s with nextOp := s.nextOp + 1, ops := s.ops ++ [o] }

/-- An earlier load of the issuing agent has not returned, or an earlier store of it is not performed (R196, R309). -/
def State.memPending (s : State) : Bool :=
  (s.mine s.cur.core s.cur.slot s.cur.slice).any (fun o => !o.done && match o.cls, o.kind with
    | .LD, _ => true
    | .ST, .tst _ => true
    | .ST, _ => !o.served
    | _, _ => false)

/-- An earlier load of the issuing agent is not performed (R195). -/
def State.readPending (s : State) : Bool :=
  (s.mine s.cur.core s.cur.slot s.cur.slice).any (fun o => o.cls = .LD && !o.done && !o.served)

/-! ## The lane procedure (R263) -/

/-- What has become of the lanes so far. -/
structure Served where
  s      : State
  vals   : List (Nat × BitVec 128)
  causes : List (Nat × LaneCause × W64)
  parks  : List (Req × Nat)
  todo   : List Req
  remote : List Req
  deriving Repr

def Req.place (r : Req) : Place := if r.deep then .deep else if r.home then .home r.sys else .plain

/-- Alignment of a request: free metadata is named by its sector (R272). -/
def Req.align (r : Req) : Nat :=
  match r.act with
  | .mdrd => 32
  | .mdwr _ => 32
  | _ => r.w

/-- The access that a request asks for. -/
def State.makeReq (s : State) (u : User) (r : Req) (act : Act) : State × Res :=
  s.checkedAccess { u with priv := r.priv } r.place r.va r.w r.align act

def Act.isRead : Act → Bool
  | .rd => true
  | _ => false
def Act.isAtomic : Act → Bool
  | .rmw _ _ _ _ => true
  | _ => false

/-- A strong write made while an earlier strong access of its caravan is still to be performed: it takes its place, and is withheld
from other agents' reads (R192). It waits where what it replaces cannot be seen. -/
def State.withheldWrite (s : State) (u : User) (a : Agent) (r : Req) : State × Res :=
  match s.makeReq u r .rd with
  | (t, .busy) => (t, .busy)
  | (_, .ok old) =>
    if anyWithheld s u.who (s.ctx u.ctx).asid r.va.toNat r.w then (s, .busy)
    else match s.makeReq u r r.act with
      | (t, .ok x) => ({ t with veils := s.veils }.veil a u.op (s.ctx u.ctx).asid r.va.toNat old r.w, .ok x)
      | (_, .remote) => (s, .busy)
      | x => x
  | _ => (s, .busy)

/-- A strong access of a caravan under CAUSAL (R192): a read and an atomic keep their turn behind the earlier strong accesses that
return a value, an atomic behind every one; a write is withheld while any of them is to be performed. -/
def State.causal (s : State) (u : User) (a : Agent) (r : Req) : State × Res :=
  if !strongBefore s a u.op (fun _ => true) then s.makeReq u r r.act
  else match r.act with
    | .wr _ => if r.place = .plain || strongBefore s a u.op Act.isAtomic then (s, .busy) else s.withheldWrite u a r
    | .rd => if strongBefore s a u.op (fun x => x.isRead || x.isAtomic) then (s, .busy) else s.makeReq u r r.act
    | _ => (s, .busy)

/-- One request: a load, store or atomic waits while it must keep its turn. -/
def State.perform (s : State) (u : User) (r : Req) : State × Res :=
  if s.waitsTurn u r.va then (s, .busy)
  else match u.who with
    | some a => if r.strong && !a.slice && !(s.ctx u.ctx).weak then s.causal u a r else s.makeReq u r r.act
    | none => s.makeReq u r r.act

/-- A write keeps its turn behind a lower lane's of its instruction to the same line that is still to be performed (R190). -/
def Served.behindLane (a : Served) (op : Nat) (r : Req) : Bool :=
  let before (q : Req) : Bool := q.lane < r.lane && q.va.toNat / 128 = r.va.toNat / 128
  r.act.writes && (a.todo.any before || a.remote.any before || a.parks.any (fun p => before p.1) ||
    match a.s.op op with
    | some o => o.remote.any before
    | none => false)

/-- A lane fails: it performs nothing further. `zero`: an uncorrectable read's destination becomes zero; any other keeps what it holds
(R126, R263). -/
def Served.fail (a : Served) (zero : Bool) (r : Req) (c : LaneCause) : Served :=
  let v := a.vals.filter (fun p => p.1 ≠ r.lane)
  { a with causes := a.causes ++ [(r.lane, c, r.va)],
           vals := if zero && c = .dataUncorrectable && !r.act.isAtomic then sput v r.lane 0 else v,
           parks := a.parks.filter (fun p => p.1.lane ≠ r.lane), todo := a.todo.filter (fun q => q.lane ≠ r.lane),
           remote := a.remote.filter (fun q => q.lane ≠ r.lane) }

/-- Serve one request. -/
def Served.one (u : User) (zero : Bool) (a : Served) (r : Req) : Served :=
  if a.causes.any (fun x => x.1 = r.lane) then a
  else if a.behindLane u.op r then { a with todo := a.todo ++ [r] }
  else match a.s.perform u r with
    | (s, .ok x) =>
      { a with s := s, vals := sput a.vals r.lane (sget 0 a.vals r.lane ||| (BitVec.ofNat 128 x <<< (8 * r.off))) }
    | (s, .cause c) => { a with s := s }.fail zero r c
    | (s, .park level) => { a with s := s, parks := a.parks ++ [(r, level)] }
    | (s, .remote) => { a with s := s, remote := a.remote ++ [r] }
    | (s, .fill) => { a with s := s, remote := a.remote ++ [{ r with fill := true }] }
    | (s, .busy) => { a with s := s, todo := a.todo ++ [r] }

/-- Serve the requests of one lane. With several (R267), none is performed where one of them fails. -/
def serveLane (u : User) (zero : Bool) (a : Served) (rs : List Req) : Served :=
  match (if rs.length ≤ 1 then none else rs.findSome? (fun r => match a.s.perform u r with
    | (t, .cause c) => some (r, t, c)
    | _ => none)) with
  | some (r, t, c) => { a with s := t }.fail zero r c
  | none => rs.foldl (Served.one u zero) a

/-- Serve lanes in ascending order (R190); `vals`: what the operation has read already. -/
def serve (s : State) (u : User) (zero : Bool) (vals : List (Nat × BitVec 128)) (lanes : List (List Req)) : Served :=
  lanes.foldl (serveLane u zero) { s := s, vals := vals, causes := [], parks := [], todo := [], remote := [] }

/-- An uncorrectable read of a lane of this kind writes zero (R126, R247). -/
def OpKind.zeroes : OpKind → Bool
  | .loadS _ _ _ _ => false
  | _ => true

/-- Messages of the lanes whose access is another node's, or whose line's bytes are (R147, R149). -/
def State.sendRequests (s : State) (op c : Nat) (rs : List Req) : State :=
  rs.foldl (fun s r => let t := pageTarget s c r.va; s.send (.request op r.lane t.1 c t.2 r.w r.sent)) s

/-- The lanes that record a cause met by a request of an operation (R247, R263, R269). -/
def causeLanes (c : Caravan) (kind : OpKind) (L : Nat) : List Nat :=
  match kind with
  | .loadR _ _ _ part => lanesBelow c.width part
  | .loadS _ _ _ _ => lanesBelow c.width c.mask
  | .storeS => lanesBelow c.width c.mask
  | .bank _ _ _ => lanesBelow c.width c.mask
  | _ => [L]

/-- The lanes that a parked request of an operation faults (R109, R247, R269). -/
def parkLanes (c : Caravan) (kind : OpKind) (L : Nat) : List Nat :=
  match kind with
  | .loadR _ _ _ part => lanesBelow c.width part
  | .bank _ _ _ => [lowest c.width c.mask]
  | _ => [L]

/-- Insert by lane, before the entries of higher lanes. -/
def insertLane {α : Type} (x : Nat × α) : List (Nat × α) → List (Nat × α)
  | [] => [x]
  | y :: r => if x.1 < y.1 then x :: y :: r else y :: insertLane x r

/-- The lanes of an operation that a park held are held no more. -/
def State.unhold (s : State) (id : Nat) : State :=
  match s.op id with
  | some o => s.setOp { o with held := [] }
  | none => s

/-- What the requests that did not complete leave behind: causes at the instruction's PC, and a park; a slice's trap, unless the
slice has ended, or its park (R94, R109, R263, R337, R342). `dpc`: the PC of a double trap. -/
def State.afterServe (s : State) (k slot : Nat) (slice : Bool) (op : Nat) (pc dpc : W64) (kind : OpKind) (a : Served) : State :=
  if slice then
    match a.causes, a.parks with
    | (_, c, _) :: _, _ => (if (s.cv k slot).slice.st = .ended then s else s.sliceTrapAt k slot pc c.code).unhold op
    | [], (r, level) :: _ => s.parkSlice k slot pc r.act.kind r.va.toNat level (.lanes op (a.parks.map (·.1)))
    | [], [] => s
  else
    let c := s.cv k slot
    let s := s.raiseLanes k slot pc dpc (a.causes.flatMap (fun x => (causeLanes c kind x.1).map (fun L => (L, x.2))))
    match a.parks with
    | [] => s
    | (r, _) :: _ =>
      -- killed by a double trap, it parks no more
      if (s.cv k slot).st = .finishing && c.st != .finishing then s.unhold op
      else s.parkCaravan k slot pc r.act.kind
        (a.parks.flatMap (fun p => (parkLanes c kind p.1.lane).map (fun L => (L, p.1.va.toNat, p.2))))
        (.lanes op (a.parks.map (·.1)))

/-- An addressed instruction of the issuing caravan: serve its lanes, count it, go on, then record what failed (R263,
R264). `bad`: lanes that have failed a check already. -/
def State.laneOp (s : State) (f : Fields) (cls : Cls) (kind : OpKind) (bad : List (Nat × LaneCause × W64))
    (lanes : List (List Req)) : State :=
  let op := s.nextOp
  let pc := s.pc
  let a := serve s (s.user op) kind.zeroes [] lanes
  let a := { a with causes := bad.foldr insertLane a.causes }
  let s := a.s.addOp f cls kind a.todo a.remote (a.parks.map (fun p => p.1.lane)) a.vals
  let s := s.sendRequests op s.me.ctx a.remote
  s.advance.afterServe s.cur.core s.cur.slot false op pc pc kind a

/-- One access of the issuing agent, as its lowest active lane's (R247): a failure is the lane cause of every active
lane, or the slice's trap; a park is the caravan's, or the slice's alone. -/
def State.oneOp (s : State) (f : Fields) (cls : Cls) (kind : OpKind) (r : Req) : State :=
  let op := s.nextOp
  let pc := s.pc
  match s.perform (s.user op) r with
  | (s, .ok x) => (s.addOp f cls kind [] [] [] [(r.lane, BitVec.ofNat 128 x)]).advance
  | (s, .busy) => (s.addOp f cls kind [r] [] [] []).advance
  | (s, .remote) => ((s.addOp f cls kind [] [r] [] []).sendRequests op s.me.ctx [r]).advance
  | (s, .fill) =>
    ((s.addOp f cls kind [] [{ r with fill := true }] [] []).sendRequests op s.me.ctx [{ r with fill := true }]).advance
  | (s, .cause c) =>
    if s.cur.slice then s.sliceTrap s.cur.core s.cur.slot c.code
    else s.advance.raiseAll s.cur.core s.cur.slot pc pc s.me.mask c r.va
  | (s, .park level) =>
    if s.cur.slice then s.parkSlice s.cur.core s.cur.slot pc r.act.kind r.va.toNat level .sliceReissue
    else (s.addOp f cls kind [] [] [r.lane] []).advance.parkCaravan s.cur.core s.cur.slot pc r.act.kind
      [(r.lane, r.va.toNat, level)] (.lanes op [r])

/-! ## Releases and acquires (R196, R197, R202) -/

/-- SYSTEM: the home L2s and the memory-side caches write the dirty lines of the context's HOME 4 and HOME 5 pages to
their node (R196). -/
def State.flushFabric (s : State) (c : Nat) : State :=
  let asid := (s.ctx c).asid
  let s := (List.range 8).foldl (fun s d => s.flushL2 d (fun l => l.asid = asid && (l.home = 4 || l.home = 5) && l.dirty ≠ 0) false) s
  s.flushExt (fun l => l.asid = asid) false

/-- Fabric bytes of a context that its node has not acknowledged, or that are still to be sent to it (R196). -/
def fabricPending (s : State) (c : Nat) : Bool :=
  let asid := (s.ctx c).asid
  s.ops.any (fun o => o.ctx = c && o.kind = .wback) ||
    !(List.range 8).all (fun d => l2Clean s d (fun l => l.asid = asid && (l.home = 4 || l.home = 5))) ||
    s.chans.any (fun kc => kc.2.msc.any (fun l => l.asid = asid && l.extent.isSome && l.dbytes ≠ 0))

/-- The channel and bank that a deep scope's operand names, without a translation (R97, R201): none where it names nothing. -/
def deepScope (s : State) (c k : Nat) (bank : Bool) (x : W64) : Option (Nat × Option Nat) :=
  if x.toNat ≥ 2 ^ 57 then none
  else if c = 0 && vaTop x.toNat = 0x1EC then if bank then none else some (chanHash x.toNat, none)
  else match route s c (some k) x.toNat with
    | .banked ch => some (ch, if bank then some (field x.toNat 25 6) else none)
    | .interleaved ch => if bank then none else some (ch, none)
    | _ => none

/-- A release by the issuing core, once the caravan's own accesses are performed; scope codes of R219. -/
def State.release (s : State) (scope : Nat) (deep : Option (Nat × Option Nat)) : State :=
  let k := s.cur.core
  match scope with
  | 0 => s
  | 2 => s
  | 5 => (s.drainFifo k none).flushFabric s.me.ctx
  | 1 => s.drainFifo k none
  | 3 => s.drainFifo k none
  | 4 => s.drainFifo k none
  | _ =>
    match deep with
    | none => s
    | some (c, b) =>
      let s := (s.core k).l1.foldl (fun s l =>
        if fifoHas (s.core k).fifo l.asid l.tag && (l.inDeep c b || (l.unfilled && l.inDeep c none)) then
          s.cleanL1 k l.asid l.tag else s) s
      s.flushL2 (dieOfChannel c) (fun l => l.inDeep c b && l.dirty ≠ 0) false

/-- An acquire by the issuing core. -/
def State.acquire (s : State) (scope : Nat) (deep : Option (Nat × Option Nat)) : State :=
  let k := s.cur.core
  match scope with
  | 0 => s
  | 2 => s
  | 5 =>
    let asid := s.myCtx.asid
    let s := s.acquireL1 k (fun _ => true)
    let s := (List.range 8).foldl (fun s d =>
      s.dropL2 d (fun l => l.asid = asid && (l.home = 4 || l.home = 5) && l.dirty = 0)) s
    { s with chans := s.chans.map (fun kc =>
      (kc.1, { kc.2 with msc := kc.2.msc.filter (fun l => !(l.asid = asid && l.extent.isSome && l.dbytes = 0)) })) }
  | 1 => s.acquireL1 k (fun _ => true)
  | 3 => s.acquireL1 k (fun _ => true)
  | 4 => s.acquireL1 k (fun _ => true)
  | _ =>
    match deep with
    | none => s
    | some (c, b) =>
      (s.acquireL1 k (fun l => l.inDeep c b)).dropL2 (dieOfChannel c) (fun l => l.inDeep c b && l.dirty = 0)

/-- Lines of a deep scope are still dirty: their channel does not take a write-back now (R134, R202). -/
def deepLeft (s : State) (deep : Option (Nat × Option Nat)) : Bool :=
  match deep with
  | none => false
  | some (c, b) => !l2Clean s (dieOfChannel c) (fun l => l.inDeep c b)

/-- A release that is joined to an instruction: the instruction waits while the agent's own accesses, or at SYSTEM scope what is written
to the node, are not performed; else the release is performed and the rest follows. -/
def State.withRelease (s : State) (scope : Nat) (rest : State → State) : State :=
  if s.memPending then s.block .release 0
  else
    let t := s.release scope none
    if scope = 5 && fabricPending t s.me.ctx then t.block .release 0 else rest t

/-! ## Barriers (R80 to R82) -/

/-- Flat address of barrier b's record of a party. -/
def barrierAt (s : State) (pk pe b : Nat) : Nat := Flat.core pk (256 * (s.party pk pe).scrBase + 16 * b)

def barrierOf (s : State) (pk pe b : Nat) : Nat := mload s.mem (barrierAt s pk pe b) 16

namespace Bar
def due (x : Nat) : Int := signed 48 (field x 64 48)
def init (x : Nat) : Nat := field x 48 16
def pend (x : Nat) : Nat := field x 32 16
def members (x : Nat) : Bool := field x 3 1 = 1
def err (x : Nat) : Bool := field x 2 1 = 1
def phase (x : Nat) : Bool := field x 0 1 = 1
def pack (due : Int) (init pend : Nat) (members err phase : Bool) : Nat :=
  2 ^ 64 * wrap 48 due + 2 ^ 48 * init + 2 ^ 32 * pend + (if members then 8 else 0) + (if err then 4 else 0) +
    (if phase then 1 else 0)
end Bar

/-- Add to BYTESDUE (R81): a result out of range sets ERR and leaves it. -/
def Bar.addDue (x : Nat) (d : Int) : Nat :=
  let n := Bar.due x + d
  if n < -2 ^ 47 || n > 2 ^ 47 - 1 then Bar.pack (Bar.due x) (Bar.init x) (Bar.pend x) (Bar.members x) true (Bar.phase x)
  else Bar.pack n (Bar.init x) (Bar.pend x) (Bar.members x) (Bar.err x) (Bar.phase x)

/-- A caravan whose BARWAIT returns: it goes on after it, with an acquire at PARTY scope (R83, R84). -/
def State.wakeBarrier (s : State) (k slot : Nat) : State :=
  let c := s.cv k slot
  let s := s.setCv k slot { c with st := c.runState, wait := .none, pc := c.pc + 12 }
  (s.acquireL1 k (fun _ => true)).settle k slot

/-- The completion check after an event (R81): the phase flips and the caravans that wait on its parity go on. -/
def State.checkBarrier (s : State) (pk pe b : Nat) : State :=
  let x := barrierOf s pk pe b
  if Bar.init x ≠ 0 && Bar.pend x = 0 && Bar.due x = 0 && !Bar.err x then
    let y := Bar.pack 0 (Bar.init x) (Bar.init x) (Bar.members x) false (!Bar.phase x)
    let s := { s with mem := mstore s.mem (barrierAt s pk pe b) 16 y }
    (s.party pk pe).members.foldl (fun s m =>
      let c := s.cv m.1 m.2
      if c.st = .blocked && c.wait = .barrier b (Bar.phase x) then s.wakeBarrier m.1 m.2 else s) s
  else s

/-- Write a barrier's record, then make the completion check. -/
def State.putBarrier (s : State) (pk pe b x : Nat) : State :=
  { s with mem := mstore s.mem (barrierAt s pk pe b) 16 x }.checkBarrier pk pe b

/-- An arrival that delivers n bytes (R81). An arrival aimed at a dissolved party is discarded. -/
def State.arrive (s : State) (pk pe b n : Nat) : State :=
  if (s.party pk pe).st = .free || 16 * b + 16 > 256 * (s.party pk pe).scrSize then s else
  let x := barrierOf s pk pe b
  if Bar.init x ≠ 0 && Bar.pend x > 0 then
    s.putBarrier pk pe b (Bar.addDue (Bar.pack (Bar.due x) (Bar.init x) (Bar.pend x - 1) (Bar.members x) (Bar.err x) (Bar.phase x))
      (-(n : Int)))
  else s.putBarrier pk pe b (Bar.pack (Bar.due x) (Bar.init x) (Bar.pend x) (Bar.members x) true (Bar.phase x))

end Sys2Proof.Machine
end

