-- ==== Sys2Proof/Machine/Float.lean ====
section
/-! DEFINITION. Floating-point and conversion instructions, class 0x2 (R249 to R262). -/

namespace Sys2Proof.Machine

open Host (Outcome)

/-! ## Sources (R249) -/

/-- One element of type t from an operand, for lane L. -/
def State.srcNum (s : State) (t : Nat) (o : Operand) (L : Nat) : Nat :=
  match o with
  | .imm k =>
    if t = 6 then k.toNat * 2 ^ 16 else if t = 7 then k.toNat * 2 ^ 48
    else if isSigned t then wrap (typeBits t) k.toInt else k.toNat % 2 ^ typeBits t
  | .s n => (s.sreg n.toNat).toNat % 2 ^ typeBits t
  | o =>
    if typeBits t = 64 then (s.src64 false o L).toNat
    else (s.src32 (if t = 6 then .fp32 else if t = 4 || t = 5 then .fp16 else .int) false o L).toNat % 2 ^ typeBits t

/-- Both elements of a packed source. -/
def State.srcPk (s : State) (o : Operand) (L : Nat) : Nat :=
  match o with
  | .imm k => k.toNat + 2 ^ 16 * k.toNat
  | o => (s.src32 .fp16 false o L).toNat

/-! ## Shapes -/

/-- Write a 32-bit result and raise its flags in each lane that takes part (R250). -/
def State.fpu (s : State) (f : Fields) (v : Nat → Nat × Flag) : State :=
  ((s.putV f (fun L => BitVec.ofNat 32 (v L).1)).raise (lanesFlags s.me.width (s.part f) (fun L => (v L).2))).advance

/-- The same with a register pair. -/
def State.fpu64 (s : State) (f : Fields) (v : Nat → Nat × Flag) : State :=
  ((s.putV64 f (fun L => BitVec.ofNat 64 (v L).1)).raise (lanesFlags s.me.width (s.part f) (fun L => (v L).2))).advance

/-- Write a predicate and raise flags. -/
def State.fpuP (s : State) (f : Fields) (v : Nat → Bool × Flag) : State :=
  ((s.putP f.d.pnum f (fun L => (v L).1)).raise (lanesFlags s.me.width (s.part f) (fun L => (v L).2))).advance

/-- FP32 with sources a, b and the old destination. -/
def State.f32op (s : State) (f : Fields) (g : Nat → Nat → Nat → Nat × Flag) : State :=
  s.fpu f (fun L => g (s.srcNum 6 f.a L) (s.srcNum 6 f.b L) (s.me.reg f.d.vreg L).toNat)

def State.f64op (s : State) (f : Fields) (g : Nat → Nat → Nat → Nat × Flag) : State :=
  s.fpu64 f (fun L => g (s.srcNum 7 f.a L) (s.srcNum 7 f.b L) (s.me.reg64 f.d.vreg L).toNat)

/-- Both elements of packed sources. -/
def State.pkop (s : State) (f : Fields) (g : Nat → Nat → Nat → Nat × Flag) : State :=
  s.fpu f (fun L =>
    let a := s.srcPk f.a L
    let b := s.srcPk f.b L
    let c := (s.me.reg f.d.vreg L).toNat
    let lo := g (a % 2 ^ 16) (b % 2 ^ 16) (c % 2 ^ 16)
    let hi := g (a / 2 ^ 16) (b / 2 ^ 16) (c / 2 ^ 16)
    (lo.1 + 2 ^ 16 * hi.1, lo.2 ||| hi.2))

/-- Write a converted value by its type (R168, R260). -/
def State.putType (s : State) (f : Fields) (t : Nat) (v : Nat → Nat × Flag) : State :=
  if typeBits t = 64 then s.fpu64 f v else s.fpu f v

def Fields.rm (f : Fields) : Nat := modBits f.m 0 2
/-- Source type of CVT and CVTSI. -/
def Fields.sty (f : Fields) : Nat := modBits f.m 6 4

/-! ## Instructions -/

def execFadd (f : Fields) (s : State) : Outcome State Fault Refusal :=
  issue (.fadd f) f false false (fun s => s.f32op f (fun a b _ => fpAdd fp32 (Fields.rm f) a b)) s

def execFmul (f : Fields) (s : State) : Outcome State Fault Refusal :=
  issue (.fmul f) f false false (fun s => s.f32op f (fun a b _ => fpMul fp32 (Fields.rm f) a b)) s

def execFfma (f : Fields) (s : State) : Outcome State Fault Refusal :=
  issue (.ffma f) f false false (fun s => s.f32op f (fun a b c => fpFma fp32 (Fields.rm f) a b c)) s

def execFmin (f : Fields) (s : State) : Outcome State Fault Refusal :=
  issue (.fmin f) f false false (fun s => s.f32op f (fun a b _ => fpPick fp32 false (modBits f.m 9 1 = 1) a b)) s

def execFmax (f : Fields) (s : State) : Outcome State Fault Refusal :=
  issue (.fmax f) f false false (fun s => s.f32op f (fun a b _ => fpPick fp32 true (modBits f.m 9 1 = 1) a b)) s

def execFset (f : Fields) (s : State) : Outcome State Fault Refusal :=
  issue (.fset f) f false false
    (fun s => s.fpuP f (fun L => fpCompare fp32 (modBits f.m 6 3) (s.srcNum 6 f.a L) (s.srcNum 6 f.b L))) s

def execFrcp (f : Fields) (s : State) : Outcome State Fault Refusal :=
  issue (.frcp f) f false false (fun s => s.f32op f (fun a _ _ => fpSpecial .rcp (Fields.rm f) a)) s

def execFrsq (f : Fields) (s : State) : Outcome State Fault Refusal :=
  issue (.frsq f) f false false (fun s => s.f32op f (fun a _ _ => fpSpecial .rsq (Fields.rm f) a)) s

def execFsqrt (f : Fields) (s : State) : Outcome State Fault Refusal :=
  issue (.fsqrt f) f false false (fun s => s.f32op f (fun a _ _ => fpSpecial .sqrt (Fields.rm f) a)) s

def execFex2 (f : Fields) (s : State) : Outcome State Fault Refusal :=
  issue (.fex2 f) f false false (fun s => s.f32op f (fun a _ _ => fpSpecial .ex2 (Fields.rm f) a)) s

def execFlg2 (f : Fields) (s : State) : Outcome State Fault Refusal :=
  issue (.flg2 f) f false false (fun s => s.f32op f (fun a _ _ => fpSpecial .lg2 (Fields.rm f) a)) s

def execFrnd (f : Fields) (s : State) : Outcome State Fault Refusal :=
  issue (.frnd f) f false false (fun s => s.f32op f (fun a _ _ => fpRnd fp32 (Fields.rm f) (modBits f.m 9 1 = 1) a)) s

def execFscl (f : Fields) (s : State) : Outcome State Fault Refusal :=
  issue (.fscl f) f false false
    (fun s => s.fpu f (fun L => fpScale fp32 (Fields.rm f) (s.srcNum 6 f.a L) (s.src32 .int false f.b L).toInt)) s

def execFclass (f : Fields) (s : State) : Outcome State Fault Refusal :=
  issue (.fclass f) f false false
    (fun s => (s.putV f (fun L => BitVec.ofNat 32 (fpClass (fmtOf f.type) (s.srcNum f.type f.a L)))).advance) s

def execDadd (f : Fields) (s : State) : Outcome State Fault Refusal :=
  issue (.dadd f) f false false (fun s => s.f64op f (fun a b _ => fpAdd fp64 (Fields.rm f) a b)) s

def execDmul (f : Fields) (s : State) : Outcome State Fault Refusal :=
  issue (.dmul f) f false false (fun s => s.f64op f (fun a b _ => fpMul fp64 (Fields.rm f) a b)) s

def execDfma (f : Fields) (s : State) : Outcome State Fault Refusal :=
  issue (.dfma f) f false false (fun s => s.f64op f (fun a b c => fpFma fp64 (Fields.rm f) a b c)) s

def execDmin (f : Fields) (s : State) : Outcome State Fault Refusal :=
  issue (.dmin f) f false false (fun s => s.f64op f (fun a b _ => fpPick fp64 false (modBits f.m 9 1 = 1) a b)) s

def execDmax (f : Fields) (s : State) : Outcome State Fault Refusal :=
  issue (.dmax f) f false false (fun s => s.f64op f (fun a b _ => fpPick fp64 true (modBits f.m 9 1 = 1) a b)) s

def execDset (f : Fields) (s : State) : Outcome State Fault Refusal :=
  issue (.dset f) f false false
    (fun s => s.fpuP f (fun L => fpCompare fp64 (modBits f.m 6 3) (s.srcNum 7 f.a L) (s.srcNum 7 f.b L))) s

def execPkadd (f : Fields) (s : State) : Outcome State Fault Refusal :=
  issue (.pkadd f) f false false (fun s => s.pkop f (fun a b _ => fpAdd (fmtOf f.type) (Fields.rm f) a b)) s

def execPkmul (f : Fields) (s : State) : Outcome State Fault Refusal :=
  issue (.pkmul f) f false false (fun s => s.pkop f (fun a b _ => fpMul (fmtOf f.type) (Fields.rm f) a b)) s

def execPkfma (f : Fields) (s : State) : Outcome State Fault Refusal :=
  issue (.pkfma f) f false false (fun s => s.pkop f (fun a b c => fpFma (fmtOf f.type) (Fields.rm f) a b c)) s

def execPkset (f : Fields) (s : State) : Outcome State Fault Refusal :=
  issue (.pkset f) f false false
    (fun s => s.pkop f (fun a b _ =>
      let (y, fl) := fpCompare (fmtOf f.type) (modBits f.m 6 3) a b
      (if y then 0xFFFF else 0, fl))) s

def execCvt (f : Fields) (s : State) : Outcome State Fault Refusal :=
  issue (.cvt f) f false false
    (fun s => s.putType f f.type (fun L => convert (Fields.rm f) (Fields.sty f) f.type (s.srcNum (Fields.sty f) f.a L))) s

def execCvtsi (f : Fields) (s : State) : Outcome State Fault Refusal :=
  issue (.cvtsi f) f false false
    (fun s => s.putType f f.type (fun L => convert (Fields.rm f) (Fields.sty f) f.type (s.srcNum (Fields.sty f) f.a L))) s

/-- CVTDX's encode form: codes of the lanes that take part, the pair in lane 0 of each word's Vd+1, zeros in the word's
other lanes. -/
def State.dxEncode (s : State) (f : Fields) : State :=
  let part := lanesBelow s.me.width (s.part f)
  let src := s.srcNum 6 f.a
  let exps := (List.range (s.me.width / 32)).map (fun w =>
    dxBlockExp f.type (Fields.rm f) ((part.filter (fun j => j / 32 = w)).map src))
  let e0 (L : Nat) : Int := exps.getD (L / 32) 0
  let t := s.putV f (fun L => BitVec.ofNat 32 (dxCode f.type (Fields.rm f) (e0 L) (src L)).1)
  let words := maskWhere s.me.width (fun L => part.any (fun j => j / 32 = L / 32))
  let t := t.setMe (t.me.writeLanes (f.d.vreg + 1) words (fun L =>
    if L % 32 = 0 then BitVec.ofNat 32 (dxPair f.type (e0 L)) else 0))
  (t.raise (lanesFlags s.me.width (s.part f) (fun L => (dxCode f.type (Fields.rm f) (e0 L) (src L)).2))).advance

def execCvtdx (f : Fields) (s : State) : Outcome State Fault Refusal :=
  issue (.cvtdx f) f false false
    (fun s =>
      if modBits f.m 9 1 = 1 then
        s.fpu f (fun L => dxDecode f.type (Fields.rm f) (s.src32 .int false f.a L).toNat
          ((s.src32 .int false f.b L).toNat % 2 ^ 16))
      else s.dxEncode f) s

end Sys2Proof.Machine
end

