-- ==== Sys2Proof/Decode.lean ====
section
/-! DEFINITION. The decoder of core and executor instructions, and the encoder written from the same tables (R209 to
R222, R139, R140). -/

namespace Sys2Proof

/-- Why a word is no instruction (R221 checks 2 to 4, R139). -/
inductive Reject where
  /-- Fewer bytes than one instruction. -/
  | truncated
  /-- OPC class above 0xC or function not listed in R222 (check 2). -/
  | unassignedOpcode
  /-- GRD.PRED 48 to 62, or HNT.SETK without HNT.SETV (check 3). -/
  | badHead
  /-- An operand field that R213 or R215 makes illegal (check 4). -/
  | badOperand
  /-- Operand kinds or MOD not accepted by the entry (check 4). -/
  | badFields
  /-- Executor opcode 0x1B to 0x3F, a non-zero unassigned bit, or a reserved value (R139). -/
  | badExecutorWord
  deriving DecidableEq, Repr

/-! ## Operand fields (R213, R215) -/

/-- The operand that an 18-bit field names, if any. -/
def decodeOperand (x : BitVec 18) : Option Operand :=
  let v := x.extractLsb' 0 16
  if x.extractLsb' 16 2 = 0 then
    some (.v (x.extractLsb' 0 8) (x.extractLsb' 8 4) (x.extractLsb' 12 4))
  else if x.extractLsb' 16 2 = 1 then
    if v.extractLsb' 6 10 = 0 then some (.s (v.extractLsb' 0 6)) else none
  else if x.extractLsb' 16 2 = 2 then some (.imm v)
  else if v.extractLsb' 12 4 = 0 then
    if v.extractLsb' 6 6 = 0 then some (.pred (v.extractLsb' 0 6)) else none
  else if v.extractLsb' 12 4 = 1 then
    if v.extractLsb' 3 9 = 0 then some (.queue (v.extractLsb' 0 3)) else none
  else if v.extractLsb' 12 4 = 2 then
    if v.extractLsb' 7 5 = 0 then some (.tile (v.extractLsb' 0 7)) else none
  else if v.extractLsb' 12 4 = 3 then
    if v.extractLsb' 6 6 = 0 then some (.acc (v.extractLsb' 0 6)) else none
  else if v.extractLsb' 12 4 = 5 then
    if v.extractLsb' 11 1 = 0 ∧ v.extractLsb' 7 1 = 0 then
      some (.role (v.extractLsb' 8 3) (v.extractLsb' 0 7)) else none
  else if v.extractLsb' 12 4 = 6 then some (.csr (v.extractLsb' 0 12))
  else none

/-- The 18-bit field of an operand. -/
def encodeOperand : Operand → BitVec 18
  | .v r p u => 0#2 ++ u ++ p ++ r
  | .s n => 1#2 ++ 0#10 ++ n
  | .imm x => 2#2 ++ x
  | .pred n => 3#2 ++ 0#4 ++ 0#6 ++ n
  | .queue n => 3#2 ++ 1#4 ++ 0#9 ++ n
  | .tile n => 3#2 ++ 2#4 ++ 0#5 ++ n
  | .acc n => 3#2 ++ 3#4 ++ 0#6 ++ n
  | .role r t => 3#2 ++ 5#4 ++ 0#1 ++ r ++ 0#1 ++ t
  | .csr n => 3#2 ++ 6#4 ++ n
  | .raw x => x

/-- WAITC and REGION have raw operand fields (R220, R276). -/
def rawOpcode (opc : Nat) : Bool := opc == 0x183 || opc == 0x14F

/-- The fields of a word, whatever its opcode (R210). -/
def decodeFields (w : BitVec 96) : Option Fields :=
  let opd := w.extractLsb' 32 18
  let opa := w.extractLsb' 50 18
  let opb := w.extractLsb' 68 18
  let g : Guard := { pred := w.extractLsb' 10 6, neg := w.extractLsb' 16 1 == 1 }
  let h : Hints := { stall := w.extractLsb' 29 3, setv := w.extractLsb' 28 1 == 1, setk := w.extractLsb' 25 3,
                     wait := w.extractLsb' 17 8 }
  let m := w.extractLsb' 86 10
  if rawOpcode (w.extractLsb' 0 10).toNat then
    some { g := g, h := h, d := .raw opd, a := .raw opa, b := .raw opb, m := m }
  else
    match decodeOperand opd, decodeOperand opa, decodeOperand opb with
    | some d, some a, some b => some { g := g, h := h, d := d, a := a, b := b, m := m }
    | _, _, _ => none

/-- The word of an opcode and its fields (R210). -/
def encodeFields (opc : Nat) (f : Fields) : BitVec 96 :=
  f.m ++ encodeOperand f.b ++ encodeOperand f.a ++ encodeOperand f.d ++
    f.h.stall ++ BitVec.ofBool f.h.setv ++ f.h.setk ++ f.h.wait ++
    BitVec.ofBool f.g.neg ++ f.g.pred ++ BitVec.ofNat 10 opc

/-! ## The opcode map (R222) -/

/-- CTXOP's operation is MOD bits 3:0, with 8 to 15 reserved (R32). -/
def ctxopOf (f : Fields) : Instr :=
  if modBits f.m 0 4 == 0 then .ctxopCreate f
  else if modBits f.m 0 4 == 1 then .ctxopActivate f
  else if modBits f.m 0 4 == 2 then .ctxopPreempt f
  else if modBits f.m 0 4 == 3 then .ctxopRestore f
  else if modBits f.m 0 4 == 4 then .ctxopReset f
  else if modBits f.m 0 4 == 5 then .ctxopDestroy f
  else if modBits f.m 0 4 == 6 then .ctxopQuery f
  else .ctxopModify f

/-- The mnemonics of each class in function order: the k-th of class c has opcode 64·c + k (R222). COLL, RST and
CTXOP are told apart by MOD; XMODE is told apart by the mode word when it executes. -/
def opcodeMap : List (List (Fields → Instr)) :=
  [[.nop, .bra, .brx, .brany, .brall, .call, .ret, .reconv, .exitI, .yield, .sleep, .trap, .brk, .mskget, .mskset],
   [.iadd, .isub, .imul, .imulh, .imad, .imin, .imax, .iabs, .iaddc, .isubb, .shl, .shr, .sar, .rotl, .andI, .orI, .xorI, .andn, .notI, .ttab, .bfe, .bfi, .popc, .clz, .brev, .prmt, .iset, .iadd64, .imad64, .sel, .mov, .movi],
   [.fadd, .fmul, .ffma, .fmin, .fmax, .fset, .frcp, .frsq, .fsqrt, .fex2, .flg2, .frnd, .fscl, .fclass, .dadd, .dmul, .dfma, .dmin, .dmax, .dset, .pkadd, .pkmul, .pkfma, .pkset, .cvt, .cvtsi, .cvtdx],
   [.plop, .pmov, .ballot, .vote, .laneid, .shfl, .redux, .scan, .matchLanes, .firstLane],
   [.smov, .smovi, .sadd, .ssub, .smul, .sand, .sor, .sxor, .sshl, .sshr, .sset, .ssel, .sld, .sst, .s2v, .v2s],
   [.ld, .st, .ldl, .stl, .ldw, .stw, .ldr, .atom, .red, .cas, .mdld, .mdst, .prf, .cctl, .ldq, .region],
   [.fence, .rel, .acq, .waitc, .mark, .barinit, .bararv, .barexp, .barwait, .bartest, .join, .leave, .partyq, .spawn, .termq, .accalloc, .accfree],
   [.tdef, .tfree, .tstat, .tld, .tst, .cpl, .cpt, .cpq, .cpo, .qclose, .qstat],
   [.mma, .mmas, .mmx, .msca, .msl, .mzero, .mlda, .mcvt, .mstat],
   [(fun f => if modBits f.m 9 1 == 1 then .collDone f else .coll f), .rld, (fun f => if modBits f.m 9 1 == 1 then .rstBlk f else .rst f), .rred, .ratom, .vmask, .vrsc, .msv, .gangq, .gangack],
   [.xmodeOtherWord, .xprog, .xcol, .xread, .xstat, .xreset],
   [.afor, .aend, .qpush, .await],
   [.csrr, .csrw, .replay, .tlbinv, .evpost, .launch, .resume, .kill, ctxopOf, .energyq]]

/-- The core instruction of an opcode with these fields, if R222 assigns the opcode. -/
def ofOpcode (opc : Nat) (f : Fields) : Option Instr :=
  match opcodeMap[opc / 64]? with
  | none => none
  | some row => match row[opc % 64]? with
    | none => none
    | some c => some (c f)

/-- The opcode and the fields of a core instruction. -/
def coreParts : Instr → Option (Nat × Fields)
  | .nop f => some (0x000, f)
  | .bra f => some (0x001, f)
  | .brx f => some (0x002, f)
  | .brany f => some (0x003, f)
  | .brall f => some (0x004, f)
  | .call f => some (0x005, f)
  | .ret f => some (0x006, f)
  | .reconv f => some (0x007, f)
  | .exitI f => some (0x008, f)
  | .yield f => some (0x009, f)
  | .sleep f => some (0x00A, f)
  | .trap f => some (0x00B, f)
  | .brk f => some (0x00C, f)
  | .mskget f => some (0x00D, f)
  | .mskset f => some (0x00E, f)
  | .iadd f => some (0x040, f)
  | .isub f => some (0x041, f)
  | .imul f => some (0x042, f)
  | .imulh f => some (0x043, f)
  | .imad f => some (0x044, f)
  | .imin f => some (0x045, f)
  | .imax f => some (0x046, f)
  | .iabs f => some (0x047, f)
  | .iaddc f => some (0x048, f)
  | .isubb f => some (0x049, f)
  | .shl f => some (0x04A, f)
  | .shr f => some (0x04B, f)
  | .sar f => some (0x04C, f)
  | .rotl f => some (0x04D, f)
  | .andI f => some (0x04E, f)
  | .orI f => some (0x04F, f)
  | .xorI f => some (0x050, f)
  | .andn f => some (0x051, f)
  | .notI f => some (0x052, f)
  | .ttab f => some (0x053, f)
  | .bfe f => some (0x054, f)
  | .bfi f => some (0x055, f)
  | .popc f => some (0x056, f)
  | .clz f => some (0x057, f)
  | .brev f => some (0x058, f)
  | .prmt f => some (0x059, f)
  | .iset f => some (0x05A, f)
  | .iadd64 f => some (0x05B, f)
  | .imad64 f => some (0x05C, f)
  | .sel f => some (0x05D, f)
  | .mov f => some (0x05E, f)
  | .movi f => some (0x05F, f)
  | .fadd f => some (0x080, f)
  | .fmul f => some (0x081, f)
  | .ffma f => some (0x082, f)
  | .fmin f => some (0x083, f)
  | .fmax f => some (0x084, f)
  | .fset f => some (0x085, f)
  | .frcp f => some (0x086, f)
  | .frsq f => some (0x087, f)
  | .fsqrt f => some (0x088, f)
  | .fex2 f => some (0x089, f)
  | .flg2 f => some (0x08A, f)
  | .frnd f => some (0x08B, f)
  | .fscl f => some (0x08C, f)
  | .fclass f => some (0x08D, f)
  | .dadd f => some (0x08E, f)
  | .dmul f => some (0x08F, f)
  | .dfma f => some (0x090, f)
  | .dmin f => some (0x091, f)
  | .dmax f => some (0x092, f)
  | .dset f => some (0x093, f)
  | .pkadd f => some (0x094, f)
  | .pkmul f => some (0x095, f)
  | .pkfma f => some (0x096, f)
  | .pkset f => some (0x097, f)
  | .cvt f => some (0x098, f)
  | .cvtsi f => some (0x099, f)
  | .cvtdx f => some (0x09A, f)
  | .plop f => some (0x0C0, f)
  | .pmov f => some (0x0C1, f)
  | .ballot f => some (0x0C2, f)
  | .vote f => some (0x0C3, f)
  | .laneid f => some (0x0C4, f)
  | .shfl f => some (0x0C5, f)
  | .redux f => some (0x0C6, f)
  | .scan f => some (0x0C7, f)
  | .matchLanes f => some (0x0C8, f)
  | .firstLane f => some (0x0C9, f)
  | .smov f => some (0x100, f)
  | .smovi f => some (0x101, f)
  | .sadd f => some (0x102, f)
  | .ssub f => some (0x103, f)
  | .smul f => some (0x104, f)
  | .sand f => some (0x105, f)
  | .sor f => some (0x106, f)
  | .sxor f => some (0x107, f)
  | .sshl f => some (0x108, f)
  | .sshr f => some (0x109, f)
  | .sset f => some (0x10A, f)
  | .ssel f => some (0x10B, f)
  | .sld f => some (0x10C, f)
  | .sst f => some (0x10D, f)
  | .s2v f => some (0x10E, f)
  | .v2s f => some (0x10F, f)
  | .ld f => some (0x140, f)
  | .st f => some (0x141, f)
  | .ldl f => some (0x142, f)
  | .stl f => some (0x143, f)
  | .ldw f => some (0x144, f)
  | .stw f => some (0x145, f)
  | .ldr f => some (0x146, f)
  | .atom f => some (0x147, f)
  | .red f => some (0x148, f)
  | .cas f => some (0x149, f)
  | .mdld f => some (0x14A, f)
  | .mdst f => some (0x14B, f)
  | .prf f => some (0x14C, f)
  | .cctl f => some (0x14D, f)
  | .ldq f => some (0x14E, f)
  | .region f => some (0x14F, f)
  | .fence f => some (0x180, f)
  | .rel f => some (0x181, f)
  | .acq f => some (0x182, f)
  | .waitc f => some (0x183, f)
  | .mark f => some (0x184, f)
  | .barinit f => some (0x185, f)
  | .bararv f => some (0x186, f)
  | .barexp f => some (0x187, f)
  | .barwait f => some (0x188, f)
  | .bartest f => some (0x189, f)
  | .join f => some (0x18A, f)
  | .leave f => some (0x18B, f)
  | .partyq f => some (0x18C, f)
  | .spawn f => some (0x18D, f)
  | .termq f => some (0x18E, f)
  | .accalloc f => some (0x18F, f)
  | .accfree f => some (0x190, f)
  | .tdef f => some (0x1C0, f)
  | .tfree f => some (0x1C1, f)
  | .tstat f => some (0x1C2, f)
  | .tld f => some (0x1C3, f)
  | .tst f => some (0x1C4, f)
  | .cpl f => some (0x1C5, f)
  | .cpt f => some (0x1C6, f)
  | .cpq f => some (0x1C7, f)
  | .cpo f => some (0x1C8, f)
  | .qclose f => some (0x1C9, f)
  | .qstat f => some (0x1CA, f)
  | .mma f => some (0x200, f)
  | .mmas f => some (0x201, f)
  | .mmx f => some (0x202, f)
  | .msca f => some (0x203, f)
  | .msl f => some (0x204, f)
  | .mzero f => some (0x205, f)
  | .mlda f => some (0x206, f)
  | .mcvt f => some (0x207, f)
  | .mstat f => some (0x208, f)
  | .coll f => some (0x240, f)
  | .collDone f => some (0x240, f)
  | .rld f => some (0x241, f)
  | .rst f => some (0x242, f)
  | .rstBlk f => some (0x242, f)
  | .rred f => some (0x243, f)
  | .ratom f => some (0x244, f)
  | .vmask f => some (0x245, f)
  | .vrsc f => some (0x246, f)
  | .msv f => some (0x247, f)
  | .gangq f => some (0x248, f)
  | .gangack f => some (0x249, f)
  | .xmodeStep1 f => some (0x280, f)
  | .xmodeStep2 f => some (0x280, f)
  | .xmodeStep3 f => some (0x280, f)
  | .xmodeExit f => some (0x280, f)
  | .xprog f => some (0x281, f)
  | .xcol f => some (0x282, f)
  | .xread f => some (0x283, f)
  | .xstat f => some (0x284, f)
  | .xreset f => some (0x285, f)
  | .afor f => some (0x2C0, f)
  | .aend f => some (0x2C1, f)
  | .qpush f => some (0x2C2, f)
  | .await f => some (0x2C3, f)
  | .csrr f => some (0x300, f)
  | .csrw f => some (0x301, f)
  | .replay f => some (0x302, f)
  | .tlbinv f => some (0x303, f)
  | .evpost f => some (0x304, f)
  | .launch f => some (0x305, f)
  | .resume f => some (0x306, f)
  | .kill f => some (0x307, f)
  | .ctxopCreate f => some (0x308, f)
  | .ctxopActivate f => some (0x308, f)
  | .ctxopPreempt f => some (0x308, f)
  | .ctxopRestore f => some (0x308, f)
  | .ctxopReset f => some (0x308, f)
  | .ctxopDestroy f => some (0x308, f)
  | .ctxopQuery f => some (0x308, f)
  | .ctxopModify f => some (0x308, f)
  | .energyq f => some (0x309, f)
  | .xmodeOtherWord f => some (0x280, f)
  | _ => none

/-- The core instruction that a 96-bit word encodes, or why it encodes none (R221 checks 2 to 4, in order). -/
def decodeCore (w : BitVec 96) : Except Reject Instr :=
  let opc := (w.extractLsb' 0 10).toNat
  let pred := (w.extractLsb' 10 6).toNat
  match ofOpcode opc { g := { pred := 63, neg := false }, h := { stall := 0, setv := false, setk := 0, wait := 0 },
                       d := .s 0, a := .s 0, b := .s 0, m := 0 } with
  | none => .error .unassignedOpcode
  | some _ =>
    if (48 ≤ pred ∧ pred ≠ 63) ∨ (w.extractLsb' 28 1 = 0 ∧ w.extractLsb' 25 3 ≠ 0) then .error .badHead
    else match decodeFields w with
      | none => .error .badOperand
      | some f => match ofOpcode opc f with
        | none => .error .unassignedOpcode
        | some i => if legal i then .ok i else .error .badFields

/-! ## Executor words (R139, R140) -/

/-- The executor instruction that a 32-bit word encodes. -/
def decodeExecutor (w : BitVec 32) : Except Reject Instr :=
  let x := (w.extractLsb' 0 26).toNat
  let ok (i : Instr) (bits : Nat) : Except Reject Instr :=
    if x < 2 ^ bits ∧ legal i = true then .ok i else .error .badExecutorWord
  match (w.extractLsb' 26 6).toNat with
  | 0x00 => ok .execNop 0
  | 0x01 => ok (.latch (w.extractLsb' 0 15)) 15
  | 0x02 => ok (.store (w.extractLsb' 0 15)) 15
  | 0x03 => if w.extractLsb' 16 8 = 0 then ok (.setk (w.extractLsb' 24 2) (w.extractLsb' 0 16)) 26
            else .error .badExecutorWord
  | 0x04 => if w.extractLsb' 16 8 = 0 then ok (.setm (w.extractLsb' 24 2) (w.extractLsb' 0 16)) 26
            else .error .badExecutorWord
  | 0x05 => ok (.shk (w.extractLsb' 5 1) (w.extractLsb' 0 5)) 6
  | 0x06 => ok (.cmp (w.extractLsb' 0 1)) 1
  | 0x07 => ok (.cmpa (w.extractLsb' 0 1)) 1
  | 0x08 => ok (.cmpo (w.extractLsb' 0 1)) 1
  | 0x09 => ok (.tnot (w.extractLsb' 0 1)) 1
  | 0x0A => ok (.wr (w.extractLsb' 0 1)) 1
  | 0x0B => ok (.wrn (w.extractLsb' 0 1)) 1
  | 0x0C => ok (.tsave (w.extractLsb' 0 2)) 2
  | 0x0D => ok (.tload (w.extractLsb' 0 2)) 2
  | 0x0E => ok (.tshf (w.extractLsb' 9 1) (w.extractLsb' 8 1) (w.extractLsb' 0 8)) 10
  | 0x0F => ok (.tcnt (w.extractLsb' 3 1) (w.extractLsb' 0 3)) 4
  | 0x10 => ok (.tfst (w.extractLsb' 3 1) (w.extractLsb' 0 3)) 4
  | 0x11 => if w.extractLsb' 11 1 = 0 then ok (.rdw (w.extractLsb' 8 3) (w.extractLsb' 0 8)) 11
            else if w.extractLsb' 1 7 = 0 then ok (.rdwF (w.extractLsb' 8 3) (w.extractLsb' 0 1)) 12
            else .error .badExecutorWord
  | 0x12 => ok (.xout (w.extractLsb' 0 8)) 8
  | 0x13 => ok (.xin (w.extractLsb' 8 6) (w.extractLsb' 0 8)) 14
  | 0x14 => ok (.execRel (w.extractLsb' 0 2)) 2
  | 0x15 => ok (.execAcq (w.extractLsb' 0 2)) 2
  | 0x16 => ok (.execFence (w.extractLsb' 0 2)) 2
  | 0x17 => ok (.loop (w.extractLsb' 0 8)) 8
  | 0x18 => ok (.setc (w.extractLsb' 0 16)) 16
  | 0x19 => ok .halt 0
  | 0x1A => ok (.rtag (w.extractLsb' 0 1)) 1
  | _ => .error .badExecutorWord

/-- An executor word from its opcode and its operand (R139). -/
def execWord (opc : BitVec 6) (operand : BitVec 26) : BitVec 32 := opc ++ operand

/-- The words of an instruction, as one number with the first word lowest; none for a step that has no encoding. -/
inductive Words where
  | core (w : BitVec 96)
  | executor (w : BitVec 32)
  deriving DecidableEq, Repr

/-- The encoding of an instruction (R210, R139, R140). -/
def encode (i : Instr) : Option Words :=
  match i with
  | .execNop => some (.executor (execWord 0x00 0))
  | .latch r => some (.executor (execWord 0x01 (0#11 ++ r)))
  | .store r => some (.executor (execWord 0x02 (0#11 ++ r)))
  | .setk s v => some (.executor (execWord 0x03 (s ++ 0#8 ++ v)))
  | .setm s v => some (.executor (execWord 0x04 (s ++ 0#8 ++ v)))
  | .shk d n => some (.executor (execWord 0x05 (0#20 ++ d ++ n)))
  | .cmp v => some (.executor (execWord 0x06 (0#25 ++ v)))
  | .cmpa v => some (.executor (execWord 0x07 (0#25 ++ v)))
  | .cmpo v => some (.executor (execWord 0x08 (0#25 ++ v)))
  | .tnot v => some (.executor (execWord 0x09 (0#25 ++ v)))
  | .wr v => some (.executor (execWord 0x0A (0#25 ++ v)))
  | .wrn v => some (.executor (execWord 0x0B (0#25 ++ v)))
  | .tsave f => some (.executor (execWord 0x0C (0#24 ++ f)))
  | .tload f => some (.executor (execWord 0x0D (0#24 ++ f)))
  | .tshf v d n => some (.executor (execWord 0x0E (0#16 ++ v ++ d ++ n)))
  | .tcnt v j => some (.executor (execWord 0x0F (0#22 ++ v ++ j)))
  | .tfst v j => some (.executor (execWord 0x10 (0#22 ++ v ++ j)))
  | .rdw j w => some (.executor (execWord 0x11 (0#14 ++ 0#1 ++ j ++ w)))
  | .rdwF j v => some (.executor (execWord 0x11 (0#14 ++ 1#1 ++ j ++ 0#7 ++ v)))
  | .xout w => some (.executor (execWord 0x12 (0#18 ++ w)))
  | .xin b w => some (.executor (execWord 0x13 (0#12 ++ b ++ w)))
  | .execRel s => some (.executor (execWord 0x14 (0#24 ++ s)))
  | .execAcq s => some (.executor (execWord 0x15 (0#24 ++ s)))
  | .execFence s => some (.executor (execWord 0x16 (0#24 ++ s)))
  | .loop t => some (.executor (execWord 0x17 (0#18 ++ t)))
  | .setc n => some (.executor (execWord 0x18 (0#10 ++ n)))
  | .halt => some (.executor (execWord 0x19 0))
  | .rtag v => some (.executor (execWord 0x1A (0#25 ++ v)))
  | i => match coreParts i with
    | some (opc, f) => some (.core (encodeFields opc f))
    | none => none

/-! ## Bytes (R4, R209) -/

/-- The number that a list of bytes holds, the first byte least significant (R4). -/
def ofBytes : List Byte → Nat
  | [] => 0
  | b :: r => b.toNat + 256 * ofBytes r

/-- The n bytes of a number, least significant first (R4). -/
def toBytes : Nat → Nat → List Byte
  | 0, _ => []
  | n + 1, x => BitVec.ofNat 8 x :: toBytes n (x / 256)

/-- The instruction at the head of a byte sequence, and the bytes after it. -/
def decodeBytes (bs : List Byte) : Except Reject (Instr × List Byte) :=
  if bs.length < 12 then .error .truncated
  else match decodeCore (BitVec.ofNat 96 (ofBytes (bs.take 12))) with
    | .ok i => .ok (i, bs.drop 12)
    | .error r => .error r

/-- The instruction of a word numbered as the opcode table numbers it: up to 32 bits an executor word, above that a
core word. -/
def decodeTableWord (nbits w : Nat) : Option Instr :=
  if nbits ≤ 32 then
    match decodeExecutor (BitVec.ofNat 32 (ofBytes (toBytes 4 w))) with
    | .ok i => some i
    | .error _ => none
  else
    match decodeBytes (toBytes 12 w) with
    | .ok (i, _) => some i
    | .error _ => none

/-- The word that an XMODE whose mode word is not looked at decodes to: the five XMODE rows share one encoding. -/
def canonical : Instr → Instr
  | .xmodeStep1 f => .xmodeOtherWord f
  | .xmodeStep2 f => .xmodeOtherWord f
  | .xmodeStep3 f => .xmodeOtherWord f
  | .xmodeExit f => .xmodeOtherWord f
  | i => i

end Sys2Proof
end

