-- ==== Sys2Proof/Machine/Executor.lean ====
section
/-! DEFINITION. The bank executors and their instructions (R135 to R143), and the advance of a channel (R136, R203, R204). -/

namespace Sys2Proof.Machine

open Host (Outcome)

/-! ## The executor's own state (R135) -/

namespace Executor

/-- Latch word w. -/
def word (e : Executor) (w : Nat) : W32 := sget 0 e.latch w
def setWord (e : Executor) (w : Nat) (x : W32) : Executor := { e with latch := sset 0 e.latch w x }

/-- TAG or TAG2, by the v bit. -/
def tv (e : Executor) (v : BitVec 1) : BitVec 256 := if v = 0 then e.tag else e.tag2
def setTv (e : Executor) (v : BitVec 1) (x : BitVec 256) : Executor :=
  if v = 0 then { e with tag := x } else { e with tag2 := x }

/-- m(w) for every word (R140). -/
def matches_ (e : Executor) : BitVec 256 :=
  BitVec.ofNat 256 ((List.range 256).foldr (fun w a => (if (e.word w ^^^ e.key) &&& e.mask = 0 then 1 else 0) + 2 * a) 0)

/-- RESP word j. -/
def setResp (e : Executor) (j : BitVec 3) (x : W32) : Executor :=
  { e with resp := (e.resp &&& ~~~(0xFFFFFFFF#256 <<< (32 * j.toNat))) ||| (x.setWidth 256 <<< (32 * j.toNat)) }

def inboxWord (e : Executor) (j : Nat) : W32 := (e.inbox >>> (32 * j)).setWidth 32

/-- KEY under MASK into the words that a tag vector selects. -/
def writeTagged (e : Executor) (sel : BitVec 256) : Executor :=
  (List.range 256).foldl (fun a w =>
    if sel.getLsbD w then a.setWord w ((a.word w &&& ~~~a.mask) ||| (a.key &&& a.mask)) else a) e

/-- The least set bit of a tag vector. -/
def first (t : BitVec 256) : Option Nat := (List.range 256).find? (fun w => t.getLsbD w)

/-- MOV, AND, OR, XOR of TSAVE and TLOAD. -/
def combine (f : BitVec 2) (old new : BitVec 256) : BitVec 256 :=
  if f = 0 then new else if f = 1 then old &&& new else if f = 2 then old ||| new else old ^^^ new

/-- KEY or MASK after SETK or SETM. -/
def setHalf (e : Executor) (old : W32) (s : BitVec 2) (v : BitVec 16) : W32 :=
  if s = 0 then (old &&& 0xFFFF0000) ||| v.setWidth 32
  else if s = 1 then (old &&& 0xFFFF) ||| (v.setWidth 32 <<< 16)
  else if s = 2 then e.inboxWord v.toNat else e.word v.toNat

/-- The executor's status word (R137). -/
def status (e : Executor) : W64 :=
  let st := match e.st with
    | .idle => 0
    | .running => 1
    | .halted => 2
    | .faulted => 3
    | .parked => 1
  BitVec.ofNat 64 (st + (if e.st = .faulted then 4 else 0) + 2 ^ 4 * e.cause.toNat + 2 ^ 8 * e.pc.toNat +
    2 ^ 16 * e.lc.toNat + 2 ^ 32 * e.lrow.toNat + (if e.lv then 2 ^ 47 else 0))

/-- XRESET: to IDLE with every part zeroed; the program and the transfer slots are the channel's (R135), and what it has stored since
its last REL.DEVICE stays stored (R143). -/
def idled (e : Executor) : Executor := { Executor.zero with stored := e.stored }

end Executor

/-- Channel and bank of a device bank. -/
def bankChan (n : Nat) : Nat := n / 64
def bankPlace (n : Nat) : Nat := n % 64

/-- FAULTED, with CAUSE; EXECUTOR_FAULTED goes to context 0 and to the owner (R127, R138). -/
def State.exFault (s : State) (cause : Nat) (va row : Nat) : State :=
  let ch := bankChan s.bank
  let e := s.executor s.bank
  let o := (s.chan ch).owner
  (s.setExecutor s.bank { e with st := .faulted, cause := BitVec.ofNat 4 cause }).chanEvent [o] ch 0x23 va
    (s.ctx o).asid.toNat (bankPlace s.bank) row cause

/-- An executor instruction that changes the executor alone, and goes on (R139). An ill-formed one is ILLEGAL. -/
def exRun (i : Instr) (body : Executor → Executor) (s : State) : Outcome State Fault Refusal :=
  .next <|
    if !legal i then s.exFault 1 0 0
    else
      let e := body (s.executor s.bank)
      s.setExecutor s.bank { e with pc := e.pc + 1 }

/-- One that acts on more than the executor: `body`, then PC + 1. -/
def exAct (i : Instr) (body : State → State) (s : State) : Outcome State Fault Refusal :=
  .next <|
    if !legal i then s.exFault 1 0 0
    else
      let t := body s
      let e := t.executor t.bank
      t.setExecutor t.bank { e with pc := e.pc + 1 }

/-! ## LATCH and STORE (R141) -/

/-- VA of row r of the executor's bank. -/
def rowVa (n r : Nat) : Nat := 0x1EB * 2 ^ 48 + 2 ^ 31 * bankChan n + 2 ^ 25 * bankPlace n + 1024 * r

/-- The leaf of a row's VA in the owner's translation, or what the executor does instead. -/
def State.rowLeaf (s : State) (r : Nat) (store : Bool) : State × Option Leaf :=
  let ch := bankChan s.bank
  let c := (s.chan ch).owner
  let va := rowVa s.bank r
  match s.translate c ch va none with
  | (s, .busy) => (s, none)
  | (s, .absent true level) =>
    let (s, id) := s.postFaults c 4 s.bank 0 (if store then 1 else 0) [(0, va, level)]
    let p : Park := { id := id, srckind := 4, srcid := s.bank, ctx := c, core := 0, cslot := 0, what := .executor s.bank }
    let s := { s with parks := s.parks ++ [p] }
    (s.setExecutor s.bank { s.executor s.bank with st := .parked }, none)
  | (s, .absent false _) => (s.exFault 4 va r, none)
  | (s, .error _ _) => (s.exFault 4 va r, none)
  | (s, .leaf l) =>
    let x := s.ctx c
    if l.home ≠ 1 then (s.exFault 4 va r, none)
    else if l.grade > 1 then (s.exFault 2 va r, none)
    else if !(x.kbase ≤ l.keyx && l.keyx < x.kbase + x.kcount && (s.keySlot l.keyx).full) || (store && !l.w) then
      (s.exFault 3 va r, none)
    else (s, some l)

/-- The 8 lines of a row, from the channel point; none when a sector is uncorrectable. -/
def State.rowRead (s : State) (o : Origin) (flat : Nat) (l : Leaf) : State × Option (List (BitVec 1024)) :=
  (List.range 8).foldl (fun (acc : State × Option (List (BitVec 1024))) j =>
    let (s, d, bad) := acc.1.readLine { o with va := o.va + 128 * j } (flat + 128 * j) l.keyx l.grade (BitVec.allOnes 128) false
    (s, if bad = 0 then acc.2.map (· ++ [d]) else none)) (s, some [])

def State.rowWrite (s : State) (o : Origin) (flat : Nat) (l : Leaf) (w : Nat → BitVec 1024) : State :=
  (List.range 8).foldl (fun s j =>
    s.writeLine { o with va := o.va + 128 * j } (flat + 128 * j) l.keyx l.grade (BitVec.allOnes 128) (w j) false) s

/-- Line j of a latch, as 32 words. -/
def latchLine (e : Executor) (j : Nat) : BitVec 1024 :=
  BitVec.ofNat 1024 ((List.range 32).foldr (fun i a => (e.word (32 * j + i)).toNat + 2 ^ 32 * a) 0)

/-- A latch of 8 lines. -/
def latchOf (ls : List (BitVec 1024)) : List (Nat × W32) :=
  (List.range 256).foldl (fun a w =>
    sset 0 a w ((ls.getD (w / 32) 0 >>> (32 * (w % 32))).setWidth 32)) []

def execLatch (r : BitVec 15) (s : State) : Outcome State Fault Refusal :=
  .next <|
    match s.rowLeaf r.toNat false with
    | (s, none) => s
    | (s, some l) =>
      let ch := bankChan s.bank
      let va := rowVa s.bank r.toNat
      let c := (s.chan ch).owner
      match s.rowRead { ctx := c, asid := (s.ctx c).asid.toNat, va := va } (Flat.dram ch (va % 2 ^ 31)) l with
      | (s, none) => s.exFault 5 va r.toNat
      | (s, some ls) =>
        let e := s.executor s.bank
        s.setExecutor s.bank { e with latch := latchOf ls, lrow := r, lv := true, pc := e.pc + 1 }

def execStore (r : BitVec 15) (s : State) : Outcome State Fault Refusal :=
  .next <|
    match s.rowLeaf r.toNat true with
    | (s, none) => s
    | (s, some l) =>
      let ch := bankChan s.bank
      let va := rowVa s.bank r.toNat
      let c := (s.chan ch).owner
      let s := s.setD c va l
      let s := s.rowWrite { ctx := c, asid := (s.ctx c).asid.toNat, va := va } (Flat.dram ch (va % 2 ^ 31)) l
        (latchLine (s.executor s.bank))
      let e := s.executor s.bank
      s.setExecutor s.bank { e with stored := if e.stored.contains r.toNat then e.stored else e.stored ++ [r.toNat],
                                    pc := e.pc + 1 }

/-! ## The other instructions (R140) -/

def execExecNop (s : State) : Outcome State Fault Refusal := exRun .execNop id s

def execSetk (sel : BitVec 2) (v : BitVec 16) (s : State) : Outcome State Fault Refusal :=
  exRun (.setk sel v) (fun e => { e with key := e.setHalf e.key sel v }) s

def execSetm (sel : BitVec 2) (v : BitVec 16) (s : State) : Outcome State Fault Refusal :=
  exRun (.setm sel v) (fun e => { e with mask := e.setHalf e.mask sel v }) s

def execShk (d : BitVec 1) (n : BitVec 5) (s : State) : Outcome State Fault Refusal :=
  exRun (.shk d n) (fun e =>
    if d = 1 then { e with key := e.key >>> n.toNat, mask := e.mask >>> n.toNat }
    else { e with key := e.key <<< n.toNat, mask := e.mask <<< n.toNat }) s

def execCmp (v : BitVec 1) (s : State) : Outcome State Fault Refusal :=
  exRun (.cmp v) (fun e => e.setTv v e.matches_) s

def execCmpa (v : BitVec 1) (s : State) : Outcome State Fault Refusal :=
  exRun (.cmpa v) (fun e => e.setTv v (e.tv v &&& e.matches_)) s

def execCmpo (v : BitVec 1) (s : State) : Outcome State Fault Refusal :=
  exRun (.cmpo v) (fun e => e.setTv v (e.tv v ||| e.matches_)) s

def execTnot (v : BitVec 1) (s : State) : Outcome State Fault Refusal :=
  exRun (.tnot v) (fun e => e.setTv v (~~~(e.tv v))) s

def execWr (v : BitVec 1) (s : State) : Outcome State Fault Refusal :=
  exRun (.wr v) (fun e => e.writeTagged (e.tv v)) s

def execWrn (v : BitVec 1) (s : State) : Outcome State Fault Refusal :=
  exRun (.wrn v) (fun e => e.writeTagged (~~~(e.tv v))) s

def execTsave (f : BitVec 2) (s : State) : Outcome State Fault Refusal :=
  exRun (.tsave f) (fun e => { e with tag2 := Executor.combine f e.tag2 e.tag }) s

def execTload (f : BitVec 2) (s : State) : Outcome State Fault Refusal :=
  exRun (.tload f) (fun e => { e with tag := Executor.combine f e.tag e.tag2 }) s

def execTshf (v d : BitVec 1) (n : BitVec 8) (s : State) : Outcome State Fault Refusal :=
  exRun (.tshf v d n) (fun e => e.setTv v (if d = 1 then e.tv v >>> n.toNat else e.tv v <<< n.toNat)) s

def execTcnt (v : BitVec 1) (j : BitVec 3) (s : State) : Outcome State Fault Refusal :=
  exRun (.tcnt v j) (fun e =>
    e.setResp j (BitVec.ofNat 32 ((List.range 256).filter (fun w => (e.tv v).getLsbD w)).length)) s

def execTfst (v : BitVec 1) (j : BitVec 3) (s : State) : Outcome State Fault Refusal :=
  exRun (.tfst v j) (fun e => e.setResp j (match Executor.first (e.tv v) with
    | some w => BitVec.ofNat 32 w
    | none => 0xFFFFFFFF)) s

def execRdw (j : BitVec 3) (w : BitVec 8) (s : State) : Outcome State Fault Refusal :=
  exRun (.rdw j w) (fun e => e.setResp j (e.word w.toNat)) s

def execRdwF (j : BitVec 3) (v : BitVec 1) (s : State) : Outcome State Fault Refusal :=
  exRun (.rdwF j v) (fun e => e.setResp j (match Executor.first (e.tv v) with
    | some w => e.word w
    | none => 0)) s

/-! ## Transfer slots (R135, R136, R200, R205) -/

def bankBit (b : Nat) : BitVec 64 := 1#64 <<< b

/-- The writes of a slot: at first the zero that every executor has seen. -/
def slotWrites (c : Channel) (b : Nat) : List SlotWrite :=
  match sget [] c.slots b with
  | [] => [{ x := 0, seen := BitVec.allOnes 64, pub := true, now := false }]
  | l => l

/-- Those that executor b may read: the newest that it has seen, and the later ones. -/
def slotFrom (b : Nat) (l : List SlotWrite) : List SlotWrite :=
  (l.reverse.takeWhile (fun w => w.seen &&& bankBit b = 0)).reverse |> fun later =>
    l.drop (l.length - later.length - 1)

/-- Change every write of every slot, by the slot. -/
def Channel.mapSlots (c : Channel) (f : Nat → SlotWrite → SlotWrite) : Channel :=
  { c with slots := c.slots.map (fun p => (p.1, p.2.map (f p.1))) }

/-- Executor b may no longer read what is older than the writes that satisfy p. -/
def Channel.showSlots (c : Channel) (b : Nat) (p : Nat → SlotWrite → Bool) : Channel :=
  c.mapSlots (fun k w => if p k w then { w with seen := w.seen ||| bankBit b } else w)

/-- slot[own bank] := latch[w .. w+7]. -/
def execXout (w : BitVec 8) (s : State) : Outcome State Fault Refusal :=
  exAct (.xout w) (fun s =>
    let ch := bankChan s.bank
    let b := bankPlace s.bank
    let e := s.executor s.bank
    let x := BitVec.ofNat 256 ((List.range 8).foldr (fun i a => (e.word (w.toNat + i)).toNat + 2 ^ 32 * a) 0)
    let c := s.chan ch
    let l := slotWrites c b ++ [{ x := x, seen := bankBit b, pub := false, now := true }]
    -- what no executor may read any more goes
    let l := (l.reverse.takeWhile (fun w => w.seen ≠ BitVec.allOnes 64)).length |> fun n => l.drop (l.length - n - 1)
    s.setChan ch { c with slots := sset [] c.slots b l }) s

/-- latch[w .. w+7] := slot[b]. The XOUTs of this advance, and what their executors have seen, are seen (R136, R188, R205); of the
writes that may then be read, which one is, is free (R205, R367; log 92). -/
def execXin (b : BitVec 6) (w : BitVec 8) (s : State) : Outcome State Fault Refusal :=
  exAct (.xin b w) (fun s =>
    let ch := bankChan s.bank
    let own := bankPlace s.bank
    let c := s.chan ch
    let now := c.slots.foldl (fun m p => if p.2.any (fun w => w.now) then m ||| bankBit p.1 else m) 0
    let c := c.showSlots own (fun _ w => w.seen &&& now ≠ 0)
    let from_ := slotFrom own (slotWrites c b.toNat)
    let (free, s) : W64 × State := if from_.length ≤ 1 then (0, s) else s.fresh
    let x := from_.getD (free.toNat % from_.length) { x := 0, seen := 0, pub := false, now := false }
    let c := c.showSlots own (fun k w => k = b.toNat && w = x)
    (s.setChan ch c).setExecutor s.bank ((List.range 8).foldl (fun e i =>
      e.setWord (w.toNat + i) ((x.x >>> (32 * i)).setWidth 32)) (s.executor s.bank))) s

/-- Lines of the home L2 that lie in rows an executor has stored since its last REL.DEVICE. -/
def inStored (ch bank : Nat) (stored : List Nat) (l : Line) : Bool :=
  l.inDeep ch (some bank) && stored.contains (Flat.row l.flat)

/-- Release of an executor (R143); the closing add of the advance is its released write (R203). -/
def State.exRelease (s : State) (scope : BitVec 2) : State :=
  let ch := bankChan s.bank
  let b := bankPlace s.bank
  let e := s.executor s.bank
  if scope = 2 then
    let s := s.dropL2 (dieOfChannel ch) (fun l =>
      if e.stored.length > 256 then l.inDeep ch (some b) else inStored ch b e.stored l)
    s.setExecutor s.bank { e with stored := [], relNow := true, relScope := scope }
  else s.setExecutor s.bank { e with relNow := true, relDeep := true, relScope := scope }

/-- The home L2 writes lines onward for a command: the channel takes them although it serves no ordinary request (R143). -/
def State.flushNow (s : State) (d : Nat) (p : Line → Bool) : State :=
  ((s.die d).l2.filter p).foldl (fun s l =>
    let s := s.lineOut l
    s.setDie d ((s.die d).wrote l)) s

/-- Acquire of an executor (R143); what releases of earlier advances have published in the slots of its scope is seen (R200, R205). -/
def State.exAcquire (s : State) (scope : BitVec 2) : State :=
  let ch := bankChan s.bank
  let b := bankPlace s.bank
  let s := s.setChan ch ((s.chan ch).showSlots b (fun k w => w.pub && (scope ≠ 0 || k = b)))
  if scope = 2 then s.flushNow (dieOfChannel ch) (fun l => l.inDeep ch (some b) && l.dirty ≠ 0) else s

def execExecRel (scope : BitVec 2) (s : State) : Outcome State Fault Refusal :=
  exAct (.execRel scope) (fun s => s.exRelease scope) s

def execExecAcq (scope : BitVec 2) (s : State) : Outcome State Fault Refusal :=
  exAct (.execAcq scope) (fun s => s.exAcquire scope) s

def execExecFence (scope : BitVec 2) (s : State) : Outcome State Fault Refusal :=
  exAct (.execFence scope) (fun s => (s.exRelease scope).exAcquire scope) s

def execLoop (t : BitVec 8) (s : State) : Outcome State Fault Refusal :=
  .next <|
    let e := s.executor s.bank
    s.setExecutor s.bank (if e.lc ≠ 0 then { e with lc := e.lc - 1, pc := t } else { e with pc := e.pc + 1 })

def execSetc (n : BitVec 16) (s : State) : Outcome State Fault Refusal :=
  exRun (.setc n) (fun e => { e with lc := n }) s

def execHalt (s : State) : Outcome State Fault Refusal :=
  .next (s.setExecutor s.bank { s.executor s.bank with st := .halted })

def execRtag (v : BitVec 1) (s : State) : Outcome State Fault Refusal :=
  exRun (.rtag v) (fun e => { e with resp := e.tv v }) s

/-! ## The advance (R136) -/

/-- Device banks of a channel. -/
def banksOf (ch : Nat) : List Nat := (List.range 64).map (fun b => 64 * ch + b)

/-- The program word at an executor's PC. -/
def State.exWord (s : State) (n : Nat) : W32 := sget 0 (s.chan (bankChan n)).prog (s.executor n).pc.toNat

def isXin (w : W32) : Bool := w >>> 26 = 0x13

/-- The oldest queued command of a channel. -/
def State.headCmd (s : State) (ch : Nat) : Option (Op × BankCmd) :=
  match (s.chan ch).cmds with
  | [] => none
  | id :: _ =>
    match s.op id with
    | some o => match o.kind with
      | .bank _ c _ => some (o, c)
      | _ => none
    | none => none

/-- A command has been performed: it leaves the queue and retires from BX. -/
def State.endCmd (s : State) (ch : Nat) (o : Op) : State :=
  (s.setChan ch { s.chan ch with cmds := (s.chan ch).cmds.drop 1 }).finishOp o

/-- Start an advance: the inboxes, IDLE executors run; then every RUNNING executor's instruction, each XIN after the others
(R136). -/
def State.openAdvance (s : State) (ch : Nat) (inbox : Option (BitVec 256)) : State :=
  let s := (banksOf ch).foldl (fun s n =>
    let e := s.executor n
    let e := match inbox with
      | some x => if e.st = ExState.faulted then e else { e with inbox := x }
      | none => e
    s.setExecutor n { e with st := if e.st = ExState.idle then ExState.running else e.st, relNow := false, relDeep := false }) s
  let run := (banksOf ch).filter (fun n => (s.executor n).st = .running)
  { s with advOpen := some ch,
           advTodo := run.filter (fun n => !isXin (s.exWord n)) ++ run.filter (fun n => isXin (s.exWord n)) }

/-- What the executors that released in an advance have seen of the slots of their scopes is published (R200, R205). -/
def State.publishSlots (s : State) (ch : Nat) (rel : List Nat) : State :=
  s.setChan ch ((s.chan ch).mapSlots (fun k w =>
    { w with now := false, pub := w.pub || rel.any (fun n =>
      w.seen &&& bankBit (bankPlace n) ≠ 0 && ((s.executor n).relScope ≠ 0 || k = bankPlace n)) }))

/-- End an advance: an add to ADV for each executor that released (R203), the home L2's drops for deep releases (R204), RESP for an
XREAD (R136). -/
def State.closeAdvance (s : State) (ch : Nat) : State :=
  let rel := (banksOf ch).filter (fun n => (s.executor n).relNow)
  let s := s.publishSlots ch rel
  let s := s.setChan ch { s.chan ch with adv := (s.chan ch).adv + BitVec.ofNat 64 rel.length }
  let s := (rel.filter (fun n => (s.executor n).relDeep)).foldl (fun s n =>
    s.dropL2 (dieOfChannel ch) (fun l => l.dirty = 0 && inStored ch (bankPlace n) (s.executor n).stored l)) s
  let s := { s with advOpen := none, advTodo := [] }
  match s.headCmd ch with
  | some (o, .xread sd b) =>
    let e := s.executor (64 * ch + b)
    let x := if e.st = .faulted then BitVec.allOnes 256 else e.resp
    let c := s.cv o.core o.cslot
    let sregs := (List.range 4).foldl (fun a j => sset 0 a (sd + j) ((x >>> (64 * j)).setWidth 64)) c.sregs
    (if c.st = .absent then s else s.setCv o.core o.cslot { c with sregs := sregs }).endCmd ch o
  | some (o, _) => s.endCmd ch o
  | none => s

/-- R136: the channel takes its oldest queued command; while an advance is open, or outside COMPUTE and EXITING, it takes
none. -/
def execAdvance (ch : Nat) (s : State) : Outcome State Fault Refusal :=
  .next <|
    if s.advOpen.isSome || !((s.chan ch).mode = .compute || (s.chan ch).mode = .exiting) then s
    else match s.headCmd ch with
      | none => s
      | some (o, .xprog n) =>
        let c := s.chan ch
        let prog := (List.range n).foldl (fun p i => sset 0 p i ((sget 0 o.vals i).setWidth 32)) c.prog
        (s.setChan ch { c with prog := prog }).endCmd ch o
      | some (_, .xcol x) => s.openAdvance ch (some x)
      | some (_, .xread _ _) => s.openAdvance ch none

/-- Every executor and the rest of R135's state of a channel zeroed. -/
def State.zeroExecutors (s : State) (ch : Nat) : State :=
  let s := { s with execs := s.execs.filter (fun p => bankChan p.1 ≠ ch),
                    parks := s.parks.filter (fun p => !(p.srckind = 4 && bankChan p.srcid = ch)) }
  s.setChan ch { s.chan ch with prog := [], slots := [] }

end Sys2Proof.Machine
end

