-- ==== Sys2Proof/Machine/Memory.lean ====
section
/-! DEFINITION. Memory instructions, class 0x5 (R263 to R276). -/

namespace Sys2Proof.Machine

open Host (Outcome)

/-! ## Addresses and values -/

/-- addr(L) (R263). -/
def State.laneVa (s : State) (f : Fields) (L : Nat) : W64 :=
  let base := match f.a with
    | .s n => s.sreg n.toNat
    | a => s.src64 false a L
  let off := match f.b with
    | .imm x => BitVec.ofInt 64 x.toInt
    | b => (s.src32 .int false b L).signExtend 64
  base + off

/-- base(L) alone, of the atomics (R270). -/
def State.laneBase (s : State) (f : Fields) (L : Nat) : W64 :=
  match f.a with
  | .s n => s.sreg n.toNat
  | a => s.src64 false a L

/-- o(L) of LDL, STL, LDW and STW, an unsigned 32-bit value (R267). -/
def State.laneOff (s : State) (f : Fields) (L : Nat) : Nat :=
  let off := match f.b with
    | .imm x => BitVec.ofInt 32 x.toInt
    | _ => 0
  (s.src32 .int true f.a L + off).toNat

/-- The low 8·w bits of the value registers of a lane (R266). -/
def State.laneValue (s : State) (r w L : Nat) : BitVec 128 :=
  if w ≤ 4 then ((s.me.reg r L).setWidth 128) &&& BitVec.ofNat 128 (2 ^ (8 * w) - 1)
  else if w = 8 then (s.me.reg64 r L).setWidth 128
  else ((s.me.reg64 (r + 2) L).append (s.me.reg64 r L)).setWidth 128

/-- A scope at which a strong access is performed at the home (R187). -/
def atHome (scope : Nat) : Bool := scope = 1 || scope = 3 || scope = 4 || scope = 5

/-- A strong store is the released write of the fences before it (R194); a later command's write is not (R203). -/
def State.strongStore (s : State) : State := s.setMe { s.me with relDue := false }

def State.partLanes (s : State) (f : Fields) : List Nat := lanesBelow s.me.width (s.part f)

/-- A plain request of one lane. -/
def mkReq (L : Nat) (va : W64) (w : Nat) (act : Act) : Req :=
  { lane := L, va := va, w := w, home := false, sys := false, deep := false, priv := false, off := 0, strong := false, fill := false,
    act := act }

/-- A strong request of one lane at a scope (R187). -/
def mkStrong (L : Nat) (va : W64) (w scope : Nat) (act : Act) : Req :=
  { mkReq L va w act with home := atHome scope, sys := scope = 5, strong := true }

/-! ## Loads and stores (R266) -/

/-- A request of LD or ST: strong in the scoped forms. -/
def ldstReq (f : Fields) (L : Nat) (va : W64) (w : Nat) (act : Act) : Req :=
  if modBits f.m 5 1 = 1 then mkStrong L va w (modBits f.m 6 3) act else mkReq L va w act

def execLd (f : Fields) (s : State) : Outcome State Fault Refusal :=
  issue (.ld f) f false false
    (fun s =>
      let w := widthBytes (modBits f.m 0 3)
      s.laneOp f .LD (.loadV f.d.vreg w (modBits f.m 9 1 = 1)) []
        ((s.partLanes f).map (fun L => [ldstReq f L (s.laneVa f L) w .rd]))) s

def execSt (f : Fields) (s : State) : Outcome State Fault Refusal :=
  issue (.st f) f false false
    (fun s =>
      let w := widthBytes (modBits f.m 0 3)
      let s := if modBits f.m 5 1 = 1 then s.strongStore else s
      s.laneOp f .ST .store []
        ((s.partLanes f).map (fun L =>
          [ldstReq f L (s.laneVa f L) w (.wr (s.laneValue f.d.vreg w L))]))) s

/-! ## Private memory (R74, R267) -/

/-- PRIVBASE of the issuing caravan (R74). -/
def State.privBase (s : State) : W64 :=
  s.myCtx.privarea + BitVec.ofNat 64 (2 ^ 22 * (16 * s.cur.core + s.cur.slot))

/-- VA of private byte o of lane L (R74). -/
def State.privVa (s : State) (o L : Nat) : W64 :=
  s.privBase + BitVec.ofNat 64 (o / 4 * (4 * s.me.width) + 4 * L + o % 4)

/-- Why a private access of w bytes at o fails before any address is looked at (R267). -/
def State.privBad (s : State) (w o L : Nat) : Option (Nat × LaneCause × W64) :=
  if o % w ≠ 0 then some (L, .misaligned, s.privVa o L)
  else if o + w > 4096 || s.myCtx.privarea = 0 then some (L, .outOfRange, s.privVa o L)
  else none

/-- The requests of a private access: one for each 4-byte word that it touches. -/
def State.privReqs (s : State) (w o L : Nat) (act : Nat → Act) : List Req :=
  if w ≤ 4 then [{ mkReq L (s.privVa o L) w (act 0) with priv := true }]
  else (List.range (w / 4)).map (fun j =>
    { mkReq L (s.privVa (o + 4 * j) L) 4 (act j) with priv := true, off := 4 * j })

/-- LDL and STL over the lanes that take part. -/
def State.privOp (s : State) (f : Fields) (cls : Cls) (kind : OpKind) (w : Nat) (act : Nat → Nat → Act) : State :=
  let ls := s.partLanes f
  let bad := ls.filterMap (fun L => s.privBad w (s.laneOff f L) L)
  let good := ls.filter (fun L => (s.privBad w (s.laneOff f L) L).isNone)
  s.laneOp f cls kind bad (good.map (fun L => s.privReqs w (s.laneOff f L) L (act L)))

def execLdl (f : Fields) (s : State) : Outcome State Fault Refusal :=
  issue (.ldl f) f false false
    (fun s =>
      let w := widthBytes (modBits f.m 0 3)
      s.privOp f .LD (.loadV f.d.vreg w (modBits f.m 9 1 = 1)) w (fun _ _ => .rd)) s

def execStl (f : Fields) (s : State) : Outcome State Fault Refusal :=
  issue (.stl f) f false false
    (fun s =>
      let w := widthBytes (modBits f.m 0 3)
      s.privOp f .ST .store w (fun L j =>
        .wr (if w ≤ 4 then s.laneValue f.d.vreg w L else ((s.laneValue f.d.vreg w L) >>> (32 * j)) &&& 0xFFFFFFFF))) s

/-! ## The core window (R268) -/

/-- LDW and STW over the lanes that take part; with WINAREA = 0 every one fails. -/
def State.windowOp (s : State) (f : Fields) (cls : Cls) (kind : OpKind) (w : Nat) (act : Nat → Act) : State :=
  let ls := s.partLanes f
  let va (L : Nat) : W64 := s.myCtx.winarea + BitVec.ofNat 64 (2 ^ 22 * modBits f.m 6 3 + s.laneOff f L)
  if s.myCtx.winarea = 0 then s.laneOp f cls kind (ls.map (fun L => (L, LaneCause.outOfRange, va L))) []
  else s.laneOp f cls kind [] (ls.map (fun L => [mkReq L (va L) w (act L)]))

def execLdw (f : Fields) (s : State) : Outcome State Fault Refusal :=
  issue (.ldw f) f false false
    (fun s =>
      let w := widthBytes (modBits f.m 0 3)
      s.windowOp f .LD (.loadV f.d.vreg w (modBits f.m 9 1 = 1)) w (fun _ => .rd)) s

def execStw (f : Fields) (s : State) : Outcome State Fault Refusal :=
  issue (.stw f) f false false
    (fun s =>
      let w := widthBytes (modBits f.m 0 3)
      s.windowOp f .ST .store w (fun L => .wr (s.laneValue f.d.vreg w L))) s

/-- R269. -/
def execLdr (f : Fields) (s : State) : Outcome State Fault Refusal :=
  issue (.ldr f) f false false
    (fun s =>
      let w := widthBytes (modBits f.m 0 3)
      let va := s.sreg f.a.sreg + BitVec.ofInt 64 f.b.immS
      s.laneOp f .LD (.loadR f.d.vreg w (modBits f.m 9 1 = 1) (s.part f)) []
        [[mkReq (lowest s.me.width (s.part f)) va w .rd]]) s

/-! ## Atomics (R270, R271) -/

namespace Fields_
def ord (f : Fields) : Nat := modBits f.m 8 2
def scope (f : Fields) : Nat := modBits f.m 5 3
def op (f : Fields) : Nat := modBits f.m 2 3
def t (f : Fields) : Nat := modBits f.m 0 2
end Fields_

/-- Bytes of an atomic. -/
def atomBytes (t : Nat) : Nat := if t ≥ 2 then 8 else 4

/-- The value operand of lane L: imm_u for the U types, else imm_s. -/
def State.atomValue (s : State) (f : Fields) (o : Operand) (L : Nat) : BitVec 64 :=
  let t := modBits f.m 0 2
  if t ≥ 2 then s.src64 (t = 3) o L else (s.src32 .int (t = 1) o L).setWidth 64

/-- The old destination, as CAS compares it. -/
def State.atomOld (s : State) (f : Fields) (L : Nat) : BitVec 64 :=
  if modBits f.m 0 2 ≥ 2 then s.me.reg64 f.d.vreg L else (s.me.reg f.d.vreg L).setWidth 64

/-- The acquire that is joined to the operation just issued: at once when every lane has been performed, else when it is
(R271). -/
def State.joinAcquire (s : State) (op scope : Nat) : State :=
  match s.op op with
  | none => s.acquire scope none
  | some o =>
    if o.served then s.acquire scope none
    else s.setMe { s.me with stall := .acquireOp op scope 0 }

/-- An atomic: its release, the accesses, its acquire. -/
def State.atomOp (s : State) (f : Fields) (cls : Cls) (kind : OpKind) (act : State → Nat → Act) : State :=
  let ord := Fields_.ord f
  let scope := Fields_.scope f
  let go (s : State) : State :=
    let op := s.nextOp
    let s := s.strongStore.laneOp f cls kind [] ((s.partLanes f).map (fun L =>
      [mkStrong L (s.laneBase f L) (atomBytes (Fields_.t f)) scope (act s L)]))
    if ord = 1 || ord = 3 then s.joinAcquire op scope else s
  if ord ≥ 2 then s.withRelease scope go else go s

def execAtom (f : Fields) (s : State) : Outcome State Fault Refusal :=
  issue (.atom f) f false false
    (fun s => s.atomOp f .LD (.loadV f.d.vreg (atomBytes (Fields_.t f)) false)
      (fun s L => .rmw (Fields_.op f) (Fields_.t f) (s.atomValue f f.b L) none)) s

def execRed (f : Fields) (s : State) : Outcome State Fault Refusal :=
  issue (.red f) f false false
    (fun s => s.atomOp f .ST .store (fun s L => .rmw (Fields_.op f) (Fields_.t f) (s.atomValue f f.b L) none)) s

def execCas (f : Fields) (s : State) : Outcome State Fault Refusal :=
  issue (.cas f) f false false
    (fun s => s.atomOp f .LD (.loadV f.d.vreg (atomBytes (Fields_.t f)) false)
      (fun s L => .rmw 6 (Fields_.t f) (s.atomValue f f.b L) (some (s.atomOld f L)))) s

/-! ## Metadata, prefetch, cache control (R272 to R274) -/

def execMdld (f : Fields) (s : State) : Outcome State Fault Refusal :=
  issue (.mdld f) f false false
    (fun s => s.laneOp f .LD (.loadV f.d.vreg 4 false) []
      ((s.partLanes f).map (fun L => [mkReq L (s.laneVa f L) 4 .mdrd]))) s

def execMdst (f : Fields) (s : State) : Outcome State Fault Refusal :=
  issue (.mdst f) f false false
    (fun s => s.laneOp f .ST .store []
      ((s.partLanes f).map (fun L => [mkReq L (s.laneVa f L) 4 (.mdwr (s.me.reg f.d.vreg L))]))) s

/-- R273: a prefetch may be dropped at any point without effect, and here it always is. -/
def execPrf (f : Fields) (s : State) : Outcome State Fault Refusal :=
  issue (.prf f) f false false (fun s => s.advance) s

/-- CCTL of the line that holds a VA (R274). -/
def State.cacheControl (s : State) (va : Nat) (l2 drop : Bool) : State :=
  let k := s.cur.core
  let asid := s.myCtx.asid
  let s := s.cleanL1 k asid (va / 128)
  let s := if l2 then s.l2LineOut s.me.ctx (chanOfVa va) va drop else s
  if drop then s.dropL1 k asid (va / 128) else s

def execCctl (f : Fields) (s : State) : Outcome State Fault Refusal :=
  issue (.cctl f) f false false
    (fun s =>
      let vas := (s.partLanes f).map (fun L => (L, s.laneVa f L))
      let bad := (vas.filter (fun p => p.2.toNat ≥ 2 ^ 57)).map (fun p => (p.1, LaneCause.outOfRange, p.2))
      let s := (vas.filter (fun p => p.2.toNat < 2 ^ 57)).foldl
        (fun s p => s.cacheControl p.2.toNat (modBits f.m 2 1 = 1) (modBits f.m 0 2 = 1)) s
      s.laneOp f .ST .store bad []) s

/-! ## Operand-queue loads and regions (R275, R276) -/

/-- A queue of the issuing caravan. -/
def State.queueOf (s : State) (q : Nat) : OpQueue := s.me.queues.getD q (OpQueue.fresh true)
def State.setQueueOf (s : State) (q : Nat) (x : OpQueue) : State := s.setMe { s.me with queues := s.me.queues.set q x }

/-- Where slot i of queue q of a caravan lies in the core store (R89; log 20). -/
def Caravan.queueAt (c : Caravan) (q i : Nat) : Nat := c.rbase + 4 * c.width * (c.nregs + q * c.qdepth + i % c.qdepth)

/-- Reserve the next slot of a queue (R90). -/
def State.reserveSlot (s : State) (q : Nat) (landed : Bool) : State :=
  let x := s.queueOf q
  s.setQueueOf q { x with ents := x.ents ++ [{ seq := x.nextSeq, landed := landed }], nextSeq := x.nextSeq + 1 }

/-- Word L of the entry with a push number lands in its slot, where the queue still has it (R90, R91). -/
def State.landWord (s : State) (k slot q seq L : Nat) (x : W32) : State :=
  let c := s.cv k slot
  let y := c.queues.getD q (OpQueue.fresh true)
  match y.ents.findIdx? (fun e => e.seq = seq) with
  | some i => s.storePut k (c.queueAt q (y.head + i) + 4 * L) 4 x.toNat
  | none => s

/-- The data of an entry has landed (R90). -/
def Caravan.entryLanded (c : Caravan) (q seq : Nat) : Caravan :=
  match c.queues[q]? with
  | none => c
  | some y =>
    let ents := y.ents.map (fun e => if e.seq = seq then { e with landed := true } else e)
    { c with queues := c.queues.set q { y with ents := ents } }

/-- The operation added last completes at its issue: it is counted, and retires in its turn (R73, R88, R91). -/
def State.finishLast (s : State) : State :=
  match s.op (s.nextOp - 1) with
  | some o => s.finishOp o
  | none => s

def execLdq (f : Fields) (s : State) : Outcome State Fault Refusal :=
  issue (.ldq f) f false true
    (fun s =>
      let q := f.d.qNum
      let x := s.queueOf q
      let w := widthBytes (modBits f.m 0 3)
      let b := s.sreg f.a.sreg + BitVec.ofInt 64 f.b.immS
      let kind : OpKind := .ldq q x.nextSeq w (modBits f.m 9 1 = 1)
      if x.closed then (s.addOp f .LD kind [] [] [] []).finishLast.advance
      else if x.ents.length ≥ s.me.qdepth then s.block (.queueSlot q) 0
      else
        let a := serve s (s.user s.nextOp) false [] ((List.range s.me.width).map (fun L =>
          [mkReq L (b + BitVec.ofNat 64 (w * L)) w .rd]))
        let s := a.s
        match a.causes, a.parks with
        | (_, c, _) :: _, _ => s.sliceTrap s.cur.core s.cur.slot c.code
        | [], (r, level) :: _ => s.parkSlice s.cur.core s.cur.slot s.pc 0 r.va.toNat level .sliceReissue
        | [], [] =>
          let op := s.nextOp
          let s := s.addOp f .LD kind a.todo a.remote [] a.vals
          (((s.reserveSlot q false).sendRequests op s.me.ctx a.remote)).advance) s

/-- Bytes of the operand buffer that the caravans of a core hold, each at least two slots (R70). -/
def bufferUsed (s : State) (k : Nat) (except_ : Nat) : Nat :=
  (List.range 16).foldl (fun a n =>
    let c := s.cv k n
    if c.st = .absent then a else a + 4 * c.width * (if n = except_ then 2 else max 2 c.staged.length)) 0

/-- REGION (R70, R71, R276). -/
def State.region (s : State) (ks : List Nat) : State :=
  let c := s.me.flushStaged
  let free := (131072 - bufferUsed s s.cur.core s.cur.slot) / (4 * c.width)
  s.setMe (c.stage (ks.take (2 + free)))

def execRegion (f : Fields) (s : State) : Outcome State Fault Refusal :=
  issue (.region f) f false true
    (fun s => (s.region (f.d.rangeRegs ++ f.a.rangeRegs ++ f.b.rangeRegs)).advance) s

end Sys2Proof.Machine
end

