-- ==== Sys2Proof/Machine/Sync.lean ====
section
/-! DEFINITION. Ordering, barriers, parties, spawn and accumulator granules, class 0x6 (R277 to R286). -/

namespace Sys2Proof.Machine

open Host (Outcome)

/-! ## Fences (R278, R279) -/

/-- Scopes whose release drains the dirty-line FIFO (R196). -/
def drains (scope : Nat) : Bool := scope = 1 || scope = 3 || scope = 4 || scope = 5

/-- Insert the marker of a release of the issuing caravan (R197). -/
def State.insertMarker (s : State) : State :=
  let c := s.core s.cur.core
  s.setCore s.cur.core { c with fifo := c.fifo.filter (fun e => e != FifoEnt.marker s.cur.slot) ++ [FifoEnt.marker s.cur.slot] }

/-- FENCE.CARAVAN returns the operand-buffer slots beyond the guaranteed two, once each written lane is copied (R70, R71). -/
def Caravan.returnSlots (c : Caravan) : Caravan :=
  let d := c.flushStaged
  let keep := c.staged.take 2
  { d with staged := keep, slots := c.slots.filter (fun p => keep.contains (p.1 / 1024)),
           swr := c.swr.filter (fun p => keep.contains p.1) }

/-- A release fence at DEVICE or SYSTEM scope whose released write is still to come (R203). -/
def State.noteRelease (s : State) (scope : Nat) : State :=
  if scope = 4 || scope = 5 then s.setMe { s.me with relDue := true } else s

/-- A fence: the release, the acquire, or both, at a scope. A release waits for the caravan's own accesses, an acquire for its loads,
which may be its acquiring read (R195, R196). The caravan issues nothing further until it is complete. -/
def State.fence (s : State) (scope : Nat) (deep : Option (Nat × Option Nat)) (rel acq : Bool) : State :=
  let s := if scope = 0 then s.setMe s.me.returnSlots else s
  if rel && s.memPending then s.block .release 0
  else if acq && s.readPending then s.block .acquire 0
  else if rel && drains scope then
    let s := s.insertMarker.noteRelease scope
    (s.setMe { s.me with stall := .release scope acq }).advance
  else
    let s := if rel then s.release scope deep else s
    if rel && deepLeft s deep then s.block .release 0
    else (if acq then s.acquire scope deep else s).advance

/-- The deep scope that an operand names; one that names none raises RESOURCE (R201). -/
def State.withDeep (s : State) (x : Operand) (scope : Nat) (go : Option (Nat × Option Nat) → State) : State :=
  if scope < 6 then go none
  else match deepScope s s.me.ctx s.cur.core (scope = 7) (s.sreg x.sreg) with
    | none => s.raiseCv .resource
    | some d => go (some d)

def execFence (f : Fields) (s : State) : Outcome State Fault Refusal :=
  issue (.fence f) f false true
    (fun s =>
      let scope := modBits f.m 6 3
      let kind := modBits f.m 0 2
      s.withDeep f.a scope (fun d =>
        s.fence scope d (kind ≠ 1) (kind ≠ 2))) s

/-- The request of the joined access of REL.W or ACQ.W: performed where R187 places it, or at the channel point. -/
def joinedReq (L : Nat) (va : W64) (w scope : Nat) (act : Act) : Req :=
  { mkStrong L va w scope act with deep := scope ≥ 6 }

/-- The joined access waits at its channel or at another node: an operation that no counter counts and no token names. -/
def State.joinedWait (s : State) (kind : OpKind) (todo remote : List Req) (scope : Nat) (addr : W64) : State :=
  let id := s.nextOp
  let f : Fields := { g := { pred := 63, neg := false }, h := { stall := 0, setv := false, setk := 0, wait := 0 },
                      d := .raw 0, a := .raw 0, b := .raw 0, m := 0 }
  let s := (s.addOp f .sync kind todo remote [] []).sendRequests id s.me.ctx remote
  s.setMe { s.me with stall := .acquireOp id scope addr }

/-- The store of REL.W, once its release has completed; `pc`: the instruction. -/
def State.joinedStore (s : State) (pc : W64) (r : Req) : State :=
  let k := s.cur.core
  let slot := s.cur.slot
  match s.perform (s.user s.nextOp) r with
  | (s, .ok _) => s
  | (s, .busy) => s.joinedWait .storeS [r] [] 0 0
  | (s, .remote) => s.joinedWait .storeS [] [r] 0 0
  | (s, .fill) => s.joinedWait .storeS [] [{ r with fill := true }] 0 0
  | (s, .cause c) => s.raiseAll k slot pc pc s.me.mask c r.va
  | (s, .park level) => (s.setPc pc).parkCaravan k slot pc 1 [(r.lane, r.va.toNat, level)] .reissue

def execRel (f : Fields) (s : State) : Outcome State Fault Refusal :=
  issue (.rel f) f false true
    (fun s =>
      let scope := modBits f.m 6 3
      s.withDeep f.b scope (fun d =>
        if modBits f.m 9 1 = 0 then s.fence scope d true false
        else
          let s := if scope = 0 then s.setMe s.me.returnSlots else s
          if s.memPending then s.block .release 0
          else
            let w := widthBytes (modBits f.m 0 2)
            let va := s.sreg f.a.sreg
            let r := joinedReq s.lowLane va w scope (.wr ((s.sreg f.d.sreg).setWidth 128))
            match (s.perform (s.user s.nextOp) r).2 with
            | .cause c => s.advance.raiseAll s.cur.core s.cur.slot s.pc s.pc s.me.mask c va
            | .park level => s.parkCaravan s.cur.core s.cur.slot s.pc 1 [(r.lane, va.toNat, level)] .reissue
            | _ =>
              if drains scope then
                let s := s.insertMarker
                (s.strongStore.setMe { s.strongStore.me with stall := .releaseStore scope va (s.sreg f.d.sreg) w }).advance
              else
                let t := s.strongStore.release scope d
                if deepLeft t d then (s.release scope d).block .release 0 else t.advance.joinedStore s.pc r)) s

def execAcq (f : Fields) (s : State) : Outcome State Fault Refusal :=
  issue (.acq f) f false true
    (fun s =>
      let scope := modBits f.m 6 3
      s.withDeep f.b scope (fun d =>
        if modBits f.m 9 1 = 0 then s.fence scope d false true
        else
          let s := if scope = 0 then s.setMe s.me.returnSlots else s
          let w := widthBytes (modBits f.m 0 2)
          let sx := modBits f.m 2 1 = 1
          let pc := s.pc
          let r := joinedReq s.lowLane (s.sreg f.a.sreg) w scope .rd
          let addr := if scope ≥ 6 then s.sreg f.b.sreg else 0
          let kind : OpKind := .loadS f.d.sreg w sx false
          match s.perform (s.user s.nextOp) r with
          | (s, .ok x) => ((s.setS f.d.sreg (if sx then BitVec.ofInt 64 (signed (8 * w) x) else BitVec.ofNat 64 x)).acquire scope d).advance
          | (s, .busy) => (s.joinedWait kind [r] [] scope addr).advance
          | (s, .remote) => (s.joinedWait kind [] [r] scope addr).advance
          | (s, .fill) => (s.joinedWait kind [] [{ r with fill := true }] scope addr).advance
          | (s, .cause c) => s.advance.raiseAll s.cur.core s.cur.slot pc pc s.me.mask c r.va
          | (s, .park level) =>
            s.parkCaravan s.cur.core s.cur.slot pc 0 [(r.lane, r.va.toNat, level)] .reissue)) s

/-! ## WAITC and MARK (R280, R281) -/

/-- The six thresholds of WAITC (R220). -/
def rawBits : Operand → Nat
  | .raw x => x.toNat
  | _ => 0

def waitcOf (f : Fields) : Wait :=
  .waitc (field (rawBits f.a) 0 6) (field (rawBits f.a) 6 6) (field (rawBits f.b) 0 6) (field (rawBits f.b) 6 6)
    (field (rawBits f.d) 0 6) (field (rawBits f.d) 6 6)

/-- Every counter of the agent is at or below its threshold; 63 places no wait. -/
def State.waitcMet (s : State) (k slot : Nat) (slice : Bool) : Wait → Bool
  | .waitc ld st cp mx cl bx =>
    [(Cls.LD, ld), (Cls.ST, st), (Cls.CP, cp), (Cls.MX, mx), (Cls.CL, cl), (Cls.BX, bx)].all
      (fun p => p.2 = 63 || s.counter k slot slice p.1 ≤ p.2)
  | _ => true

def execWaitc (f : Fields) (s : State) : Outcome State Fault Refusal :=
  issue (.waitc f) f false true
    (fun s =>
      if s.waitcMet s.cur.core s.cur.slot s.cur.slice (waitcOf f) then s.advance
      else s.block (waitcOf f) 4) s

/-- The MARK.PARTYs of a caravan for a party that are not answered (R208). -/
def marksFor (s : State) (pk pe : Nat) (m : Nat × Nat) : List Nat :=
  let made := (s.party pk pe).made
  ((s.cv m.1 m.2).marked.filter (fun x => x.1 = pk && x.2.1 = pe && x.2.2.1 = made)).map (fun x => x.2.2.2)

/-- The core and slot of a caravan by its key. -/
def placeOfKey (n : Nat) : Nat × Nat := if n < 32768 then (n / 16, n % 16) else ((n - 32768) / 16, State.leftSlot (n % 16))

/-- The caravans that a party's marks concern: its members, and those that have left it with one that is not answered (R208). -/
def markers (s : State) (pk pe : Nat) : List (Nat × Nat) :=
  let ms := (s.party pk pe).members
  ms ++ (s.cvs.map (fun p => placeOfKey p.1)).filter (fun m => !ms.contains m && !(marksFor s pk pe m).isEmpty)

/-- When every member of a party has marked, the oldest MARK.PARTY of each is answered: from then on each one's later operations
follow the others' earlier ones (R208). -/
def State.markRound (s : State) (pk pe : Nat) : State :=
  let made := (s.party pk pe).made
  let ms := (markers s pk pe).map (fun m => (m, marksFor s pk pe m))
  if ms.any (fun m => m.2.isEmpty) then s
  else ms.foldl (fun s m =>
    let c := s.cv m.1.1 m.1.2
    let n := m.2.headD 0
    s.setCv m.1.1 m.1.2 { c with
      marked := c.marked.erase (pk, pe, made, n)
      follows := c.follows ++ (ms.filter (fun x => x.1 ≠ m.1)).map (fun x => (n, x.1.1, x.1.2 % 16, x.2.headD 0)) }) s

/-- As many rounds as are complete. -/
def State.marksMet (s : State) (pk pe : Nat) : State :=
  ((markers s pk pe).flatMap (fun m => marksFor s pk pe m)).foldl (fun s _ => s.markRound pk pe) s

/-- The marks of a caravan that still order something. -/
def liveMarks (s : State) (k slot : Nat) : List Nat :=
  (s.cv k slot).marks.filter (fun n => (s.mine k slot false).any (fun o => o.id < n && reaching s o))

def liveFollows (s : State) (k slot : Nat) : List (Nat × Nat × Nat × Nat) :=
  (s.cv k slot).follows.filter (fun f => s.ops.any (fun o => o.core = f.2.1 && !o.slice &&
    (o.cslot = f.2.2.1 || o.cslot = State.leftSlot f.2.2.1) && o.id < f.2.2.2 && reaching s o))

def execMark (f : Fields) (s : State) : Outcome State Fault Refusal :=
  issue (.mark f) f false true
    (fun s =>
      let k := s.cur.core
      let slot := s.cur.slot
      let s := (s.setMe { s.me with marks := liveMarks s k slot ++ [s.nextOp], follows := liveFollows s k slot }).advance
      match s.me.party with
      | none => s
      | some (pk, pe) =>
        if modBits f.m 9 1 = 0 then s
        else
          let c := s.me
          (s.setMe { c with marked := c.marked ++ [(pk, pe, (s.party pk pe).made, s.nextOp)] }).marksMet pk pe) s

/-! ## Barriers (R282) -/

/-- The barrier that OPA names in the issuing caravan's party; RESOURCE where there is none. -/
def State.withBarrier (s : State) (f : Fields) (go : Nat → Nat → Nat → State) : State :=
  match s.me.party with
  | none => s.raiseCv .resource
  | some (pk, pe) =>
    if 16 * f.a.immU + 16 > 256 * (s.party pk pe).scrSize then s.raiseCv .resource else go pk pe f.a.immU

def execBarinit (f : Fields) (s : State) : Outcome State Fault Refusal :=
  issue (.barinit f) f false true
    (fun s => s.withBarrier f (fun pk pe b =>
      let x := barrierOf s pk pe b
      let mem := modBits f.m 9 1 = 1
      let n := (s.srcS true f.b).toNat + (if mem then (s.party pk pe).joined else 0)
      if (Bar.init x = 0 || (Bar.pend x = Bar.init x && Bar.due x = 0)) && 0 < n && n ≤ 65535 then
        (s.putBarrier pk pe b (Bar.pack 0 n n mem false false)).advance
      else s.raiseCv .resource)) s

def execBarexp (f : Fields) (s : State) : Outcome State Fault Refusal :=
  issue (.barexp f) f false true
    (fun s => s.withBarrier f (fun pk pe b =>
      let x := barrierOf s pk pe b
      if Bar.init x = 0 then s.raiseCv .resource
      else (s.advance).putBarrier pk pe b (Bar.addDue x (s.srcS true f.b).toInt))) s

def execBararv (f : Fields) (s : State) : Outcome State Fault Refusal :=
  issue (.bararv f) f false true
    (fun s => s.withBarrier f (fun pk pe b => s.withRelease 1 (fun s => s.advance.arrive pk pe b 0))) s

def execBarwait (f : Fields) (s : State) : Outcome State Fault Refusal :=
  issue (.barwait f) f false true
    (fun s => s.withBarrier f (fun pk pe b =>
      let x := barrierOf s pk pe b
      let p := (s.srcS true f.b).getLsbD 0
      if Bar.err x || Bar.init x = 0 then s.raiseCv .resource
      else if s.me.pending then s.takeTrap s.cur.core s.cur.slot 3 s.pc 0 0 0
      else if Bar.phase x ≠ p then (s.acquire 1 none).advance
      else s.block (.barrier b p) 3)) s

def execBartest (f : Fields) (s : State) : Outcome State Fault Refusal :=
  issue (.bartest f) f false true
    (fun s => s.withBarrier f (fun pk pe b =>
      let x := barrierOf s pk pe b
      let p := (s.srcS true f.b).getLsbD 0
      if Bar.err x || Bar.init x = 0 then s.raiseCv .resource
      else (s.setMe (s.me.writePred f.d.pnum s.me.mask (fun _ => Bar.phase x ≠ p))).advance)) s

/-! ## Parties (R75 to R77, R82, R283) -/

/-- Cores of the cluster of device core k. -/
def clusterOf (k : Nat) : List Nat := (List.range 8).map (clusterCore k)

/-- The party of a context with a key, in a cluster. -/
def findParty (s : State) (k c : Nat) (key : W64) : Option (Nat × Nat) :=
  (clusterOf k).findSome? (fun j =>
    ((List.range 16).find? (fun e =>
      let p := s.party j e
      p.st != .free && p.ctx = c && p.key = key)).map (fun e => (j, e)))

def coresOf (ms : List (Nat × Nat)) : BitVec 8 := ms.foldl (fun m p => m ||| (1#8 <<< placeOfCore p.1)) 0

/-- Where scratch of n 256-byte units fits in a caravan's CSREQ space beside the scratch that is there: the lowest place
(R76; log 20). -/
def scratchAt (s : State) (k lo len n : Nat) : Option Nat :=
  let used := (List.range 16).filterMap (fun e =>
    let p := s.party k e
    if p.st != .free && p.scrSize ≠ 0 then some (p.scrBase, p.scrSize) else none)
  let first := (lo + 255) / 256
  ((first :: used.map (fun u => u.1 + u.2)).filter (fun b =>
    first ≤ b && 256 * (b + n) ≤ lo + len && used.all (fun u => b + n ≤ u.1 || u.1 + u.2 ≤ b))).min?

/-- Add the issuing caravan to a party. -/
def State.enter (s : State) (pk pe : Nat) : State :=
  let p := s.party pk pe
  let ms := p.members ++ [(s.cur.core, s.cur.slot)]
  let s := s.setParty pk pe { p with members := ms, joined := p.joined + 1, cores := coresOf ms,
                                     st := if p.joined + 1 = p.expect then PartyState.formed else p.st }
  s.setMe { s.me with party := some (pk, pe) }

/-- JOIN's status word (R283). -/
def joinWord (status : Nat) (at_ : Option (Nat × Nat)) : W64 :=
  BitVec.ofNat 64 (status + match at_ with
    | some (k, e) => 2 ^ 8 * placeOfCore k + 2 ^ 11 * e
    | none => 0)

/-- JOIN by R76. -/
def State.join (s : State) (sd : Nat) (key : W64) (count size : Nat) : State :=
  let k := s.cur.core
  let out (s : State) (status : Nat) (at_ : Option (Nat × Nat)) : State := (s.setS sd (joinWord status at_)).advance
  if s.me.party.isSome then out s 5 none
  else if key = 0 then out s 6 none
  else match findParty s k s.me.ctx key with
    | some (pk, pe) => if (s.party pk pe).st = .forming then out (s.enter pk pe) 1 (some (pk, pe)) else out s 2 none
    | none =>
      if count = 0 || count > 128 then out s 6 none
      else match (List.range 16).find? (fun e => (s.party k e).st = .free), scratchAt s k s.me.csbase s.me.cslen size with
        | none, _ => out s 3 none
        | some _, none => out s 4 none
        | some e, some b =>
          if s.myCtx.st = .draining then s.block .join 0
          else
            let s := s.setParty k e { Party.zero with st := .forming, key := key, ctx := s.me.ctx, scrBase := b,
                                                      scrSize := size, expect := count, made := s.clock }
            let s := { s with mem := mzero s.mem (Flat.core k (256 * b)) (256 * size) }
            out (s.enter k e) 0 (some (k, e))

def execJoin (f : Fields) (s : State) : Outcome State Fault Refusal :=
  issue (.join f) f false true
    (fun s =>
      let x := (s.srcS true f.b).toNat
      let size := match f.b with
        | .s _ => field x 16 16
        | _ => field x 8 8
      s.join f.d.sreg (s.sreg f.a.sreg) (field x 0 8) size) s

/-- The party dissolves: scratch, barriers and granules are freed, its tiles lose their owner (R77). -/
def State.dissolve (s : State) (pk pe : Nat) : State :=
  let s := (clusterOf pk).foldl (fun s j =>
    let c := s.core j
    s.setCore j { c with
      znames := c.znames.filter (fun z => !(z.pcore = pk && z.pent = pe)),
      tiles := c.tiles.map (fun kt => if kt.2.owner = some (placeOfCore pk, pe) then (kt.1, { kt.2 with owner := none }) else kt) }) s
  s.setParty pk pe Party.zero

/-- Take a member out of its party (R77 step 2 on, R82, R208). -/
def State.leaveParty (s : State) (k slot : Nat) : State :=
  match (s.cv k slot).party with
  | none => s
  | some (pk, pe) =>
    let p := s.party pk pe
    let ms := p.members.filter (fun m => m ≠ (k, slot))
    -- one that has not marked counts as having marked when it leaves
    let late := (marksFor s pk pe (k, slot)).isEmpty && (markers s pk pe).any (fun m => !(marksFor s pk pe m).isEmpty)
    let c := s.cv k slot
    let s := s.setCv k slot { c with party := none, marked := c.marked ++ if late then [(pk, pe, p.made, s.nextOp)] else [] }
    let s := s.setParty pk pe { p with members := ms, joined := p.joined - 1, cores := coresOf ms }
    let s := (List.range (min 16 (16 * p.scrSize))).foldl (fun s b =>
      let x := barrierOf s pk pe b
      if Bar.members x then
        s.putBarrier pk pe b (Bar.pack (Bar.due x) (Bar.init x - 1) (Bar.pend x - 1) true (Bar.err x) (Bar.phase x))
      else s) s
    let s := s.marksMet pk pe
    if ms.isEmpty then s.dissolve pk pe else s

/-- CP, MX and CL of a caravan read zero (R77 step 1). -/
def State.enginesQuiet (s : State) (k slot : Nat) : Bool :=
  s.counter k slot false .CP = 0 && s.counter k slot false .MX = 0 && s.counter k slot false .CL = 0

def execLeave (f : Fields) (s : State) : Outcome State Fault Refusal :=
  issue (.leave f) f false true
    (fun s =>
      if s.me.party.isNone then s.advance
      else if s.enginesQuiet s.cur.core s.cur.slot then s.advance.leaveParty s.cur.core s.cur.slot
      else s.block .leave 0) s

/-- A party-table entry as 128 bits (R75). -/
def partyWord (p : Party) : Nat :=
  (match p.st with
    | .free => 0
    | .forming => 1
    | .formed => 2) + 2 ^ 8 * p.cores.toNat + 2 ^ 16 * p.joined + 2 ^ 24 * p.expect + 2 ^ 32 * p.scrSize +
    2 ^ 48 * p.scrBase + 2 ^ 64 * p.key.toNat

def execPartyq (f : Fields) (s : State) : Outcome State Fault Refusal :=
  issue (.partyq f) f false true
    (fun s =>
      let sel := f.a.immU
      let x := match s.me.party with
        | none => 0
        | some (pk, pe) =>
          if sel < 2 then partyWord (s.party pk pe)
          else
            let b := (sel - 2) / 2
            if 16 * b + 16 > 256 * (s.party pk pe).scrSize then 0 else barrierOf s pk pe b
      (s.setS f.d.sreg (BitVec.ofNat 64 (field x (64 * (sel % 2)) 64))).advance) s

/-! ## Spawn (R53, R284) -/

namespace SpawnEntry
def entry (x : BitVec 256) : W64 := x.setWidth 64
def aentry (x : BitVec 256) : W64 := (x >>> 64).setWidth 64
def wcode (x : BitVec 256) : Nat := field x.toNat 128 3
def vregs8 (x : BitVec 256) : Nat := field x.toNat 131 6
def nq (x : BitVec 256) : Nat := field x.toNat 137 4
def qdepth (x : BitVec 256) : Nat := field x.toNat 141 5
def csreq (x : BitVec 256) : Nat := field x.toNat 146 14
end SpawnEntry

-- Fields of a launch record (R41).
namespace LaunchRec
def entry (x : BitVec 2048) : W64 := x.setWidth 64
def aentry (x : BitVec 2048) : W64 := (x >>> 64).setWidth 64
def nlanes (x : BitVec 2048) : Nat := field x.toNat 128 32
def wcode (x : BitVec 2048) : Nat := field x.toNat 160 3
def vregs8 (x : BitVec 2048) : Nat := field x.toNat 168 6
def nq (x : BitVec 2048) : Nat := field x.toNat 176 4
def qdepth (x : BitVec 2048) : Nat := field x.toNat 180 5
def csreq (x : BitVec 2048) : Nat := field x.toNat 192 14
def l1size (x : BitVec 2048) : Nat := field x.toNat 214 2
def cgrp (x : BitVec 2048) : Nat := field x.toNat 216 3
def prio (x : BitVec 2048) : Nat := field x.toNat 219 2
def eclass (x : BitVec 2048) : Nat := field x.toNat 221 4
def nspawn (x : BitVec 2048) : Nat := field x.toNat 225 5
def incr (x : BitVec 2048) : Bool := field x.toNat 230 1 = 1
def event (x : BitVec 2048) : Bool := field x.toNat 231 1 = 1
def doneva (x : BitVec 2048) : Nat := field x.toNat 256 64
def tag (x : BitVec 2048) : Nat := field x.toNat 320 32
def spawntab (x : BitVec 2048) : Nat := field x.toNat 384 64
/-- Dependence pair j: VA and value. -/
def dep (x : BitVec 2048) (j : Nat) : Nat × Nat := (field x.toNat (1024 + 128 * j) 64, field x.toNat (1088 + 128 * j) 64)
end LaunchRec

namespace Kernel
def nspawn (k : Kernel) : Nat := LaunchRec.nspawn k.record
def width (k : Kernel) : Nat := 32 * 2 ^ LaunchRec.wcode k.record
def lanes (k : Kernel) : Nat := LaunchRec.nlanes k.record
/-- Its caravans (R50). -/
def caravans (k : Kernel) : Nat := (k.lanes + k.width - 1) / k.width
end Kernel

/-- Ordinals below x of the chunks dealt to die p (R50). -/
def dealtBelow (p x : Nat) : Nat := 16 * (x / 128) + min 16 (x % 128 - 16 * p)

/-- The ordinals that a share still holds. -/
def Share.count (t : Share) : Nat := dealtBelow t.p t.limit - dealtBelow t.p t.cursor
def Share.holds (t : Share) (o : Nat) : Bool := o / 16 % 8 = t.p && t.cursor ≤ o && o < t.limit

/-- The lanes of a share's caravans: the last caravan may hold fewer than W. -/
def Kernel.lanesOf (k : Kernel) (t : Share) : Nat :=
  k.width * t.count - if k.caravans ≠ 0 && t.holds (k.caravans - 1) then k.width * k.caravans - k.lanes else 0

def Share.none : Share := { p := 0, cursor := 0, limit := 0 }

/-- A die's live count of a kernel (R54). -/
def liveCount (s : State) (k : Kernel) (d : Nat) : Nat :=
  k.lanesOf (sget Share.none k.shares d) +
    ((k.pending.filter (fun p => p.die = d)).foldl (fun a p => a + p.items.length) 0) +
    ((s.die d).bins.foldl (fun a b => if b.2.kid = k.kid then a + b.2.items.length else a) 0) +
    (s.cvs.foldl (fun a c =>
      if dieOfCore (c.1 / 16) = d && c.2.st != .absent && c.2.kid = k.kid then
        a + popcount (c.2.exist &&& ~~~c.2.gone) + (if c.2.slice.st = .none || c.2.slice.st = .ended then 0 else 1)
      else a) 0)

/-- A bin launches a caravan of its items and is free (R53). -/
def State.launchBin (s : State) (d j : Nat) : State :=
  let b := sget Bin.zero (s.die d).bins j
  let s := s.setDie d { s.die d with bins := sdel (s.die d).bins j }
  match s.kernel b.kid with
  | none => s
  | some k =>
    let n := sget 0 k.spawned d
    let sp : Spawned := { die := d, e := b.e, ordinal := BitVec.ofNat 32 (2 ^ 31 + 2 ^ 28 * d + n % 2 ^ 28), items := b.items }
    s.setKernel { k with pending := k.pending ++ [sp], spawned := sset 0 k.spawned d (n + 1) }

/-- The bin on a die that holds a key. -/
def binOf (s : State) (d c : Nat) (entry : W64) : Option Nat :=
  (List.range 64).find? (fun j =>
    let b := sget Bin.zero (s.die d).bins j
    !b.items.isEmpty && b.ctx = c && b.entry = entry)

def freeBin (s : State) (d : Nat) : Option Nat := (List.range 64).find? (fun j => (sget Bin.zero (s.die d).bins j).items.isEmpty)

/-- Append one argument (R53); during DRAIN no bin launches, and one that it has filled launches before the next argument. -/
def State.appendItem (s : State) (d : Nat) (kid : KernelId) (e : Nat) (ent : BitVec 256) (x : W64) : State :=
  let entry := SpawnEntry.entry ent
  let s := match binOf s d kid.ctx entry with
    | some j =>
      let b := sget Bin.zero (s.die d).bins j
      if b.kid = kid && b.items.length < 32 * 2 ^ SpawnEntry.wcode ent then s else s.launchBin d j
    | none => s
  match (match binOf s d kid.ctx entry with
    | some j => some j
    | none => freeBin s d) with
  | none => s
  | some j =>
    let old := sget Bin.zero (s.die d).bins j
    let b : Bin := { ctx := kid.ctx, entry := entry, e := e, kid := kid, items := old.items ++ [x] }
    let s := s.setDie d { s.die d with bins := sset Bin.zero (s.die d).bins j b }
    if b.items.length ≥ 32 * 2 ^ SpawnEntry.wcode ent && (s.ctx kid.ctx).st = .active then s.launchBin d j else s

/-- A SPAWN of n items must wait (R53): every bin is in use, or during DRAIN its bin cannot take them. -/
def spawnWaits (s : State) (d : Nat) (kid : KernelId) (ent : BitVec 256) (n : Nat) : Bool :=
  match binOf s d kid.ctx (SpawnEntry.entry ent) with
  | none => (freeBin s d).isNone || ((s.ctx kid.ctx).st != .active && n > 32 * 2 ^ SpawnEntry.wcode ent)
  | some j =>
    let b := sget Bin.zero (s.die d).bins j
    (s.ctx kid.ctx).st != .active && (b.kid ≠ kid || b.items.length + n > 32 * 2 ^ SpawnEntry.wcode ent)

def execSpawn (f : Fields) (s : State) : Outcome State Fault Refusal :=
  issue (.spawn f) f false false
    (fun s =>
      let e := (s.srcS true f.a).toNat
      let d := dieOfCore s.cur.core
      let kid := s.me.kid
      match s.kernel kid with
      | none => s.raiseCv .resource
      | some k =>
        if e ≥ k.nspawn then s.raiseCv .resource
        else
          let ent := k.spawn.getD e 0
          let args := (s.partLanes f).map (fun L => s.src64 false f.b L)
          if spawnWaits s d kid ent args.length then s.block (.spawnBin e args.length) 0
          else s.withRelease 4 (fun s =>
            (args.foldl (fun s x => s.appendItem d kid e ent x) s).advance)) s

/-- The status word of R55 for a handle, as a caravan asks. -/
def kernelStatus (s : State) (h : W64) : W64 :=
  let c := s.me.ctx
  let kid : KernelId := { ctx := c, q := field h.toNat 0 3, idx := h.toNat / 256 }
  let q := sget LaunchQ.zero (s.ctx c).queues kid.q
  if field h.toNat 3 5 ≠ 0 || (!q.on && kid ≠ s.me.kid) then 5
  else
    let k := s.kernel kid
    let st := if kid = s.me.kid then 2
      else match k with
        | some k => match k.st with
          | .admitted => 1
          | .running => 2
          | .quiescent => 3
          | .retired => 4
        | none => if kid.idx ≥ q.prod then 5 else if kid.idx < q.cons then 4 else 0
    let live := match k with
      | some k => liveCount s k (dieOfCore s.cur.core)
      | none => 0
    BitVec.ofNat 64 (st + 2 ^ 32 * min live (2 ^ 32 - 1))

def execTermq (f : Fields) (s : State) : Outcome State Fault Refusal :=
  issue (.termq f) f false true
    (fun s =>
      let x := kernelStatus s (s.sreg f.a.sreg)
      let s := if field x.toNat 0 3 = 4 then s.acquire 5 none else s
      (s.setS f.d.sreg x).advance) s

/-! ## Accumulator granules (R78, R286) -/

/-- The binding of a party's Z name on a core (R288). -/
def zName (s : State) (k : Nat) (p : Nat × Nat) (z : Nat) : Option ZName :=
  (s.core k).znames.find? (fun n => n.pcore = p.1 && n.pent = p.2 && n.z = z)

def freeGranules (s : State) (k : Nat) : List Nat :=
  (List.range 32).filter (fun g => !(s.core k).znames.any (fun n => n.grans.contains g))

def holdsGranules (s : State) (k : Nat) (p : Nat × Nat) : Bool := (s.core k).znames.any (fun n => n.pcore = p.1 && n.pent = p.2)

/-- Bind n free granules to Z z of a party, zeroed. -/
def State.bindGranules (s : State) (k : Nat) (p : Nat × Nat) (z n : Nat) : State :=
  let gs := (freeGranules s k).take n
  let c := s.core k
  let s := s.setCore k { c with znames := c.znames ++ [{ pcore := p.1, pent := p.2, z := z, grans := gs, hdr := BitVec.ofNat 64 n }] }
  { s with mem := gs.foldl (fun m g => mzero m (Flat.accum k (16384 * g)) 16384) s.mem }

/-- ACCALLOC's answer: true in all lanes, false in the active ones (R78, R286). -/
def State.answerP (s : State) (k slot pd : Nat) (b : Bool) : State :=
  let c := s.cv k slot
  s.setCv k slot (c.writePred pd (if b then maskWhere c.width (fun _ => true) else c.mask) (fun _ => b))

def execAccalloc (f : Fields) (s : State) : Outcome State Fault Refusal :=
  issue (.accalloc f) f false true
    (fun s =>
      let k := s.cur.core
      let z := f.a.zNum
      let n := (s.srcS true f.b).toNat
      match s.me.party with
      | none => s.raiseCv .resource
      | some p =>
        if n = 0 || n > 32 || (zName s k p z).isSome then s.raiseCv .resource
        else
          if (freeGranules s k).length ≥ n then ((s.bindGranules k p z n).answerP k s.cur.slot f.d.pnum true).advance
          else if holdsGranules s k p then (s.answerP k s.cur.slot f.d.pnum false).advance
          else
            let c := s.core k
            (s.setCore k { c with accq := c.accq ++ [{ slot := s.cur.slot, pd := f.d.pnum, z := z, n := n }] }).block
              (.accalloc z n) 0) s

/-- A matrix instruction of core k that has not completed names the granules of Z z of a party (R286). -/
def zInUse (s : State) (k : Nat) (p : Nat × Nat) (z : Nat) : Bool :=
  s.ops.any (fun o => o.core = k && !o.done && match o.kind with
    | .matrix m => (m.pcore, m.pent) = p && (m.zd = z || m.zs = some z)
    | _ => false)

def execAccfree (f : Fields) (s : State) : Outcome State Fault Refusal :=
  issue (.accfree f) f false true
    (fun s =>
      let k := s.cur.core
      let z := f.a.zNum
      match s.me.party with
      | none => s.raiseCv .resource
      | some p =>
        if (zName s k p z).isNone then s.raiseCv .resource
        else if zInUse s k p z then s.block (.accfree z) 0
        else
          let c := s.core k
          (s.setCore k { c with znames := c.znames.filter (fun n => !(n.pcore = p.1 && n.pent = p.2 && n.z = z)) }).advance) s

end Sys2Proof.Machine
end

