-- ==== Sys2Proof/Machine/Tile.lean ====
section
/-! DEFINITION. Tiles: the tile table, its state machine, and the tile instructions (R85 to R88, R296, R307 to R309). -/

namespace Sys2Proof.Machine

open Host (Outcome)

/-! ## The tile table (R85) -/

namespace Tile

def bytes (t : Tile) : Nat := 32 * t.pitch * (t.rows + 1)

/-- Elements of the tile. -/
def cells (t : Tile) : Nat := (t.rows + 1) * (t.cols + 1)

def code (t : Tile) : Nat :=
  match t.st with
  | .empty => 0
  | .filling => 1
  | .ready => 2
  | .draining => 3

/-- The entry as 128 bits. -/
def word (t : Tile) : Nat :=
  t.code + (if t.err then 2 ^ 5 else 0) + (if t.freep then 2 ^ 6 else 0) + (if t.defined then 2 ^ 7 else 0) +
    2 ^ 40 * t.base + 2 ^ 54 * t.fmt + 2 ^ 58 * t.pitch + 2 ^ 69 * t.rows + 2 ^ 78 * t.cols +
    (match t.owner with
      | some (k, e) => 2 ^ 95 + 2 ^ 92 * k + 2 ^ 88 * e
      | none => 0) + 2 ^ 96 * t.ctx + 2 ^ 104 * t.pend

/-- A fill begins (R87). -/
def fill (t : Tile) (pend : Nat) : Tile := { t with st := .filling, pend := pend, err := false }

/-- The last byte has landed, or the fill has ended. -/
def filled (t : Tile) : Tile := { t with st := .ready, pend := 0 }

/-- A send begins (R87). -/
def send (t : Tile) (free : Bool) : Tile :=
  if t.st = .draining then { t with pend := t.pend + 1, freep := t.freep || free }
  else { t with st := .draining, pend := 1, freep := free }

/-- A send completes (R87). -/
def sent (t : Tile) : Tile :=
  if t.st ≠ .draining then t
  else if t.pend > 1 then { t with pend := t.pend - 1 }
  else { t with st := if t.freep then TileState.empty else TileState.ready, pend := 0, freep := false }

/-- Bit offset of element (i, j) in the core store (R85). -/
def bitOf (t : Tile) (i j : Nat) : Nat := 8 * (256 * t.base + 32 * t.pitch * i) + typeBits t.fmt * j

end Tile

/-- Element (i, j) of a tile of core k. -/
def tileGet (s : State) (k : Nat) (t : Tile) (i j : Nat) : Nat :=
  let b := t.bitOf i j
  if typeBits t.fmt = 4 then field (s.storeByte k (b / 8)).toNat (b % 8) 4 else s.storeLoad k (b / 8) (typeBits t.fmt / 8)

/-- Put a value into element (i, j). -/
def State.tilePut (s : State) (k : Nat) (t : Tile) (i j x : Nat) : State :=
  let b := t.bitOf i j
  if typeBits t.fmt = 4 then
    let old := (s.storeByte k (b / 8)).toNat
    let new := if b % 8 = 0 then old / 16 * 16 + x % 16 else old % 16 + 16 * (x % 16)
    s.setStoreByte k (b / 8) (BitVec.ofNat 8 new)
  else s.storePut k (b / 8) (typeBits t.fmt / 8) x

/-- Put the bytes of a list from byte o of a tile on. -/
def State.tileBytes (s : State) (k : Nat) (t : Tile) (l : List Nat) : State :=
  l.zipIdx.foldl (fun s p => s.setStoreByte k (256 * t.base + p.2) (BitVec.ofNat 8 p.1)) s

/-! ## Holders (R296) -/

/-- The tiles that a matrix instruction reads, by the core where each lies. -/
def MxSrc.reads : MxSrc → List (Nat × Nat)
  | .tile c t => [(c, t)]
  | .multi c _ _ t => [(c, t)]
  | _ => []

def MxOp.tiles (m : MxOp) (k : Nat) : List (Nat × Nat) :=
  m.a.reads ++ m.b.reads ++ match m.kind, m.t with
    | .mcvt, _ => []
    | _, some t => [(k, t)]
    | _, none => []

/-- A matrix instruction that has not completed reads tile t of core k. -/
def tileHeld (s : State) (k t : Nat) : Bool :=
  s.ops.any (fun o => !o.done && match o.kind with
    | .matrix m => (m.tiles o.core).contains (k, t)
    | _ => false)

/-! ## The states of a tile as an instruction meets them (R86, R87) -/

/-- The tile that an operand names on the issuing agent's core; TILE_STATE when it is undefined or another context's
(R306), and a wait while a matrix instruction holds it (R296). -/
def State.withTile (s : State) (t : Nat) (holders : Bool) (go : Tile → State) : State :=
  let x := s.tile s.cur.core t
  if !x.defined || x.ctx ≠ s.me.ctx then s.raiseTile false
  else if holders && tileHeld s s.cur.core t then s.block (.tileHeld s.cur.core t) 0
  else go x

/-- An instruction that reads a tile (R86). -/
def State.readTile (s : State) (k t : Nat) (x : Tile) (go : State) : State :=
  match x.st with
  | .empty => s.raiseTile false
  | .filling => s.block (.tileReady k t) 0
  | .draining => s.block (.tileReady k t) 0
  | .ready => if x.err then s.raiseTile true else go

/-- An instruction that fills a tile (R87). -/
def State.fillTile (s : State) (t : Nat) (x : Tile) (go : State) : State :=
  match x.st with
  | .empty => go
  | .draining => s.block (.tileFree t) 0
  | _ => s.raiseTile false

/-- One that sends a tile: a READY tile, or one that drains already (R87, R312). -/
def State.sendTile (s : State) (t : Nat) (x : Tile) (go : State) : State :=
  match x.st with
  | .draining => go
  | _ => s.readTile s.cur.core t x go

/-- A send of tile t of core k completes. -/
def State.tileSent (s : State) (k t : Nat) : State := s.setTile k t (s.tile k t).sent

/-! ## TDEF, TFREE, TSTAT (R308) -/

/-- The fields that TDEF takes from s[a]. -/
def tileOf (x : Nat) : Tile :=
  { Tile.zero with defined := true, base := field x 0 14, fmt := field x 14 4, pitch := field x 18 11, rows := field x 29 9,
                   cols := field x 38 10 }

/-- Bytes lo .. lo+n−1 lie inside the CSREQ space of the issuing caravan or of a member of its party on this core. -/
def inSpace (s : State) (lo n : Nat) : Bool :=
  let k := s.cur.core
  let ok (c : Caravan) : Bool := c.csbase ≤ lo && lo + n ≤ c.csbase + c.cslen
  ok s.me || match s.me.party with
    | none => false
    | some (pk, pe) => (s.party pk pe).members.any (fun m => m.1 = k && ok (s.cv m.1 m.2))

def execTdef (f : Fields) (s : State) : Outcome State Fault Refusal :=
  issue (.tdef f) f false true
    (fun s =>
      let x := (s.sreg f.a.sreg).toNat
      let t := tileOf x
      let old := s.tile s.cur.core f.d.tileNum
      if field x 48 16 ≠ 0 || t.pitch = 0 || t.pitch > 1024 || ((t.fmt = 2 || t.fmt = 3) && (t.cols + 1) % 32 ≠ 0) ||
          ((t.cols + 1) * typeBits t.fmt + 7) / 8 > 32 * t.pitch || !inSpace s (256 * t.base) t.bytes ||
          (old.defined && old.ctx ≠ s.me.ctx) then s.raiseCv .resource
      else if old.defined && old.st ≠ .empty then s.raiseTile false
      else
        let owner := s.me.party.map (fun p => (placeOfCore p.1, p.2))
        (s.setTile s.cur.core f.d.tileNum { t with ctx := s.me.ctx, owner := owner }).advance) s

def execTfree (f : Fields) (s : State) : Outcome State Fault Refusal :=
  issue (.tfree f) f false true
    (fun s => s.withTile f.d.tileNum true (fun x =>
      if x.st = .filling || x.st = .draining then s.raiseTile false
      else (s.setTile s.cur.core f.d.tileNum { x with st := .empty, err := false }).advance)) s

def execTstat (f : Fields) (s : State) : Outcome State Fault Refusal :=
  issue (.tstat f) f false true
    (fun s =>
      let x := s.tile s.cur.core f.a.tileNum
      let w := if x.defined && x.ctx = s.me.ctx then x.word else 0
      (s.setS f.d.sreg (BitVec.ofNat 64 (field w (64 * f.b.immU) 64))).advance) s

/-! ## TLD and TST (R309) -/

def execTld (f : Fields) (s : State) : Outcome State Fault Refusal :=
  issue (.tld f) f false false
    (fun s =>
      let k := s.cur.core
      let t := f.a.tileNum
      s.withTile t false (fun x => s.readTile k t x (
        let c := (s.srcS true f.b).toNat
        let o (L : Nat) : Nat := 4 * (s.me.width * c + L)
        let ls := s.partLanes f
        let vals := (ls.filter (fun L => o L + 4 ≤ x.bytes)).map (fun L =>
          (L, BitVec.ofNat 128 (s.storeLoad k (256 * x.base + o L) 4)))
        let bad := (ls.filter (fun L => o L + 4 > x.bytes)).map (fun L => (L, LaneCause.outOfRange, BitVec.ofNat 64 (o L)))
        let pc := s.pc
        ((s.addOp f .LD (.tld f.d.vreg) [] [] [] vals).advance).raiseLanes k s.cur.slot pc pc bad))) s

/-- The words that TST supplies, by their number in the tile. -/
def State.tstWords (s : State) (f : Fields) (n : Nat) : List (Nat × BitVec 128) :=
  let part := s.part f
  let (a, p) := match f.a with
    | .v r p _ => (r.toNat, p.toNat)
    | _ => (0, 0)
  (List.range n).flatMap (fun j => (List.range s.me.width).map (fun L =>
    (s.me.width * j + L,
      if part.getLsbD L then (s.me.reg (a + j) (permLane p L s.lowLane)).setWidth 128 else 0)))

def execTst (f : Fields) (s : State) : Outcome State Fault Refusal :=
  issue (.tst f) f false false
    (fun s =>
      let t := f.d.tileNum
      s.withTile t true (fun x => s.fillTile t x (
        let n := (x.bytes + 4 * s.me.width - 1) / (4 * s.me.width)
        if f.a.vreg + n > s.me.nregs then s.raiseCv .resource
        else
          let vals := s.tstWords f n
          ((s.setTile s.cur.core t (x.fill x.bytes)).addOp f .ST (.tst t) [] [] [] vals).advance))) s

/-- The words of a TST land: the tile is READY (R309). -/
def State.landTst (s : State) (o : Op) (t : Nat) : State :=
  let x := s.tile o.core t
  let s := (List.range x.bytes).foldl (fun s b =>
    s.setStoreByte o.core (256 * x.base + b) (((sget 0 o.vals (b / 4)) >>> (8 * (b % 4))).setWidth 8)) s
  s.setTile o.core t x.filled

end Sys2Proof.Machine
end

