-- ==== Sys2Proof/Machine/Copy.lean ====
section
/-! DEFINITION. Copies, operand queues as the execute slice sees them, and the access engine's own instructions (R88 to R95,
R310 to R318). -/

namespace Sys2Proof.Machine

open Host (Outcome)

/-! ## The layout of a box (R312) -/

/-- Element index in memory of element n of a box, from the base. -/
def boxIndex (ext : List Nat) (str : List Int) (n : Nat) : Int :=
  (ext.zip str).foldl (fun (a : Int × Nat) p => (a.1 + ((a.2 % p.1 : Nat) : Int) * p.2, a.2 / p.1)) (0, n) |>.1

def boxTotal (ext : List Nat) : Nat := ext.foldl (· * ·) 1

/-- Memory byte of element n, and the bit of it where the element stands. -/
def boxPlace (bits : Nat) (base : W64) (ext : List Nat) (str : List Int) (n : Nat) : W64 × Nat :=
  let i := boxIndex ext str n
  if bits = 4 then
    let x := 2 * (base.toNat : Int) + i
    (BitVec.ofInt 64 (x / 2), if x % 2 = 0 then 0 else 4)
  else (base + BitVec.ofInt 64 (i * ((bits / 8 : Nat) : Int)), 0)

/-- Extents and strides that the registers Sx .. Sx+3 hold. -/
def State.boxRegs (s : State) (x : Nat) : List Nat × List Int :=
  let e (i : Nat) : Nat := (s.sreg (x + i)).toNat
  ([field (e 0) 0 16, field (e 0) 16 16, field (e 2) 0 16, field (e 2) 16 16],
   [signed 32 (e 1), signed 32 (e 1 / 2 ^ 32), signed 32 (e 3), signed 32 (e 3 / 2 ^ 32)])

/-! ## Progress of a copy (R311) -/

/-- Units of a copy: elements, bytes or words. -/
def Copy.total (s : State) (o : Op) (c : Copy) : Nat :=
  match c.kind with
  | .cpl _ _ len => len
  | .cpt _ _ ext _ => boxTotal ext
  | .cpo _ _ ext _ => boxTotal ext
  | .cpq _ _ cnt _ _ => cnt * (s.cv o.core o.cslot).width

/-- Bytes that the first n units come to. -/
def Copy.bytesOf (s : State) (o : Op) (c : Copy) (n : Nat) : Nat :=
  let box (t : Nat) : Nat :=
    let b := typeBits (s.tile o.core t).fmt
    if n = c.total s o then (n * b + 7) / 8 else n * b / 8
  match c.kind with
  | .cpl _ _ _ => n
  | .cpt t _ _ _ => box t
  | .cpo t _ _ _ => box t
  | .cpq _ _ _ _ _ => 4 * n

/-- Units that 256 bytes hold. -/
def Copy.per (s : State) (o : Op) (c : Copy) : Nat :=
  match c.kind with
  | .cpl _ _ _ => 256
  | .cpt t _ _ _ => 2048 / typeBits (s.tile o.core t).fmt
  | .cpo t _ _ _ => 2048 / typeBits (s.tile o.core t).fmt
  | .cpq _ _ _ _ _ => 64

/-- Units up to the next boundary of 256 bytes. -/
def Copy.unit (s : State) (o : Op) (c : Copy) : Nat := c.per s o - c.pos % c.per s o

/-- A copy stands at a boundary of 256 bytes (R26, R311). -/
def Copy.atUnit (s : State) (o : Op) (c : Copy) : Bool := c.pos % c.per s o = 0 || c.pos ≥ c.total s o

/-- The arrival of a copy or a collective that delivers n bytes; discarded once the party has dissolved, be there another in its
place (R81, R95). -/
def State.arriveAt (s : State) (bar : Option (Nat × Nat × Nat × Nat)) (n : Nat) : State :=
  match bar with
  | none => s
  | some (pk, pe, made, b) => if (s.party pk pe).made = made then s.arrive pk pe b n else s

/-- An engine's user of memory: the operation's core, and no agent's program order but its own (R198). -/
def engineUser (o : Op) (copy : Bool) : User :=
  { ctx := o.ctx, core := some o.core, copy := copy, fetch := false, priv := false, op := o.id, who := none }

/-- An engine operation waits: its reads see every earlier access of its issuer (R198, R311), and MARK holds it (R207, R208). -/
def State.engineWaits (s : State) (o : Op) : Bool :=
  let a : Agent := { core := o.core, slot := o.cslot, slice := o.slice }
  s.heldBack a o.id || s.behindMark a o.id ||
    (s.mine o.core o.cslot o.slice).any (fun p => p.id < o.id && p.cls.inOrder && !(undone s p).isEmpty)

/-- One access of a copy. With a reply from another node in hand (`key`: 0 its read, 1 its write), that is the answer. -/
def State.copyAccess (s : State) (o : Op) (key : Nat) (va : W64) (n : Nat) (act : Act) : State × Res :=
  match o.vals.find? (fun p => p.1 = key) with
  | some (_, x) => (s, .ok x.toNat)
  | none => s.checkedAccess (engineUser o true) .plain va n n act

/-- The access of a copy as a request, for a notice or a reply. -/
def copyReq (key : Nat) (va : W64) (n : Nat) (act : Act) : Req := mkReq key va n act

/-- The read of a copy's next unit: where it stands, and of how many bytes. -/
def Copy.source (s : State) (o : Op) (c : Copy) : Option (Req) :=
  match c.kind with
  | .cpl src _ _ => some (copyReq 0 (src + BitVec.ofNat 64 c.pos) 1 .rd)
  | .cpt t base ext str =>
    let b := typeBits (s.tile o.core t).fmt
    some (copyReq 0 (boxPlace b base ext str c.pos).1 (max 1 (b / 8)) .rd)
  | .cpo t base ext str =>
    let b := typeBits (s.tile o.core t).fmt
    -- a nibble goes into a byte whose other half stays
    if b = 4 then some (copyReq 0 (boxPlace b base ext str c.pos).1 1 .rd) else none
  | .cpq _ base _ _ _ => some (copyReq 0 (base + BitVec.ofNat 64 (4 * c.pos)) 4 .rd)

/-- The write of a copy's next unit into memory, given what it read. -/
def Copy.target (s : State) (o : Op) (c : Copy) (x : Nat) : Option Req :=
  match c.kind with
  | .cpl _ dst _ => some (copyReq 1 (dst + BitVec.ofNat 64 c.pos) 1 (.wr (BitVec.ofNat 128 x)))
  | .cpo t base ext str =>
    let tl := s.tile o.core t
    let b := typeBits tl.fmt
    let v := tileGet s o.core tl (c.pos / (tl.cols + 1)) (c.pos % (tl.cols + 1))
    let (va, bit) := boxPlace b base ext str c.pos
    let y := if b = 4 then (if bit = 0 then x / 16 * 16 + v else x % 16 + 16 * v) else v
    some (copyReq 1 va (max 1 (b / 8)) (.wr (BitVec.ofNat 128 y)))
  | _ => none

/-- What a unit delivers here rather than to memory. -/
def State.copyLand (s : State) (o : Op) (c : Copy) (x : Nat) : State :=
  match c.kind with
  | .cpt t base ext str =>
    let tl := s.tile o.core t
    let b := typeBits tl.fmt
    let x := if b = 4 then field x (boxPlace b base ext str c.pos).2 4 else x
    let s := s.tilePut o.core tl (c.pos / (tl.cols + 1)) (c.pos % (tl.cols + 1)) x
    let tl := s.tile o.core t
    if c.pos + 1 = c.total s o then s.setTile o.core t tl.filled
    else s.setTile o.core t { tl with pend := c.bytesOf s o (c.total s o) - c.bytesOf s o (c.pos + 1) }
  | .cpq q _ _ first _ =>
    let v := s.cv o.core o.cslot
    let seq := first + c.pos / v.width
    let s := s.landWord o.core o.cslot q seq (c.pos % v.width) (BitVec.ofNat 32 x)
    if c.pos % v.width + 1 = v.width then s.setCv o.core o.cslot ((s.cv o.core o.cslot).entryLanded q seq) else s
  | _ => s

/-- An uncorrectable sector: zeros are delivered and the tile's ERR is set (R126). -/
def State.copyBad (s : State) (o : Op) (c : Copy) : State :=
  match c.kind with
  | .cpt t _ _ _ => s.setTile o.core t { s.tile o.core t with err := true }
  | _ => s

/-- What stops a copy at a unit. -/
inductive CopyStop where
  | moved
  | waits
  | remote (r : Req)
  | fails (c : LaneCause) (r : Req)
  | parks (level : Nat) (r : Req)
  deriving Repr

def stopOf (r : Req) : Res → CopyStop
  | .ok _ => .moved
  | .cause c => .fails c r
  | .park level => .parks level r
  | .remote => .remote r
  | .fill => .remote { r with fill := true }
  | .busy => .waits

/-- Perform one unit of a copy: its read, then its write or its landing. -/
def State.copyOne (s : State) (o : Op) (c : Copy) : State × CopyStop :=
  let queue := match c.kind with
    | .cpq _ _ _ _ _ => true
    | _ => false
  let read : State × Nat × Option CopyStop := match c.source s o with
    | none => (s, 0, none)
    | some r => match s.copyAccess o 0 r.va r.w .rd with
      | (s, .ok x) => (s, x, none)
      | (s, .cause x) => if x = .dataUncorrectable && !queue then (s.copyBad o c, 0, none) else (s, 0, some (.fails x r))
      | (s, x) => (s, 0, some (stopOf r x))
  match read with
  | (s, _, some stop) => (s, stop)
  | (s, x, none) =>
    match c.target s o x with
    | none => (s.copyLand o c x, .moved)
    | some r => match s.copyAccess o 1 r.va r.w r.act with
      | (s, x) => (s, stopOf r x)

/-- Replace the copy of an operation. -/
def State.setCopy (s : State) (id : Nat) (g : Op → Copy → Op) : State :=
  match s.op id with
  | some o => match o.kind with
    | .copy c => s.setOp (g o c)
    | _ => s
  | none => s

/-! ## The end of a copy (R87, R311) -/

/-- The lane cause that an engine operation ends with: of the lanes of the caravan that `m` names, or the slice's trap. `dpc`: the PC of
a double trap; none: the caravan's. -/
def State.engineCause (s : State) (o : Op) (dpc : Option W64) (m : Caravan → Mask) (c : LaneCause) (va : W64) : State :=
  let v := s.cv o.core o.cslot
  if o.slice then
    if v.slice.st = .ended then s else s.sliceTrapAt o.core o.cslot o.pc c.code
  else (s.raiseAll o.core o.cslot o.pc (dpc.getD v.pc) (m v) c va).settle o.core o.cslot

/-- A copy ends: its tile is READY or its send is done; a failure's cause is recorded for every active lane; then its arrival, after what
it has written to memory has left the core's L1 (R84), and it retires. -/
def State.endCopy (s : State) (o : Op) (c : Copy) (dpc : Option W64) (fail : Option (LaneCause × W64)) : State :=
  let s := match c.kind with
    | .cpt t _ _ _ =>
      if fail.isSome then s.setTile o.core t { (s.tile o.core t).filled with err := true } else s
    | .cpo t _ _ _ => if c.ended then s else s.tileSent o.core t
    | _ => s
  let n := c.bytesOf s o c.pos
  let s := s.finishOp o
  let s := match fail with
    | some (x, va) => s.engineCause o dpc (fun v => v.mask) x va
    | none => s
  (if c.bar.isSome then s.drainFifo o.core none else s).arriveAt c.bar n

/-- The copy added last ends at its issue (R88, R311). -/
def State.endLast (s : State) (fail : Option (LaneCause × W64)) : State :=
  match s.op (s.nextOp - 1) with
  | some o => match o.kind with
    | .copy c => s.endCopy o c (some o.pc) fail
    | _ => s
  | none => s

/-- PEND of a tile that a copy fills, by the elements delivered (R87). -/
def State.pendAt (s : State) (o : Op) (c : Copy) : State :=
  match c.kind with
  | .cpt t _ _ _ => s.setTile o.core t { s.tile o.core t with pend := c.bytesOf s o (c.total s o) - c.bytesOf s o c.pos }
  | _ => s

/-- Park an engine operation, a copy at its unit: SRCKIND COPY, MASK 0x1, PC 0 (R109, R110). -/
def State.parkEngine (s : State) (o : Op) (kind : Nat) (pc : W64) (akind va level : Nat) (what : ParkWhat) : State :=
  let (s, id) := s.postFaults o.ctx kind (coreSrc o.core o.cslot) pc akind [(0, va, level)]
  let p : Park := { id := id, srckind := kind, srcid := coreSrc o.core o.cslot, ctx := o.ctx, core := o.core,
                    cslot := o.cslot, what := what }
  { s with parks := s.parks ++ [p] }.setOp { o with held := [0] }

/-- Move up to n units. -/
def State.copyRun (s : State) (id : Nat) : Nat → State
  | 0 => s
  | n + 1 =>
    match s.op id with
    | none => s
    | some o => match o.kind with
      | .copy c =>
        let room := match c.kind with
          | .cpq _ _ _ _ res => res * (s.cv o.core o.cslot).width
          | _ => c.total s o
        if c.pos ≥ c.total s o || c.pos ≥ room then s
        else match s.copyOne o c with
          | (s, .moved) => (s.setOp { o with vals := [], kind := .copy { c with pos := c.pos + 1 } }).copyRun id n
          | (s, .waits) => s
          | (s, .remote r) => (s.setOp { o with remote := [r] }).sendRequests id o.ctx [r]
          | (s, .fails x r) => s.endCopy o c none (some (x, r.va))
          | (s, .parks level r) =>
            let c := { c with pos := c.pos - c.pos % c.per s o }
            (s.pendAt o c).parkEngine { o with vals := [], kind := .copy c } 2 0 r.act.kind r.va.toNat level (.copy id)
      | _ => s

/-- A copy may go on: it is not parked, waits for no other node, and no earlier access of its issuer holds it. -/
def State.copyGoes (s : State) (o : Op) : Bool :=
  !o.done && o.held.isEmpty && o.remote.isEmpty && !s.engineWaits o

/-- The barrier that MOD names for a copy; none of it where BV = 0, RESOURCE where the party has no such barrier (R311). -/
def State.withArrival (s : State) (bv : Bool) (b : Nat) (go : Option (Nat × Nat × Nat × Nat) → State) : State :=
  if !bv then go none
  else match s.me.party with
    | none => s.raiseCv .resource
    | some (pk, pe) =>
      let p := s.party pk pe
      if 16 * b + 16 > 256 * p.scrSize then s.raiseCv .resource else go (some (pk, pe, p.made, b))

def State.withCopyBar (s : State) (f : Fields) (go : Option (Nat × Nat × Nat × Nat) → State) : State :=
  s.withArrival (modBits f.m 9 1 = 1) (modBits f.m 5 4) go

def startCopy (kind : CopyKind) (bar : Option (Nat × Nat × Nat × Nat)) : OpKind :=
  .copy { kind := kind, bar := bar, pos := 0, ended := false }

/-! ## CPL, CPT, CPO (R312, R313) -/

def execCpl (f : Fields) (s : State) : Outcome State Fault Refusal :=
  issue (.cpl f) f false true
    (fun s => s.withCopyBar f (fun bar =>
      let len := (s.srcS true f.b).toNat
      if len ≥ 2 ^ 32 then s.raiseCv .resource
      else
        let s := (s.addOp f .CP (startCopy (.cpl (s.sreg f.a.sreg) (s.sreg f.d.sreg) len) bar) [] [] [] []).advance
        if len = 0 then s.endLast none else s)) s

/-- The base of a box must be a multiple of the element's size. -/
def baseOk (t : Tile) (base : W64) : Bool := typeBits t.fmt < 16 || base.toNat % (typeBits t.fmt / 8) = 0

/-- Issue a copy between tile t, that `begin` sets to work, and a box: where the base is misaligned it ends with that cause, and an empty
box ends it at once (R88, R311, R312). -/
def State.boxCopy (s : State) (f : Fields) (t : Nat) (x : Tile) (begun : Nat → Tile) (bar : Option (Nat × Nat × Nat × Nat))
    (kind : W64 → List Nat → List Int → CopyKind) : State :=
  let (ext, str) := s.boxRegs f.b.sreg
  let base := s.sreg f.a.sreg
  let total := boxTotal ext
  if total ≠ 0 && total ≠ x.cells then s.raiseCv .resource
  else
    let s := s.setTile s.cur.core t (begun ((total * typeBits x.fmt + 7) / 8))
    let s := (s.addOp f .CP (startCopy (kind base ext str) bar) [] [] [] []).advance
    if !baseOk x base then s.endLast (some (.misaligned, base))
    else if total = 0 then (if x.st = .empty then s.setTile s.cur.core t (s.tile s.cur.core t).filled else s).endLast none
    else s

def execCpt (f : Fields) (s : State) : Outcome State Fault Refusal :=
  issue (.cpt f) f false true
    (fun s =>
      let t := f.d.tileNum
      s.withTile t true (fun x => s.withCopyBar f (fun bar => s.fillTile t x (s.boxCopy f t x x.fill bar (.cpt t))))) s

def execCpo (f : Fields) (s : State) : Outcome State Fault Refusal :=
  issue (.cpo f) f false true
    (fun s =>
      let t := f.d.tileNum
      s.withTile t true (fun x => s.withCopyBar f (fun bar =>
        s.sendTile t x (s.boxCopy f t x (fun _ => x.send (modBits f.m 0 1 = 1)) bar (.cpo t))))) s

/-! ## CPQ (R314) -/

/-- The slice's CPQ that has still to reserve slots. -/
def State.openCpq (s : State) : Option (Op × Copy) :=
  (s.mine s.cur.core s.cur.slot true).findSome? (fun o => match o.kind with
    | .copy c => match c.kind with
      | .cpq _ _ cnt _ res => if !o.done && res < cnt && o.pc = s.pc then some (o, c) else none
      | _ => none
    | _ => none)

/-- Reserve as many of a CPQ's slots as are free; the slice goes on once all are. -/
def State.cpqReserve (s : State) (id : Nat) : State :=
  match s.op id with
  | some o => match o.kind with
    | .copy c => match c.kind with
      | .cpq q base cnt first res =>
        let n := min (cnt - res) (s.me.qdepth - (s.queueOf q).ents.length)
        let s := (List.range n).foldl (fun s _ => s.reserveSlot q false) s
        let s := s.setOp { o with kind := .copy { c with kind := .cpq q base cnt first (res + n) } }
        if res + n = cnt then s.advance else s.block (.queueSlot q) 0
      | _ => s
    | _ => s
  | none => s

def execCpq (f : Fields) (s : State) : Outcome State Fault Refusal :=
  issue (.cpq f) f false true
    (fun s =>
      let q := f.d.qNum
      let cnt := (s.srcS true f.b).toNat
      let base := s.sreg f.a.sreg
      match s.openCpq with
      | some (o, _) => if (s.queueOf q).closed then s.advance else s.cpqReserve o.id
      | none =>
        if cnt = 0 || cnt > s.me.qdepth then s.raiseCv .resource
        else if base.toNat % 4 ≠ 0 then s.raiseEvery .misaligned base
        else if (s.queueOf q).closed then
          (s.addOp f .CP (startCopy (.cpq q base cnt (s.queueOf q).nextSeq 0) none) [] [] [] []).finishLast.advance
        else
          let id := s.nextOp
          (s.addOp f .CP (startCopy (.cpq q base cnt (s.queueOf q).nextSeq 0) none) [] [] [] []).cpqReserve id) s

/-! ## QCLOSE and QSTAT (R315) -/

def execQclose (f : Fields) (s : State) : Outcome State Fault Refusal :=
  issue (.qclose f) f false true (fun s => (s.setQueueOf f.d.qNum ((s.queueOf f.d.qNum).close false)).advance) s

/-- A queue's state (R89). -/
def queueWord (q : OpQueue) (depth : Nat) : Nat :=
  2 ^ 2 * depth + 2 ^ 7 * q.head + 2 ^ 11 * q.count + (if q.closed then 2 ^ 16 else 0) + (if q.qerr then 2 ^ 17 else 0)

def execQstat (f : Fields) (s : State) : Outcome State Fault Refusal :=
  issue (.qstat f) f false true
    (fun s => (s.setS f.d.sreg (BitVec.ofNat 64 (queueWord (s.queueOf f.a.qNum) s.me.qdepth))).advance) s

/-! ## The access engine (R316 to R318) -/

/-- Replace the issuing caravan's slice. -/
def State.setSlice (s : State) (x : Slice) : State := s.setMe { s.me with slice := x }

def execAfor (f : Fields) (s : State) : Outcome State Fault Refusal :=
  issue (.afor f) f false true
    (fun s =>
      let cnt := min (s.srcS true f.a).toNat (2 ^ 32 - 1)
      let x := s.me.slice
      if cnt = 0 then s.setPc (s.pc + BitVec.ofNat 64 (12 * (f.m.toNat + 1)))
      else if x.loops.length ≥ 4 then s.raiseCv .resource
      else (s.setSlice { x with loops := x.loops ++ [{ pc := s.pc + 12, cnt := cnt, a := f.d.sreg, i := f.b.sreg }] }).advance) s

def execAend (f : Fields) (s : State) : Outcome State Fault Refusal :=
  issue (.aend f) f false true
    (fun s =>
      let x := s.me.slice
      match x.loops.getLast? with
      | none => s.raiseCv .resource
      | some e =>
        let s := s.setS e.a (s.sreg e.a + s.sreg e.i)
        let x := s.me.slice
        if e.cnt > 1 then (s.setSlice { x with loops := x.loops.dropLast ++ [{ e with cnt := e.cnt - 1 }] }).setPc e.pc
        else (s.setSlice { x with loops := x.loops.dropLast }).advance) s

def execQpush (f : Fields) (s : State) : Outcome State Fault Refusal :=
  issue (.qpush f) f false true
    (fun s =>
      let q := f.d.qNum
      let x := s.queueOf q
      let a := s.sreg f.a.sreg
      let b := s.srcS false f.b
      if x.closed then s.advance
      else if x.ents.length ≥ s.me.qdepth then s.block (.queueSlot q) 0
      else
        let s := s.reserveSlot q true
        ((List.range s.me.width).foldl (fun s L =>
          s.landWord s.cur.core s.cur.slot q x.nextSeq L ((a + BitVec.ofNat 64 L * b).setWidth 32)) s).advance) s

def execAwait (f : Fields) (s : State) : Outcome State Fault Refusal :=
  issue (.await f) f false true
    (fun s =>
      let t := f.d.tileNum
      s.withTile t false (fun x => if x.code = f.a.immU then s.advance else s.block (.tileState t f.a.immU) 0)) s

end Sys2Proof.Machine
end

