-- ==== Sys2Proof/Machine/Matrix.lean ====
section
/-! DEFINITION. The matrix unit: issue checks, the sequencer, the arithmetic of every form, stopping and resuming, class 0x8
(R177 to R184, R287 to R305). -/

namespace Sys2Proof.Machine

open Host (Outcome)

/-! ## Accumulator bytes (R287) -/

/-- Flat address of byte x of a name whose granules are gs. -/
def accAt (k : Nat) (gs : List Nat) (x : Nat) : Nat := Flat.accum k (16384 * gs.getD (x / 16384) 0 + x % 16384)

/-- n bytes of a name from byte x on; an entry may straddle two granules. -/
def accLoad (m : Memory) (k : Nat) (gs : List Nat) (x : Nat) : Nat → Nat
  | 0 => 0
  | n + 1 => (mget m (accAt k gs x)).toNat + 256 * accLoad m k gs (x + 1) n

def accStore (m : Memory) (k : Nat) (gs : List Nat) (x : Nat) : Nat → Nat → Memory
  | 0, _ => m
  | n + 1, v => accStore (mset m (accAt k gs x) (BitVec.ofNat 8 v)) k gs (x + 1) n (v / 256)

/-- Layout codes as the type codes of R173: I32, FP32, FP64. -/
def layoutBytes (f : Nat) : Nat := if f = 7 then 8 else 4

/-- FMT of a layout (R288). -/
def layoutFmt (f : Nat) : Nat := if f = 7 then 3 else if f = 6 then 2 else 1

/-- The 4,096 outputs o = 64·i + j of a tile. -/
def outputs : List Nat := List.range 4096

/-! ## Headers (R288) -/

/-- Header bits 37:32 of a set of flags. -/
def headerFlags (x : Flag) : Nat :=
  let bit (f : Flag) (b : Nat) : Nat := if x &&& f = 0 then 0 else 2 ^ b
  bit fNV 32 + bit fOF 33 + bit fUF 34 + bit fNX 35 + bit fSAT 36 + bit fRSVD 37

namespace Hdr
def ng (h : W64) : Nat := field h.toNat 0 6
def op (h : W64) : Nat := field h.toNat 44 2
def s (h : W64) : Nat := field h.toNat 46 4
def step (h : W64) : Nat := field h.toNat 50 6
/-- OP, S and STEP written, the rest kept. -/
def progress (h : W64) (op s step : Nat) : W64 :=
  BitVec.ofNat 64 (h.toNat % 2 ^ 44 + 2 ^ 44 * op + 2 ^ 46 * s + 2 ^ 50 * step)
/-- At completion: FMT, the flags added or set afresh; an MMA, MMAS or MSL leaves no progress, another instruction that of one that
has stopped (R288, R303). -/
def written (h : W64) (fmt : Nat) (x : Flag) (afresh stops : Bool) : W64 :=
  BitVec.ofNat 64 (ng h + 2 ^ 12 * fmt) ||| BitVec.ofNat 64 (headerFlags x) |||
    (if afresh then 0 else h &&& 0x3F00000000) ||| (if stops then 0 else h &&& 0xFFF00000000000)
end Hdr

def State.setHdr (s : State) (k : Nat) (p : Nat × Nat) (z : Nat) (g : W64 → W64) : State :=
  let c := s.core k
  s.setCore k { c with znames := c.znames.map (fun n =>
    if n.pcore = p.1 && n.pent = p.2 && n.z = z then { n with hdr := g n.hdr } else n) }

/-! ## Operands (R290 to R293) -/

/-- An operand as a source; none where it raises RESOURCE. `size`: bits of B's element, where a stream is allowed. -/
def mxSource (s : State) (size : Nat) (o : Operand) : Option MxSrc :=
  let k := s.cur.core
  match o with
  | .tile n => some (.tile k n.toNat)
  | .role r n =>
    match s.role s.me r.toNat with
    | (1, c, _) => some (.tile (clusterCore k c) n.toNat)
    | (2, _, m) =>
      if field m (placeOfCore k) 1 = 1 then
        some (.multi (clusterCore k (((List.range 8).find? (fun c => field m c 1 = 1)).getD 0)) (BitVec.ofNat 8 m) r.toNat n.toNat)
      else none
    | _ => none
  | .s b =>
    let base := s.sreg b.toNat
    let pitch := s.sreg (b.toNat + 1)
    if b.toNat = 63 || base.toNat % 32 ≠ 0 || pitch.toNat % 32 ≠ 0 || pitch.toNat < 8 * size then none
    else some (.stream base pitch)
  | _ => some .none

/-- The sets of R291 that an instruction's sources name. -/
def MxSrc.rounds : MxSrc → List (BitVec 8 × Nat × Nat)
  | .multi _ m r t => [(m, r, t)]
  | _ => []

/-- The binding that Z z needs of the issuing caravan's party, with at least n granules. -/
def mxBound (s : State) (z n : Nat) : Bool :=
  match s.me.party with
  | none => false
  | some p => match zName s s.cur.core p z with
    | some b => b.grans.length ≥ n
    | none => false

/-- A matrix instruction as the sequencer holds it; none where R294 check 3 raises RESOURCE. -/
def mxMake (s : State) (kind : MxKind) (ty rm n zd : Nat) (zs : Option (Nat × Nat)) (need : Nat) (a b : Option MxSrc)
    (t : Option Nat) (q : Nat) : Option MxOp :=
  match s.me.party, a, b with
  | some (pk, pe), some a, some b =>
    if !mxBound s zd need || !(match zs with
        | some (z, n) => mxBound s z n && (kind != .msca || z ≠ zd)
        | none => true) then none
    else some { kind := kind, ty := ty, rm := rm, s := n, k := 32, zd := zd, zs := zs.map (·.1), a := a, b := b, t := t, q := q,
                pcore := pk, pent := pe, started := false, step := 0, rounds := (a.rounds ++ b.rounds).eraseDups,
                stopped := false, flags := 0 }
  | _, _, _ => none

/-- Granules that a layout needs (R287). -/
def layoutGranules (f : Nat) : Nat := if f = 7 then 2 else 1

/-- R294 check 3 of each instruction of the class. -/
def mxPlan (s : State) (i : Instr) : Option MxOp :=
  let none_ : Option MxSrc := some .none
  let src (o : Operand) (ty : Nat) : Option MxSrc := mxSource s (typeBits ty) o
  match i with
  | .mma f => let ty := modBits f.m 2 4; mxMake s .mma ty 0 0 f.d.zNum none 1 (src f.a ty) (src f.b ty) none 0
  | .mmas f => let ty := modBits f.m 2 4; mxMake s .mmas ty 0 0 f.d.zNum none 1 (src f.a ty) (src f.b ty) none (modBits f.m 6 3)
  | .mmx f => let ty := modBits f.m 2 4; mxMake s .mmx ty 0 0 f.d.zNum none 4 (src f.a ty) (src f.b ty) none 0
  | .msca f => mxMake s .msca 6 0 0 f.d.zNum (some (f.a.zNum, 4)) 1 none_ none_ (some f.b.tileNum) 0
  | .msl f =>
    let ty := if modBits f.m 8 1 = 1 then 6 else 7
    let n := if modBits f.m 9 1 = 1 then (s.sreg (modBits f.m 0 6)).toNat else modBits f.m 0 6
    if n = 0 || n > (if ty = 7 then 8 else 4) then none
    else mxMake s .msl ty 0 n f.d.zNum none (if ty = 7 then 5 else 3) (src f.a ty) (src f.b ty) none 0
  | .mzero f => let ty := modBits f.m 2 4; mxMake s .mzero ty 0 0 f.d.zNum none (layoutGranules ty) none_ none_ none 0
  | .mlda f => let ty := modBits f.m 2 4; mxMake s .mlda ty 0 0 f.d.zNum none (layoutGranules ty) none_ none_ (some f.a.tileNum) 0
  | .mcvt f =>
    let ty := modBits f.m 2 4
    mxMake s .mcvt ty (modBits f.m 0 2) 0 f.a.zNum (some (f.a.zNum, layoutGranules ty)) (layoutGranules ty) none_ none_
      (some f.d.tileNum) 0
  | _ => none

/-! ## Shapes (R290, R299) -/

/-- K legal for a type. -/
def kOk (ty k : Nat) : Bool := if ty = 0 then k % 64 = 0 && 64 ≤ k && k ≤ 512 else k % 32 = 0 && 32 ≤ k && k ≤ 256

/-- The tile where a source lies. -/
def MxSrc.place : MxSrc → Option (Nat × Nat)
  | .tile c t => some (c, t)
  | .multi c _ _ t => some (c, t)
  | _ => Option.none

/-- K of an instruction, from its A tile. -/
def mxK (s : State) (m : MxOp) : Nat :=
  match m.a.place with
  | some (c, t) => ((s.tile c t).cols + 1) * (if m.kind = .mmas then 2 else 1)
  | none => 32

/-- Formats that MLDA takes for a layout. -/
def mldaTakes (f fmt : Nat) : Bool :=
  if f = 8 then [8, 12, 14, 13, 15, 1, 0].contains fmt
  else if f = 6 then [6, 4, 5].contains fmt else [7, 6].contains fmt

/-- The tiles that an instruction reads, with what each must be. -/
def mxWants (s : State) (k : Nat) (m : MxOp) : List (Nat × Nat × (Tile → Bool)) :=
  let one (src : MxSrc) (p : Tile → Bool) : List (Nat × Nat × (Tile → Bool)) :=
    match src.place with
    | some (c, t) => [(c, t, p)]
    | none => []
  match m.kind with
  | .mmx =>
    one m.a (fun x => x.rows = 63 && x.cols = 31 && x.fmt = m.ty) ++ one m.b (fun x => x.rows = 31 && x.cols = 63 && x.fmt = m.ty)
  | .msca => [(k, m.t.getD 0, fun x => x.rows = 1 && x.cols = 63 && x.fmt = 13)]
  | .mlda => [(k, m.t.getD 0, fun x => x.rows = 63 && x.cols = 63 && mldaTakes m.ty x.fmt)]
  | .mzero => []
  | .mcvt => []
  | _ =>
    one m.a (fun x => x.rows = 63 && x.fmt = m.ty && kOk m.ty (mxK s m)) ++
      one m.b (fun x => x.rows + 1 = mxK s m && x.cols = 63 && x.fmt = m.ty)

/-! ## Issue (R294) -/

/-- The interruptible instructions. -/
def MxKind.stops : MxKind → Bool
  | .mma => true
  | .mmas => true
  | .msl => true
  | _ => false

/-- OP of a header (R288). -/
def MxKind.code : MxKind → Nat
  | .mma => 1
  | .mmas => 2
  | .msl => 3
  | _ => 0

/-- R294 check 4: the caravan has an MMA, MMAS or MSL outstanding. -/
def mxOutstanding (s : State) (k slot : Nat) : Bool :=
  (s.mine k slot false).any (fun o => !o.done && match o.kind with
    | .matrix m => m.kind.stops
    | _ => false)

/-- R294 check 2. -/
def State.converged (s : State) : Bool := s.me.mask = maskWhere s.me.width (fun _ => true)

/-- PROGRESS (R302). -/
def progressWord (step : Nat) (pc : W64) : W64 :=
  BitVec.ofNat 64 (2 ^ 63 + 2 ^ 57 * step + field pc.toNat 2 55 * 4)

/-- The step at which an instruction that issues starts (R303). -/
def mxResume (s : State) (m : MxOp) : Nat :=
  let p := s.me.progress.toNat
  match zName s s.cur.core (m.pcore, m.pent) m.zd with
  | some b =>
    if m.kind.stops && field p 63 1 = 1 && field p 2 55 = field s.pc.toNat 2 55 && Hdr.op b.hdr = m.kind.code &&
        Hdr.step b.hdr = field p 57 6 && (m.kind != .msl || Hdr.s b.hdr = m.s) then field p 57 6 else 0
  | none => 0

/-- A tile that a source names is not of its instruction's requirement. -/
def mxBadTile (s : State) (w : Nat × Nat × (Tile → Bool)) : Bool :=
  let x := s.tile w.1 w.2.1
  !x.defined || x.ctx ≠ s.me.ctx || x.st = .empty || !w.2.2 x

/-- R294 from check 2 on. While check 4 holds it back, nothing happens. -/
def State.mxIssue (s : State) (i : Instr) (f : Fields) : State :=
  let k := s.cur.core
  if !s.converged then s.raiseCv .illegalConvergence
  else match mxPlan s i with
    | none => s.raiseCv .resource
    | some m =>
      if mxOutstanding s k s.cur.slot then s
      else
        let ws := mxWants s k m
        let go (s : State) : State :=
          (s.addOp f .MX (.matrix { m with k := mxK s m, step := mxResume s m }) [] [] [] []).advance
        let wait (go : State) : State :=
          match ws.find? (fun w => (s.tile w.1 w.2.1).st != .ready) with
          | some w => s.block (.tileReady w.1 w.2.1) 0
          | none => go
        if ws.any (fun w => mxBadTile s w) then s.raiseTile false
        else if ws.any (fun w => (s.tile w.1 w.2.1).st = .ready && (s.tile w.1 w.2.1).err) then s.raiseTile true
        else match m.kind, m.t with
          | .mcvt, some t =>
            let x := s.tile k t
            if !x.defined || x.ctx ≠ s.me.ctx || x.rows ≠ 63 || x.cols ≠ 63 || x.fmt = 2 || x.fmt = 3 then s.raiseTile false
            else wait (s.fillTile t x (go (s.setTile k t (x.fill ((x.cells * typeBits x.fmt + 7) / 8)))))
          | _, _ => wait (go s)

def execMma (f : Fields) (s : State) : Outcome State Fault Refusal :=
  issue (.mma f) f false true (fun s => s.mxIssue (.mma f) f) s

def execMmas (f : Fields) (s : State) : Outcome State Fault Refusal :=
  issue (.mmas f) f false true (fun s => s.mxIssue (.mmas f) f) s

def execMmx (f : Fields) (s : State) : Outcome State Fault Refusal :=
  issue (.mmx f) f false true (fun s => s.mxIssue (.mmx f) f) s

def execMsca (f : Fields) (s : State) : Outcome State Fault Refusal :=
  issue (.msca f) f false true (fun s => s.mxIssue (.msca f) f) s

def execMsl (f : Fields) (s : State) : Outcome State Fault Refusal :=
  issue (.msl f) f false true (fun s => s.mxIssue (.msl f) f) s

def execMzero (f : Fields) (s : State) : Outcome State Fault Refusal :=
  issue (.mzero f) f false true (fun s => s.mxIssue (.mzero f) f) s

def execMlda (f : Fields) (s : State) : Outcome State Fault Refusal :=
  issue (.mlda f) f false true (fun s => s.mxIssue (.mlda f) f) s

def execMcvt (f : Fields) (s : State) : Outcome State Fault Refusal :=
  issue (.mcvt f) f false true (fun s => s.mxIssue (.mcvt f) f) s

/-- R294 check 4 keeps an instruction from being eligible (R66). -/
def mxHeld (s : State) (i : Instr) : Bool :=
  let check (f : Fields) : Bool :=
    mxOutstanding s s.cur.core s.cur.slot && !s.cur.slice && legal i && limitsOk s i f && s.caravanGuard f && s.converged &&
      (mxPlan s i).isSome
  match i with
  | .mma f => check f
  | .mmas f => check f
  | .mmx f => check f
  | .msca f => check f
  | .msl f => check f
  | .mzero f => check f
  | .mlda f => check f
  | .mcvt f => check f
  | _ => false

/-- R301. -/
def execMstat (f : Fields) (s : State) : Outcome State Fault Refusal :=
  issue (.mstat f) f false true
    (fun s =>
      let h := match s.me.party with
        | none => 0
        | some p => match zName s s.cur.core p f.a.zNum with
          | some b => b.hdr
          | none => 0
      (s.setS f.d.sreg h).advance) s

/-! ## The sequencer (R295) -/

/-- An operation's matrix instruction. -/
def Op.mx (o : Op) : Option MxOp :=
  match o.kind with
  | .matrix m => if o.done then none else some m
  | _ => none

/-- The MAC array, else the scale pipe. -/
def MxKind.mac : MxKind → Bool
  | .mma => true
  | .mmas => true
  | .mmx => true
  | .msl => true
  | _ => false

/-- Z names that an instruction writes, and reads. -/
def MxOp.writes (m : MxOp) : List Nat := if m.kind = .mcvt then [] else [m.zd]
def MxOp.readsZ (m : MxOp) : List Nat :=
  match m.kind with
  | .msca => m.zd :: m.zs.toList
  | .mcvt => m.zs.toList
  | .mzero => []
  | .mlda => []
  | .mmx => []
  | _ => [m.zd]

/-- An earlier instruction of the core keeps a later one from starting. -/
def mxHolds (k : Nat) (e : MxOp) (m : MxOp) : Bool :=
  (decide (e.pcore = m.pcore) && decide (e.pent = m.pent) &&
    (e.writes.any (fun z => m.writes.contains z || m.readsZ.contains z) || e.readsZ.any (fun z => m.writes.contains z))) ||
  (e.kind = .mcvt && match e.t with
    | some t => (m.tiles k).contains (k, t)
    | none => false)

/-- The instruction of an operation may start, or start again after a stop (R295). -/
def mxMayStart (s : State) (o : Op) : Bool :=
  match o.mx with
  | none => false
  | some m =>
    (!m.started || m.stopped) && o.held.isEmpty && (!m.kind.stops || (s.ctx o.ctx).st != .saving) &&
      s.ops.all (fun p => match p.mx with
        | none => true
        | some e =>
          p.core ≠ o.core || p.id = o.id ||
            (!(e.started && !e.stopped && e.kind.mac == m.kind.mac) &&
              (p.id > o.id || (!mxHolds o.core e m && (p.cslot ≠ o.cslot || e.started)))))

/-- Write the progress of an instruction into its header (R288). -/
def State.mxHeader (s : State) (o : Op) (m : MxOp) : State :=
  if m.kind.stops then
    s.setHdr o.core (m.pcore, m.pent) m.zd (fun h => Hdr.progress h m.kind.code (if m.kind = .msl then m.s else 0) m.step)
  else s

/-- Bytes of the exact part X and where it stands (R287). -/
def xBytes (ty : Nat) : Nat := if ty = 7 then 12 else 8
def xAt (ty o : Nat) : Nat := if ty = 7 then 32768 + 12 * o else 16384 + 8 * o

/-- The granules of an instruction's Z name. -/
def granulesOf (s : State) (k : Nat) (m : MxOp) (z : Nat) : List Nat :=
  match zName s k (m.pcore, m.pent) z with
  | some b => b.grans
  | none => []

/-- The sequencer starts an instruction. -/
def execMatrixStart (op : Nat) (s : State) : Outcome State Fault Refusal :=
  .next <|
    match s.op op with
    | none => s
    | some o => match o.mx with
      | none => s
      | some m =>
        if !mxMayStart s o || s.ops.any (fun p => p.core = o.core && p.id < o.id && mxMayStart s p) then s
        else
          let m := { m with started := true, stopped := false }
          let s := (s.setOp { o with kind := .matrix m }).mxHeader o m
          if m.kind = .msl && m.step = 0 then
            let gs := granulesOf s o.core m m.zd
            { s with mem := outputs.foldl (fun mem x => accStore mem o.core gs (xAt m.ty x) (xBytes m.ty) 0) s.mem }
          else s

/-- A round of a set is delivered, once every member has registered its request (R291). -/
def execMulticastRound (die cluster mask tile : Nat) (s : State) : Outcome State Fault Refusal :=
  .next <|
    let members := ((List.range 8).filter (fun c => field mask c 1 = 1)).map (fun c => 96 * die + 8 * cluster + c)
    let wants (kid : KernelId) (r : Nat) (o : Op) : Bool :=
      match o.mx with
      | some m => decide ((s.cv o.core o.cslot).kid = kid) && !m.stopped && m.rounds.contains (BitVec.ofNat 8 mask, r, tile)
      | none => false
    let sets := (s.ops.filter (fun o => members.contains o.core)).flatMap (fun o =>
      (List.range 8).filterMap (fun r => let kid := (s.cv o.core o.cslot).kid; if wants kid r o then some (kid, r) else none))
    match sets.find? (fun p => members.all (fun k => s.ops.any (fun o => o.core = k && wants p.1 p.2 o))) with
    | none => s
    | some (kid, r) =>
      members.foldl (fun s k =>
        match s.ops.find? (fun o => o.core = k && wants kid r o) with
        | some o => match o.mx with
          | some m => s.setOp { o with kind := .matrix { m with rounds := m.rounds.filter (fun x => x ≠ (BitVec.ofNat 8 mask, r, tile)) } }
          | none => s
        | none => s) s

/-! ## Operand values -/

/-- Element (i, j) of a tile operand. -/
def srcElem (s : State) (src : MxSrc) (i j : Nat) : Nat :=
  match src.place with
  | some (c, t) => tileGet s c (s.tile c t) i j
  | none => 0

/-- What keeps an instruction from its next step. -/
inductive MxStop where
  | waits
  | remote (r : Req)
  | fails (c : LaneCause) (va : W64)
  | parks (level : Nat) (va : W64)
  deriving Repr

/-- Reads of a streamed B: units of a row. -/
def streamUnits (ty : Nat) : Nat := if ty = 0 then 32 else 64
def streamWidth (ty : Nat) : Nat := if ty = 0 then 1 else typeBits ty / 8

/-- Read units lo .. lo+n−1 of a streamed B, in ascending order; a reply from another node stands in the operation under
the unit's number (R292). -/
def State.streamRead (s : State) (o : Op) (ty : Nat) (base pitch : W64) : List Nat → State × (List (Nat × Nat) ⊕ MxStop)
  | [] => (s, .inl [])
  | u :: r =>
    let va := base + BitVec.ofNat 64 (u / streamUnits ty) * pitch + BitVec.ofNat 64 (u % streamUnits ty * streamWidth ty)
    let got := match o.vals.find? (fun p => p.1 = u) with
      | some (_, x) => (s, Res.ok x.toNat)
      | none => s.checkedAccess (engineUser o false) .plain va (streamWidth ty) (streamWidth ty) .rd
    match got with
    | (s, .ok x) => match s.streamRead o ty base pitch r with
      | (s, .inl l) => (s, .inl ((u, x) :: l))
      | r => r
    | (s, .busy) => (s, .inr .waits)
    | (s, .remote) => (s, .inr (.remote (copyReq u va (streamWidth ty) .rd)))
    | (s, .fill) => (s, .inr (.remote { copyReq u va (streamWidth ty) .rd with fill := true }))
    | (s, .cause c) => (s, .inr (.fails c va))
    | (s, .park level) => (s, .inr (.parks level va))

/-- Rows lo .. lo+n−1 of B as a function of (k, j). -/
def State.rowsOfB (s : State) (o : Op) (m : MxOp) (lo n : Nat) : State × ((Nat → Nat → Nat) ⊕ MxStop) :=
  match m.b with
  | .stream base pitch =>
    if s.engineWaits o then (s, .inr .waits)
    else
      let u := streamUnits m.ty
      match s.streamRead o m.ty base pitch ((List.range (n * u)).map (fun i => lo * u + i)) with
      | (s, .inl l) => (s, .inl (fun k j =>
          if m.ty = 0 then field (sget 0 l (k * u + j / 2)) (4 * (j % 2)) 4 else sget 0 l (k * u + j)))
      | (s, .inr r) => (s, .inr r)
  | b => (s, .inl (fun k j => srcElem s b k j))

/-! ## MMA and MMAS (R177, R297) -/

def sumInt (l : List Int) : Int := l.foldl (· + ·) 0
def sumFlags (l : List Flag) : Flag := l.foldl (· ||| ·) 0

/-- One saturated step of an INT32 accumulator. -/
def macAdd (acc part : Int) : Int × Flag :=
  let v := acc + part
  (clamp (-(2 ^ 31 - 1)) (2 ^ 31 - 1) v, flagIf (v > 2 ^ 31 - 1 || v < -(2 ^ 31 - 1)) fSAT)

/-- The 32 elements of a row of A in step t of an MMA. -/
def macRow (s : State) (m : MxOp) (t i : Nat) : List (Int × Flag) :=
  (List.range 32).map (fun k => siValue m.ty (srcElem s m.a i (32 * t + k)))

/-- The same for MMAS, placed by a row's metadata word. -/
def sparseRow (s : State) (m : MxOp) (t i w : Nat) : List (Int × Flag) :=
  (List.range 32).map (fun k =>
    let g := k / 4
    let put (n : Nat) : Int × Flag :=
      if field w (4 * g + 2 * n) 2 = k % 4 then siValue m.ty (srcElem s m.a i (16 * t + 2 * g + n)) else (0, 0)
    ((put 0).1 + (put 1).1, (put 0).2 ||| (put 1).2))

/-- One K-step over every output: memory after it, and the flags of its operands and sums. -/
def macStep (s : State) (o : Op) (m : MxOp) (rows : Nat → List (Int × Flag)) (b : Nat → Nat → Nat) : State × Flag :=
  let gs := granulesOf s o.core m m.zd
  let as_ := (List.range 64).map rows
  let bs := (List.range 64).map (fun j => (List.range 32).map (fun k => siValue m.ty (b (32 * m.step + k) j)))
  let fl := sumFlags ((as_ ++ bs).flatMap (fun l => l.map (·.2)))
  let (mem, fl) := outputs.foldl (fun (a : Memory × Flag) x =>
    let part := sumInt (((as_.getD (x / 64) []).zip (bs.getD (x % 64) [])).map (fun p => p.1.1 * p.2.1))
    let (v, f) := macAdd (signed 32 (accLoad a.1 o.core gs (4 * x) 4)) part
    (accStore a.1 o.core gs (4 * x) 4 (wrap 32 v), a.2 ||| f)) (s.mem, fl)
  ({ s with mem := mem }, fl)

/-- Queue entries of one metadata entry (R92). -/
def metaEntries (c : Caravan) : Nat := if c.width = 32 then 2 else 1

/-- Row i's word of the metadata entry at the head of queue q of a caravan of core k (R92). -/
def metaWord (s : State) (k : Nat) (c : Caravan) (q i : Nat) : Nat :=
  let n := min c.width 64
  s.storeLoad k (c.queueAt q ((c.queues.getD q (OpQueue.fresh true)).head + i / n) + 4 * (i % n)) 4

/-! ## MMX, MSCA (R178, R179, R298, R299) -/

def mmxPartials (s : State) (o : Op) (m : MxOp) (b : Nat → Nat → Nat) : State × Flag :=
  let gs := granulesOf s o.core m m.zd
  let as_ := (List.range 64).map (fun i => (List.range 32).map (fun k => dxParts m.ty (srcElem s m.a i k)))
  let bs := (List.range 64).map (fun j => (List.range 32).map (fun k => dxParts m.ty (b k j)))
  let fl := sumFlags ((as_ ++ bs).flatMap (fun l => l.map (fun p => p.2.2)))
  let mem := outputs.foldl (fun mem x =>
    let ps := (as_.getD (x / 64) []).zip (bs.getD (x % 64) [])
    (List.range 4).foldl (fun mem n =>
      let p := sumInt ((ps.filter (fun p => p.1.1 = n / 2 && p.2.1 = n % 2)).map (fun p => p.1.2.1 * p.2.2.1))
      accStore mem o.core gs (16384 * n + 4 * x) 4 (wrap 32 p)) mem) s.mem
  ({ s with mem := mem }, fl)

/-- One output of MSCA: the accumulator's bits, the partials P[0][0], P[0][1], P[1][0], P[1][1], and the exponent pairs. -/
def mscaOne (z : Nat) (p : List Int) (ea eb : Nat) : Nat × Flag :=
  let e (n : Nat) : Int := dxExp ea (n / 2) + dxExp eb (n % 2)
  let y := sumInt ((List.range 4).map (fun n => p.getD n 0 * 2 ^ (e n + 256).toNat))
  match decodeFp fp32 z with
  | .nan sg => (fp32.nan, flagIf sg fNV)
  | .inf _ => (z, 0)
  | .fin neg v x =>
    if y = 0 then (z, 0)
    else
      let (i, k) := addExact (neg, v, x) (y < 0, y.natAbs, -256)
      roundSum fp32 0 i k false

/-- Output x of MSCA: its accumulator in memory, and the flags so far. -/
def mscaOut (s : State) (o : Op) (m : MxOp) (a : Memory × Flag) (x : Nat) : Memory × Flag :=
  let gd := granulesOf s o.core m m.zd
  let gp := granulesOf s o.core m (m.zs.getD 0)
  let te := s.tile o.core (m.t.getD 0)
  let p := (List.range 4).map (fun n => signed 32 (accLoad a.1 o.core gp (16384 * n + 4 * x) 4))
  let r := mscaOne (accLoad a.1 o.core gd (4 * x) 4) p (tileGet s o.core te 0 (x / 64)) (tileGet s o.core te 1 (x % 64))
  (accStore a.1 o.core gd (4 * x) 4 r.1, a.2 ||| r.2)

def mscaAll (s : State) (o : Op) (m : MxOp) : State × Flag :=
  let r := outputs.foldl (mscaOut s o m) (s.mem, 0)
  ({ s with mem := r.1 }, r.2)

/-! ## MZERO, MLDA, MCVT (R299) -/

/-- Every byte of every granule of the name. -/
def mzeroAll (s : State) (o : Op) (m : MxOp) : State :=
  { s with mem := (granulesOf s o.core m m.zd).foldl (fun mem g => mzero mem (Flat.accum o.core (16384 * g)) 16384) s.mem }

/-- An element in a layout: its exact value, and a NaN canonical (R164, R299). -/
def widenTo (f fmt x : Nat) : Nat × Flag :=
  if fmt = f then (if f ≠ 8 && (decodeFp (fmtOf f) x).isNan then (fmtOf f).nan else x, 0)
  else let (v, fl) := convert 0 fmt f x; (v, fl &&& fRSVD)

def mldaAll (s : State) (o : Op) (m : MxOp) : State × Flag :=
  let gs := granulesOf s o.core m m.zd
  let ta := s.tile o.core (m.t.getD 0)
  let n := layoutBytes m.ty
  let (mem, fl) := outputs.foldl (fun (a : Memory × Flag) x =>
    let (v, f) := widenTo m.ty ta.fmt (tileGet s o.core ta (x / 64) (x % 64))
    (accStore a.1 o.core gs (n * x) n v, a.2 ||| f)) (s.mem, (0 : Flag))
  ({ s with mem := mem }, fl)

def mcvtAll (s : State) (o : Op) (m : MxOp) : State × Flag :=
  let gs := granulesOf s o.core m m.zd
  let t := m.t.getD 0
  let n := layoutBytes m.ty
  let (s, fl) := outputs.foldl (fun (a : State × Flag) x =>
    let td := a.1.tile o.core t
    let (v, f) := convert m.rm m.ty td.fmt (accLoad a.1.mem o.core gs (n * x) n)
    (a.1.tilePut o.core td (x / 64) (x % 64) v, a.2 ||| f)) (s, (0 : Flag))
  (s.setTile o.core t (s.tile o.core t).filled, fl)

/-! ## MSL (R180 to R184, R300) -/

/-- rne(y / 2^d). -/
def rneShift (y : Int) (d : Nat) : Int :=
  let q := y / 2 ^ d
  let r := y % 2 ^ d
  if 2 * r > 2 ^ d || (2 * r = 2 ^ d && q % 2 = 1) then q + 1 else q

/-- The s digits of x = y / 2^d, and whether a residual is left (R181). -/
def digitsOf (d : Nat) : Nat → Int → List Int × Bool
  | 0, y => ([], y ≠ 0)
  | n + 1, y =>
    let g := rneShift (128 * y) d
    let (l, res) := digitsOf d n (128 * y - g * 2 ^ d)
    (g :: l, res)

/-- A row of A or a column of B, split: the exponent of its scale, its digits by k, what R184 and NX ask. -/
structure Split where
  exp     : Int
  special : Bool
  digits  : List (List Int)
  left    : Bool
  deriving Repr

def splitRow (f : Fmt) (n : Nat) (l : List Nat) : Split :=
  let vs := l.map (decodeFp f)
  let top (v : Val) : Option Int := match v with
    | .fin _ m e => if m = 0 then none else some (e + ((digits m : Nat) : Int) - 1)
    | _ => none
  let e := match vs.filterMap top with
    | [] => 0
    | x :: r => r.foldl max x
  let ds := vs.map (fun v => match v with
    | .fin neg m x => digitsOf (e + 2 - x).toNat n (if neg then -(m : Int) else m)
    | _ => (List.replicate n 0, false))
  { exp := e + 2, special := vs.any (fun v => v.isNan || v.isInf), digits := ds.map (·.1), left := ds.any (·.2) }

/-- The slice steps (p, q) in order (R182). -/
def sliceSteps (n : Nat) : List (Nat × Nat) :=
  (List.range n).flatMap (fun u => (List.range (u + 1)).map (fun p => (p + 1, u + 1 - p)))

/-- Σ_k d[p]·e[q]. -/
def digitDot (a b : Split) (p q : Nat) : Int :=
  sumInt ((a.digits.zip b.digits).map (fun x => x.1.getD (p - 1) 0 * x.2.getD (q - 1) 0))

/-- Some product d[p]·e[q] with p + q ≥ s + 2 is not zero. -/
def dropped (n : Nat) (a b : Split) : Bool :=
  (a.digits.zip b.digits).any (fun x => (List.range n).any (fun p => (List.range n).any (fun q =>
    p + q ≥ n && x.1.getD p 0 * x.2.getD q 0 ≠ 0)))

/-- One slice step over every output: X grows. -/
def sliceStep (s : State) (o : Op) (m : MxOp) (as_ bs : List Split) (step : Nat) : State :=
  let gs := granulesOf s o.core m m.zd
  let (p, q) := (sliceSteps m.s).getD step (1, 1)
  let empty : Split := { exp := 0, special := false, digits := [], left := false }
  let n := xBytes m.ty
  { s with mem := outputs.foldl (fun mem x =>
      let old := signed (8 * n) (accLoad mem o.core gs (xAt m.ty x) n)
      let v := old + digitDot (as_.getD (x / 64) empty) (bs.getD (x % 64) empty) p q * 128 ^ (m.s + 1 - p - q)
      accStore mem o.core gs (xAt m.ty x) n (wrap (8 * n) v)) s.mem }

/-- The final add of one output (R183, R184). -/
def sliceOut (f : Fmt) (n : Nat) (a b : Split) (z : Nat) (x : Int) : Nat × Flag :=
  if a.special || b.special then (f.nan, fNV)
  else match decodeFp f z with
    | .nan sg => (f.nan, flagIf sg fNV)
    | .inf _ => (z, 0)
    | .fin neg v e =>
      if x = 0 then (z, 0)
      else
        let (i, k) := addExact (neg, v, e) (x < 0, x.natAbs, a.exp + b.exp - 7 * ((n + 1 : Nat) : Int))
        roundSum f 0 i k false

def sliceEnd (s : State) (o : Op) (m : MxOp) (as_ bs : List Split) : State × Flag :=
  let gs := granulesOf s o.core m m.zd
  let f := fmtOf m.ty
  let w := layoutBytes m.ty
  let n := xBytes m.ty
  let empty : Split := { exp := 0, special := false, digits := [], left := false }
  let lost := (as_ ++ bs).any (·.left) || as_.any (fun a => bs.any (fun b => dropped m.s a b))
  let (mem, fl) := outputs.foldl (fun (acc : Memory × Flag) x =>
    let (v, g) := sliceOut f m.s (as_.getD (x / 64) empty) (bs.getD (x % 64) empty) (accLoad acc.1 o.core gs (w * x) w)
      (signed (8 * n) (accLoad acc.1 o.core gs (xAt m.ty x) n))
    (accStore acc.1 o.core gs (w * x) w v, acc.2 ||| g)) (s.mem, flagIf lost fNX)
  ({ s with mem := mem }, fl)

/-! ## Running, stopping, completing (R295, R303) -/

/-- Steps of an instruction: K-steps, slice steps, or one. -/
def MxOp.total (m : MxOp) : Nat :=
  match m.kind with
  | .mma => m.k / 32
  | .mmas => m.k / 32
  | .msl => m.s * (m.s + 1) / 2
  | _ => 1

/-- An instruction that stops: header and PROGRESS hold its step. -/
def State.recordStop (s : State) (o : Op) (m : MxOp) : State :=
  let s := s.mxHeader o m
  let c := s.cv o.core o.cslot
  s.setCv o.core o.cslot { c with progress := progressWord m.step o.pc }

/-- What happens when the next step cannot be done; a cause is every lane's that has not exited (R92, R109, R292). -/
def State.mxStopped (s : State) (o : Op) (m : MxOp) (x : MxStop) : State :=
  match x with
  | .waits => s
  | .remote r => (s.setOp { o with remote := [r] }).sendRequests o.id o.ctx [r]
  | .fails c va => ((s.recordStop o m).finishOp o).engineCause o none (fun v => v.exist &&& ~~~v.gone) c va
  | .parks level va =>
    (s.recordStop o m).parkEngine { o with kind := .matrix { m with stopped := true } } 3 o.pc 0 va.toNat level (.stream o.id)

/-- Completion: FMT and flags into the header, PROGRESS zero, FLAGS raised; it retires. -/
def State.mxDone (s : State) (o : Op) (m : MxOp) (fl : Flag) : State :=
  let fmt := match m.kind with
    | .mma => 1
    | .mmas => 1
    | .mmx => 4
    | .msca => 2
    | _ => layoutFmt m.ty
  let fl := m.flags ||| fl
  let s := if m.kind = .mcvt then s
    else s.setHdr o.core (m.pcore, m.pent) m.zd (fun h => Hdr.written h fmt fl (m.kind = .mzero || m.kind = .mlda) m.kind.stops)
  let c := s.cv o.core o.cslot
  let s := s.setCv o.core o.cslot { c with flags := c.flags ||| fl, progress := if m.kind.stops then 0 else c.progress }
  s.finishOp o

/-- One K-step of MMA or MMAS: its state and flags, or what stops it. -/
def State.kStep (s : State) (o : Op) (m : MxOp) : State × (Flag ⊕ MxStop) :=
  let c := s.cv o.core o.cslot
  let q := c.queues.getD m.q (OpQueue.fresh true)
  let n := metaEntries c
  if m.kind = .mmas && q.count < n then
    (s, .inr (if q.closed then .fails (if q.qerr then .queueFaulted else .queueClosed) 0 else .waits))
  else
    match s.rowsOfB o m (32 * m.step) 32 with
    | (s, .inr x) => (s, .inr x)
    | (s, .inl b) =>
      if m.kind = .mmas then
        let (s, fl) := macStep s o m (fun i => sparseRow s m m.step i (metaWord s o.core c m.q i)) b
        let c := s.cv o.core o.cslot
        let q := (List.range n).foldl (fun q _ => q.pop c.qdepth) (c.queues.getD m.q (OpQueue.fresh true))
        (s.setCv o.core o.cslot { c with queues := c.queues.set m.q q }, .inl fl)
      else
        let (s, fl) := macStep s o m (fun i => macRow s m m.step i) b
        (s, .inl fl)

/-- Up to n K-steps of MMA or MMAS; it completes with its last one. -/
def State.macRun (s : State) (id : Nat) : Nat → State
  | 0 => s
  | n + 1 =>
    match s.op id with
    | none => s
    | some o => match o.mx with
      | none => s
      | some m =>
        match s.kStep o m with
        | (s, .inr x) => s.mxStopped o m x
        | (s, .inl fl) =>
          let m := { m with step := m.step + 1, flags := m.flags ||| fl }
          if m.step ≥ m.total then s.mxDone o m 0
          else ((s.setOp { o with kind := .matrix m, vals := [] }).mxHeader o m).macRun id n

/-- Up to n slice steps of MSL; it completes with its last one. -/
def State.sliceRun (s : State) (o : Op) (m : MxOp) (n : Nat) : State :=
  match s.rowsOfB o m 0 m.k with
  | (s, .inr x) => s.mxStopped o m x
  | (s, .inl b) =>
    let f := fmtOf m.ty
    let as_ := (List.range 64).map (fun i => splitRow f m.s ((List.range m.k).map (fun k => srcElem s m.a i k)))
    let bs := (List.range 64).map (fun j => splitRow f m.s ((List.range m.k).map (fun k => b k j)))
    let todo := min n (m.total - m.step)
    let s := (List.range todo).foldl (fun s i => sliceStep s o m as_ bs (m.step + i)) s
    let m := { m with step := m.step + todo }
    if m.step ≥ m.total then
      let (s, fl) := sliceEnd s o m as_ bs
      s.mxDone o m fl
    else (s.setOp { o with kind := .matrix m, vals := [] }).mxHeader o m

/-- An instruction that has started, is not stopped, waits for no other node, and has had its rounds. -/
def mxRuns (o : Op) : Option MxOp :=
  match o.mx with
  | some m => if m.started && !m.stopped && m.rounds.isEmpty && o.held.isEmpty && o.remote.isEmpty then some m else none
  | none => none

/-- Run up to n steps of an instruction. -/
def State.mxRun (s : State) (o : Op) (m : MxOp) (n : Nat) : State :=
  match m.kind with
  | .mma => s.macRun o.id n
  | .mmas => s.macRun o.id n
  | .msl => s.sliceRun o m n
  | .mmx => let (s, fl) := mmxPartials s o m (fun k j => srcElem s m.b k j); s.mxDone o m fl
  | .msca => let (s, fl) := mscaAll s o m; s.mxDone o m fl
  | .mzero => (mzeroAll s o m).mxDone o m 0
  | .mlda => let (s, fl) := mldaAll s o m; s.mxDone o m fl
  | .mcvt => let (s, fl) := mcvtAll s o m; s.mxDone o m fl

/-- The instruction runs its remaining steps and completes, unless a step cannot be done. -/
def execMatrixComplete (op : Nat) (s : State) : Outcome State Fault Refusal :=
  .next <|
    match s.op op with
    | none => s
    | some o => match mxRuns o with
      | none => s
      | some m => s.mxRun o m m.total

/-- SAVING stops an interruptible instruction at a step boundary; one that runs does first a number of steps that is left
open. It stays counted (R303, R304). -/
def execMatrixStop (op : Nat) (s : State) : Outcome State Fault Refusal :=
  .next <|
    match s.op op with
    | none => s
    | some o => match o.mx with
      | none => s
      | some m =>
        if (s.ctx o.ctx).st != .saving || !m.kind.stops || m.stopped then s
        else
          let s := match mxRuns o with
            | some m => let (w, s) := s.fresh; s.mxRun o m (w.toNat % (m.total - m.step))
            | none => s
          match s.op op with
          | none => s
          | some o => match o.mx with
            | none => s
            | some m =>
              if m.stopped then s
              else (s.recordStop o m).setOp { o with kind := .matrix { m with stopped := true } }

end Sys2Proof.Machine
end

