-- ==== Sys2Proof/Machine/Fetch.lean ====
section
/-! DEFINITION. Fetching an instruction (R209, R221 check 1), deciding who may issue (R66, R93, R212), and placing an
instruction where the next step fetches it. -/

namespace Sys2Proof.Machine

open Host (Outcome)

/-! ## Fetch -/

/-- The access of word i of the instruction at the issuing agent's PC. -/
def State.fetchReq (s : State) (i : Nat) : Req :=
  mkReq i (s.pc + BitVec.ofNat 64 (4 * i)) 4 .rd

/-- The issuing agent's fetch at its PC that waits for its bytes. -/
def State.fetchOp (s : State) : Option Op :=
  (s.mine s.cur.core s.cur.slot s.cur.slice).find? (fun o => o.cls = .fetch && o.pc = s.pc)

/-- A fetch of the issuing agent at another PC, which a trap has left behind, is dropped. -/
def State.dropFetch (s : State) : State :=
  { s with ops := s.ops.filter (fun o => !(o.core = s.cur.core && o.cslot = s.cur.slot && o.slice = s.cur.slice && o.cls = .fetch)) }

/-- Three words as an instruction word. -/
def wordOf (vals : List (Nat × BitVec 128)) : BitVec 96 :=
  BitVec.ofNat 96 ((sget 0 vals 0).toNat % 2 ^ 32 + 2 ^ 32 * ((sget 0 vals 1).toNat % 2 ^ 32) +
    2 ^ 64 * ((sget 0 vals 2).toNat % 2 ^ 32))

/-- A fetch meets an absent page with PG = 1: every active lane is faulted, or the slice (R109). -/
def State.parkFetch (s : State) (va level : Nat) : State :=
  let k := s.cur.core
  let slot := s.cur.slot
  if s.cur.slice then s.parkSlice k slot s.pc 3 va level .sliceReissue
  else s.parkCaravan k slot s.pc 3 ((lanesBelow s.me.width s.me.mask).map (fun L => (L, va, level))) .reissue

/-- Fetch the instruction at the issuing agent's PC: its word, or the state that its failure leaves. -/
def State.fetch (s : State) : State × Option (BitVec 96) :=
  match s.fetchOp with
  | some o => if o.todo.isEmpty && o.remote.isEmpty then (s.dropOp o.id, some (wordOf o.vals)) else (s, none)
  | none =>
    let s := s.dropFetch
    let a := serve s { s.user s.nextOp with fetch := true } false [] [[s.fetchReq 0], [s.fetchReq 1], [s.fetchReq 2]]
    let s := a.s
    match a.causes, a.parks with
    | (_, c, va) :: _, _ => ((s.raiseEvery c va).settle s.cur.core s.cur.slot, none)
    | [], (r, level) :: _ => (s.parkFetch r.va.toNat level, none)
    | [], [] =>
      if a.todo.isEmpty && a.remote.isEmpty then (s, some (wordOf a.vals))
      else
        let o : Op := { id := s.nextOp, core := s.cur.core, cslot := s.cur.slot, slice := s.cur.slice, ctx := s.me.ctx,
                        kid := s.me.kid, cls := .fetch, tok := none, pc := s.pc, kind := .fetch, todo := a.todo, remote := a.remote,
                        held := [], vals := a.vals, done := false }
        ({ s with nextOp := s.nextOp + 1, ops := s.ops ++ [o] }.sendRequests o.id s.me.ctx a.remote, none)

/-! ## Decoding what was fetched -/

/-- XMODE's row by the mode word that it delivers (R132). -/
def State.resolve (s : State) (i : Instr) : Instr :=
  match i with
  | .xmodeOtherWord f =>
    let w := (s.sreg f.b.sreg).toNat % 2 ^ 32
    if field w 0 8 ≠ 0 || field w 8 8 ≠ s.me.ctx then i
    else match field w 16 16 with
      | 0x3A71 => .xmodeStep1 f
      | 0x5C92 => .xmodeStep2 f
      | 0x7EB3 => .xmodeStep3 f
      | 0x9D04 => .xmodeExit f
      | _ => i
  | i => i

/-- The instruction that a fetched word stands for: an illegal word is a row of its own (R221 checks 2 to 4). -/
def State.decoded (s : State) (w : BitVec 96) : Instr :=
  match decodeBytes (toBytes 12 w.toNat) with
  | .ok (i, _) => s.resolve i
  | .error _ => .illegalWord w

/-! ## Who may issue -/

/-- The counter class of an instruction (R73, R264, R307, R310, R319, R327). -/
def classOf : Instr → Option Cls
  | .ld _ | .ldl _ | .ldw _ | .ldr _ | .atom _ | .cas _ | .mdld _ | .sld _ | .tld _ | .ldq _ => some .LD
  | .st _ | .stl _ | .stw _ | .red _ | .mdst _ | .cctl _ | .sst _ | .tst _ => some .ST
  | .cpl _ | .cpt _ | .cpq _ | .cpo _ => some .CP
  | .mma _ | .mmas _ | .mmx _ | .msca _ | .msl _ | .mzero _ | .mlda _ | .mcvt _ => some .MX
  | .coll _ | .collDone _ | .rld _ | .rst _ | .rstBlk _ | .rred _ | .ratom _ => some .CL
  | .xprog _ | .xcol _ | .xread _ => some .BX
  | _ => none

/-- The hints of an instruction word (R210). -/
def hintsOf (w : BitVec 96) : Hints :=
  { stall := w.extractLsb' 29 3, setv := w.getLsbD 28, setk := w.extractLsb' 25 3, wait := w.extractLsb' 17 8 }

/-- Contexts whose caravans issue: ACTIVE and DRAINING (R25, R26). -/
def ctxRuns (s : State) (c : Nat) : Bool := (s.ctx c).st = .active || (s.ctx c).st = .draining

/-- A relay caravan runs too while its context is SAVING and a gang pause that it has not acknowledged is under way; one that has acknowledged
is switched out while the endpoint is PAUSED (R26, R160). -/
def relayRuns (s : State) (a : Agent) (c : Nat) : Bool :=
  let mine := s.fab.comms.filter (fun p => p.1 / 64 = c)
  let acked (x : Comm) : Bool := x.acks.contains (a.core, a.slot)
  (ctxRuns s c && !mine.any (fun p => p.2.st = .paused && acked p.2)) ||
    ((s.ctx c).st = .saving && mine.any (fun p => (p.2.st = .pausing && !acked p.2) || (p.2.st = .queried && p.2.own)))

/-- An agent that may take its turn, before its next instruction is looked at. An instruction that has begun its accesses at another
node ends them in SAVING too (R26, R335). -/
def State.runnable (s : State) (a : Agent) : Bool :=
  let c := s.cv a.core a.slot
  ((if c.relay then relayRuns s a c.ctx else ctxRuns s c.ctx) || ((s.ctx c.ctx).st = .saving && !a.slice && hasAsked s a.core a.slot)) &&
    if a.slice then c.slice.st = .running && (c.st != .absent && c.st != .finishing)
    else (c.st = .ready || c.st = .trapped) && c.stall = .none

/-- R66: no token of the wait mask is pending, the class counter is below 63, no MMA, MMAS or MSL holds it back (R294). A fetch that begins to wait, or fails, takes its turn to do so. -/
def State.eligible (s : State) (a : Agent) : Bool :=
  s.runnable a &&
    let t := { s with cur := a }
    match t.fetch with
    | (_, none) => t.fetchOp.isNone
    | (_, some w) =>
      match t.decoded w with
      | .illegalWord _ => true
      | i =>
        let h := hintsOf w
        !(List.range 8).any (fun k => h.wait.getLsbD k && s.tokenPending a.core a.slot a.slice k) && !mxHeld t i &&
          match classOf i with
          | some c => s.counter a.core a.slot a.slice c < 63
          | none => true

/-- The better of two caravans of a core (R66): effective priority, then placement; a caravan under YIELD after every
other (R235). -/
def State.better (s : State) (k a b : Nat) : Bool :=
  let x := s.cv k a
  let y := s.cv k b
  if x.yielding != y.yielding then y.yielding
  else if x.eprio ≠ y.eprio then x.eprio > y.eprio else x.order < y.order

/-- The caravan that a core issues next, and the eligible ones. -/
def State.bestCaravan (s : State) (k : Nat) : Option Nat × List Nat :=
  let el := (List.range 16).filter (fun n => s.eligible { core := k, slot := n, slice := false })
  (el.foldl (fun best n => match best with
    | none => some n
    | some b => if s.better k n b then some n else some b) none, el)

/-- Promotion of a caravan that has been passed over 256 times (R66). -/
def Caravan.promote (c : Caravan) : Caravan :=
  if c.passed ≥ 256 then { c with passed := 0, eprio := min 4 (c.eprio + 1) } else c

/-- The bookkeeping of an issue (R66, R235): the issuer returns to PRIO, the passed-over count up, a YIELD ends. -/
def State.noteIssue (s : State) (k n : Nat) (el : List Nat) : State :=
  let s := (List.range 16).foldl (fun s m =>
    let c := s.cv k m
    if m = n || c.st = .absent then s
    else
      let c := if el.contains m && !c.yielding then { c with passed := c.passed + 1 }.promote else c
      s.setCv k m { c with yielding := false }) s
  let c := s.cv k n
  s.setCv k n { c with eprio := c.prio, passed := 0, yielding := false }

/-- The slice that a core's access engine issues next: round robin (R93). -/
def State.bestSlice (s : State) (k : Nat) : Option Nat :=
  let from_ := (s.core k).lastSlice + 1
  ((List.range 16).map (fun i => (from_ + i) % 16)).find? (fun n => s.eligible { core := k, slot := n, slice := true })

/-- Give a core's issue logic, or its access engine, its turn: the agent, with the bookkeeping done. -/
def State.takeTurn (s : State) (k : Nat) (slice : Bool) : Option State :=
  if slice then
    match s.bestSlice k with
    | some n => some { s.setCore k { s.core k with lastSlice := n } with cur := { core := k, slot := n, slice := true } }
    | none => none
  else
    match s.bestCaravan k with
    | (some n, el) =>
      let a : Agent := { core := k, slot := n, slice := false }
      some { (if ({ s with cur := a }.fetch).2.isSome then s.noteIssue k n el else s) with cur := a }
    | (none, _) => none

/-- The cores that hold caravans, from the one after core k on. -/
def State.rotation (s : State) (k : Nat) : List Nat :=
  let ks := (s.cvs.map (fun p => p.1 / 16)).eraseDups
  ks.filter (fun j => j > k) ++ ks.filter (fun j => j ≤ k)

/-- The next turn in rotation: after a core's issue logic its access engine, then the next core (log 1). -/
def State.nextTurn (s : State) : Option State :=
  let now := if s.cur.slice then [] else [(s.cur.core, true)]
  let later := (s.rotation s.cur.core).flatMap (fun k => [(k, false), (k, true)])
  (now ++ later).findSome? (fun p => s.takeTurn p.1 p.2)

/-! ## Executor words -/

/-- Run an executor's program word: an illegal one makes it FAULTED with ILLEGAL (R139). -/
def exWordRun (exec : Instr → State → Outcome State Fault Refusal) (w : W32) (s : State) : Outcome State Fault Refusal :=
  match decodeExecutor w with
  | .ok i => exec i s
  | .error _ => .next (s.exFault 1 0 0)

/-! ## Placing an instruction -/

/-- A line of L1 that holds an instruction's 12 bytes at VA 0, on an executable page of context 0. -/
def codeLine (asid : BitVec 16) (w : Nat) : Line :=
  { asid := asid, tag := 0, data := BitVec.ofNat 1024 (w % 2 ^ 96), valid := BitVec.allOnes 128, dirty := 0, w := false,
    x := true, home := 0, cache := 0, grade := 1, key := 0, psize := 12, chan := 0, flat := 0, priv := false, unfilled := false }

/-- A caravan of one word of lanes, lane 0 active, at PC 0. -/
def placedCaravan : Caravan :=
  { Caravan.blank with st := .ready, exist := 1, mask := 1 }

/-- Put an instruction of nbits bits where the next step fetches it. Up to 32 bits: program memory of channel 0, in
COMPUTE under context 0, an advance open with executor 0 to run, at PC 0. Above: a line of core 0's L1, and a READY caravan
in slot 0 of core 0 of the privileged, ACTIVE context 0. -/
def State.placeWord (s : State) (nbits w : Nat) : State :=
  let s := { s with posts := [], agenda := [] }
  if nbits ≤ 32 then
    let c := s.chan 0
    let s := s.setChan 0 { c with mode := .compute, owner := 0, prog := [(0, BitVec.ofNat 32 (w % 2 ^ nbits))] }
    let s := s.setExecutor 0 { Executor.zero with st := .running }
    { s with advOpen := some 0, advTodo := [0] }
  else
    let c := s.ctx 0
    let s := s.setCtx 0 { c with st := .active, priv := true }
    let s := s.setCore 0 { s.core 0 with l1 := [codeLine c.asid (w % 2 ^ nbits)] }
    { s.setCv 0 0 placedCaravan with cvs := [(0, placedCaravan)], ops := [], advOpen := none, advTodo := [],
                                     cur := { core := 0, slot := 0, slice := true } }

end Sys2Proof.Machine
end

