-- ==== Sys2Proof/Machine/Scalar.lean ====
section
/-! DEFINITION. Scalar instructions, class 0x4 (R246 to R248). -/

namespace Sys2Proof.Machine

open Host (Outcome)

def scalarShl (a b : W64) : W64 := if b.toNat ≥ 64 then 0 else a <<< b.toNat
def scalarShr (arith : Bool) (a b : W64) : W64 :=
  if arith then a.sshiftRight (min b.toNat 63) else if b.toNat ≥ 64 then 0 else a >>> b.toNat

/-- Compare by cmp code, as I64 or U64 (R246). -/
def scalarCmp (code : Nat) (sx : Bool) (a b : W64) : Bool :=
  let x : Int := if sx then a.toInt else a.toNat
  let y : Int := if sx then b.toInt else b.toNat
  match code with
  | 0 => x = y
  | 1 => x ≠ y
  | 2 => x < y
  | 3 => x ≤ y
  | 4 => x > y
  | _ => x ≥ y

/-- s_d := g s0 a b; `zero`: the second immediate is read by imm_u. -/
def State.scalar (s : State) (f : Fields) (zero : Bool) (g : W64 → W64 → W64 → W64) : State :=
  (s.setS f.d.sreg (g (s.sreg f.d.sreg) (s.srcS false f.a) (s.srcS zero f.b))).advance

/-- The one access of SLD and SST (R247). -/
def State.scalarReq (s : State) (f : Fields) (act : Act) : Req :=
  { lane := s.lowLane, va := s.sreg f.a.sreg + BitVec.ofInt 64 f.b.immS, w := widthBytes (modBits f.m 6 3), home := false,
    sys := false, deep := false, priv := false, off := 0, strong := false, fill := false, act := act }

/-- The low n bytes of a value, sign- or zero-extended to 64 bits. -/
def extend64 (n : Nat) (sx : Bool) (x : Nat) : W64 :=
  if sx then BitVec.ofInt 64 (signed (8 * n) x) else BitVec.ofNat 64 (x % 2 ^ (8 * n))

def execSmov (f : Fields) (s : State) : Outcome State Fault Refusal :=
  issue (.smov f) f false true (fun s => s.scalar f false (fun _ a _ => a)) s

def execSmovi (f : Fields) (s : State) : Outcome State Fault Refusal :=
  issue (.smovi f) f false true
    (fun s =>
      let x := imm32 f.a f.b
      s.scalar f false (fun old _ _ => match modBits f.m 8 2 with
        | 0 => x.signExtend 64
        | 1 => x.setWidth 64
        | _ => x.append (old.setWidth 32))) s

def execSadd (f : Fields) (s : State) : Outcome State Fault Refusal :=
  issue (.sadd f) f false true (fun s => s.scalar f false (fun _ a b => a + b)) s

def execSsub (f : Fields) (s : State) : Outcome State Fault Refusal :=
  issue (.ssub f) f false true (fun s => s.scalar f false (fun _ a b => a - b)) s

def execSmul (f : Fields) (s : State) : Outcome State Fault Refusal :=
  issue (.smul f) f false true (fun s => s.scalar f false (fun _ a b => a * b)) s

def execSand (f : Fields) (s : State) : Outcome State Fault Refusal :=
  issue (.sand f) f false true (fun s => s.scalar f false (fun _ a b => a &&& b)) s

def execSor (f : Fields) (s : State) : Outcome State Fault Refusal :=
  issue (.sor f) f false true (fun s => s.scalar f false (fun _ a b => a ||| b)) s

def execSxor (f : Fields) (s : State) : Outcome State Fault Refusal :=
  issue (.sxor f) f false true (fun s => s.scalar f false (fun _ a b => a ^^^ b)) s

def execSshl (f : Fields) (s : State) : Outcome State Fault Refusal :=
  issue (.sshl f) f false true (fun s => s.scalar f true (fun _ a b => scalarShl a b)) s

def execSshr (f : Fields) (s : State) : Outcome State Fault Refusal :=
  issue (.sshr f) f false true (fun s => s.scalar f true (fun _ a b => scalarShr (modBits f.m 9 1 = 1) a b)) s

def execSset (f : Fields) (s : State) : Outcome State Fault Refusal :=
  issue (.sset f) f false true
    (fun s => s.scalar f false (fun _ a b => if scalarCmp (modBits f.m 6 3) (f.type = 10) a b then 1 else 0)) s

def execSsel (f : Fields) (s : State) : Outcome State Fault Refusal :=
  issue (.ssel f) f false true (fun s => s.scalar f false (fun old a b => if old ≠ 0 then a else b)) s

def execSld (f : Fields) (s : State) : Outcome State Fault Refusal :=
  issue (.sld f) f false true
    (fun s => s.oneOp f .LD (.loadS f.d.sreg (widthBytes (modBits f.m 6 3)) (modBits f.m 9 1 = 1) s.cur.slice)
      (s.scalarReq f .rd)) s

def execSst (f : Fields) (s : State) : Outcome State Fault Refusal :=
  issue (.sst f) f false true
    (fun s => s.oneOp f .ST .storeS (s.scalarReq f (.wr ((s.sreg f.d.sreg).setWidth 128)))) s

def execS2v (f : Fields) (s : State) : Outcome State Fault Refusal :=
  issue (.s2v f) f false true
    (fun s =>
      let x := if f.m = 0 then (s.sreg f.a.sreg).setWidth 32 else ((s.sreg f.a.sreg) >>> 32).setWidth 32
      (s.setMe (s.me.writeLanes f.d.vreg s.me.mask (fun _ => x))).advance) s

def execV2s (f : Fields) (s : State) : Outcome State Fault Refusal :=
  issue (.v2s f) f false true
    (fun s =>
      let L := if f.m = 0 then f.b.immU else s.lowLane
      if L ≥ s.me.width then s.raiseCv .resource
      else (s.setS f.d.sreg ((s.src32 .int true f.a L).setWidth 64)).advance) s

end Sys2Proof.Machine
end

