-- ==== Sys2Proof/Machine/Serve.lean ====
section
/-! DEFINITION. Outstanding accesses after their issue: requests served at their channel (R118, R134), replies (R264), the
visibility of queue entries (R90), copies and sends that progress and end (R87, R311). -/

namespace Sys2Proof.Machine

open Host (Outcome)

/-! ## Agents of outstanding operations -/

/-- Do something as another agent. -/
def State.asAgent (s : State) (a : Agent) (f : State → State) : State := { f { s with cur := a } with cur := s.cur }

def Op.agent (o : Op) : Agent := { core := o.core, slot := o.cslot, slice := o.slice }

def opUser (o : Op) : User :=
  { ctx := o.ctx, core := some o.core, copy := false, fetch := o.cls = .fetch, priv := false, op := o.id,
    who := some o.agent }

/-! ## Destinations (R264, R266, R269, R275) -/

/-- A loaded value of w bytes in lane L's destination registers. -/
def Caravan.land (c : Caravan) (rd w : Nat) (sx : Bool) (L : Nat) (x : BitVec 128) : Caravan :=
  if w ≤ 4 then
    c.setReg rd L (if sx then BitVec.ofInt 32 (signed (8 * w) x.toNat) else BitVec.ofNat 32 (x.toNat % 2 ^ (8 * w)))
  else if w = 8 then c.setReg64 rd L (x.setWidth 64)
  else (c.setReg64 rd L (x.setWidth 64)).setReg64 (rd + 2) L ((x >>> 64).setWidth 64)

/-- Write what an operation has loaded; lanes that are gone receive nothing, nor does a caravan that has left (R65, R234). -/
def State.deliver (s : State) (o : Op) : State :=
  let c := s.cv o.core o.cslot
  let here := o.vals.filter (fun p => !c.gone.getLsbD p.1)
  if c.st = .absent then s
  else match o.kind with
  | .loadV rd w sx => s.setCv o.core o.cslot (here.foldl (fun c p => c.land rd w sx p.1 p.2) c)
  | .loadR rd w sx part =>
    match o.vals with
    | [] => s
    | (_, x) :: _ =>
      s.setCv o.core o.cslot ((lanesBelow c.width (part &&& ~~~c.gone)).foldl (fun c L => c.land rd w sx L x) c)
  | .loadS sd w sx slice =>
    match o.vals with
    | [] => s
    | (_, x) :: _ => s.asAgent { o.agent with slice := slice } (fun s => s.setS sd (extend64 w sx x.toNat))
  | .tld rd => s.setCv o.core o.cslot (here.foldl (fun c p => c.land rd 4 false p.1 p.2) c)
  | .remote _ _ rd w sx true => s.setCv o.core o.cslot (here.foldl (fun c p => c.land rd w sx p.1 p.2) c)
  | .ldq q seq w sx =>
    let word (x : BitVec 128) : W32 :=
      if sx then BitVec.ofInt 32 (signed (8 * w) x.toNat) else BitVec.ofNat 32 (x.toNat % 2 ^ (8 * w))
    let s := o.vals.foldl (fun s p => s.landWord o.core o.cslot q seq p.1 (word p.2)) s
    s.setCv o.core o.cslot ((s.cv o.core o.cslot).entryLanded q seq)
  | .tst t => s.landTst o t
  | _ => s

/-- The joined access of REL.W or ACQ.W is performed: ACQ.W's value is written and its acquire follows (R279). An access
that recorded a cause leaves nothing. -/
def State.syncDone (s : State) (o : Op) : State :=
  let c := s.cv o.core o.cslot
  let t := (s.deliver o).dropOp o.id
  match c.stall with
  | .acquireOp n scope addr =>
    if n ≠ o.id then t
    else
      let c := t.cv o.core o.cslot
      let t := t.setCv o.core o.cslot { c with stall := .none }
      match o.kind with
      | .loadS _ _ _ _ =>
        if o.vals.isEmpty then t
        else t.asAgent o.agent (fun s => s.acquire scope (if scope ≥ 6 then deepScope s o.ctx o.core (scope = 7) addr else none))
      | _ => t
  | _ => t

/-- What follows once every lane of an operation has been served: a joined acquire (R271, R279). -/
def State.nowServed (s : State) (id : Nat) : State :=
  match s.op id with
  | none => s
  | some o =>
    if !o.served then s
    else if o.cls = .sync then s.syncDone o
    else
      let c := s.cv o.core o.cslot
      match c.stall with
      | .acquireOp n scope _ =>
        if n ≠ id then s
        else (s.setCv o.core o.cslot { c with stall := .none }).asAgent o.agent (fun s => s.acquire scope none)
      | _ => s

/-! ## Serving again -/

/-- Requests in ascending order of lanes (R190). -/
def byLane (rs : List Req) : List Req :=
  (rs.foldl (fun l r => insertLane (r.lane, r) l) []).map (·.2)

/-- Serve requests of an outstanding operation, lane by lane. The requests of a lane that fails go (R263); a fetch at a PC that its
agent has left goes whole. -/
def State.serveOp (s : State) (o : Op) (rs : List Req) : State :=
  let v := s.cv o.core o.cslot
  if o.cls = .fetch && o.pc ≠ (if o.slice then v.slice.pc else v.pc) then s.dropOp o.id else
  let lanes := (rs.map (·.lane)).eraseDups
  let a := serve s (opUser o) o.kind.zeroes o.vals (lanes.map (fun L => rs.filter (fun r => r.lane = L)))
  let on (r : Req) : Bool := !a.causes.any (fun x => x.1 = r.lane)
  let o := { o with todo := byLane ((o.todo.filter (fun r => !rs.contains r && on r)) ++ a.todo),
                    remote := o.remote.filter on ++ a.remote,
                    held := o.held.filter (fun L => !lanes.contains L) ++ a.parks.map (fun p => p.1.lane), vals := a.vals }
  let s := (a.s.setOp o).sendRequests o.id o.ctx a.remote
  if o.cls = .fetch then
    match a.causes, a.parks with
    | (_, c, va) :: _, _ =>
      (s.dropOp o.id).asAgent o.agent (fun s => (s.raiseEvery c va).settle o.core o.cslot)
    | [], (r, level) :: _ => (s.dropOp o.id).asAgent o.agent (fun s => s.parkFetch r.va.toNat level)
    | [], [] => s
  else
    let s := s.afterServe o.core o.cslot o.slice o.id o.pc v.pc o.kind a
    (if o.slice then s else s.settle o.core o.cslot).nowServed o.id

/-- A command stands behind an earlier one of its issuer to the channel that has not reached it (R136, R328). -/
def behindCommand (s : State) (o : Op) (ch : Nat) : Bool :=
  (s.mine o.core o.cslot o.slice).any (fun p => p.id < o.id && !p.done && !(s.chan ch).cmds.contains p.id && match p.kind with
    | .bank c _ _ => c = ch
    | _ => false)

/-- A command of a wide release stands at the channel's home L2, which writes back the dirty lines of the channel's bank-placed pages
(R204): whether none is left. -/
def State.commandFlush (s : State) (ch : Nat) (rel : Bool) : State × Bool :=
  let p (l : Line) : Bool := l.home = 1 && l.chan = ch
  let d := dieOfChannel ch
  let s := if rel then s.flushL2 d p false else s
  (s, !rel || l2Clean s d p)

/-- A command reaches its channel's queue, once no mark holds it and what its release has to write is written; an advance's makes its
add to ADV (R134, R203, R204, R207, R208). An XPROG whose read has failed ends. -/
def State.queueCommand (s : State) (o : Op) (ch : Nat) : State :=
  match o.kind with
  | .bank _ c rel =>
    let short := match c with
      | .xprog n => o.vals.length < n
      | _ => false
    if !o.done && o.served && short then s.finishOp o
    else if o.done || (s.chan ch).cmds.contains o.id || !o.served || s.heldBack o.agent o.id || s.behindMark o.agent o.id ||
      behindCommand s o ch then s
    else match s.commandFlush ch rel with
      | (s, false) => s
      | (s, true) =>
        let x := s.chan ch
        s.setChan ch { x with cmds := x.cmds ++ [o.id], adv := match c with
          | .xprog _ => x.adv
          | _ => x.adv + 1 }
  | _ => s

/-- The operations that MEMORY_REPLY completes. -/
def OpKind.replies : OpKind → Bool
  | .loadV _ _ _ => true
  | .loadR _ _ _ _ => true
  | .loadS _ _ _ _ => true
  | .store => true
  | .storeS => true
  | .tld _ => true
  | .tst _ => true
  | .ldq _ _ _ _ => true
  | .remote _ _ _ _ _ _ => true
  | _ => false

/-- An access completes, writes its destination and retires (R264). -/
def State.reply (s : State) (o : Op) : State :=
  if o.done || !o.served || !o.kind.replies then s
  else if o.cls = .sync then s.syncDone o
  else (s.deliver o).finishOp o

def execMemoryReply (op : Nat) (s : State) : Outcome State Fault Refusal :=
  .next <|
    match s.op op with
    | none => s
    | some o => s.reply o

/-- The data of a pushed entry lands; it is visible once every earlier entry has landed (R90). -/
def execQueueEntryVisible (core slot q : Nat) (s : State) : Outcome State Fault Refusal :=
  .next <|
    match (s.mine core slot true).find? (fun o => !o.done && o.served && match o.kind with
      | .ldq n _ _ _ => n = q
      | _ => false) with
    | none => s
    | some o => s.reply o

/-! ## Copies and sends (R87, R311) -/

/-- The bytes of a copy's next unit of 256 are performed. -/
def execCopyBytesLand (op : Nat) (s : State) : Outcome State Fault Refusal :=
  .next <|
    match s.op op with
    | none => s
    | some o => match o.kind with
      | .copy c => if s.copyGoes o then s.copyRun op (c.unit s o) else s
      | _ => s

/-- Every unit of a copy is performed; a CPQ's last entry is visible, or its queue has closed (R91, R314). -/
def copyEnded (s : State) (o : Op) (c : Copy) : Bool :=
  match c.kind with
  | .cpq q _ cnt first _ =>
    let y := (s.cv o.core o.cslot).queues.getD q (OpQueue.fresh true)
    y.closed || (c.pos ≥ c.total s o && (y.ents.drop y.count).all (fun e => e.seq ≥ first + cnt))
  | _ => c.pos ≥ c.total s o

/-- A copy retires and makes its barrier arrival. -/
def execCopyComplete (op : Nat) (s : State) : Outcome State Fault Refusal :=
  .next <|
    match s.op op with
    | none => s
    | some o => match o.kind with
      | .copy c => if s.copyGoes o && copyEnded s o c then s.endCopy o c none none else s
      | _ => s

end Sys2Proof.Machine
end

