-- ==== Sys2Proof/Machine/Fabric.lean ====
section
/-! DEFINITION. Instructions of the fabric: remote accesses, tile sends, collectives, their lane-side helpers, gang pauses,
class 0x9 (R153 to R161, R319 to R326). -/

namespace Sys2Proof.Machine

open Host (Outcome)

/-! ## Remote accesses (R306, R320) -/

/-- The node and the context that a node word names (R306). -/
def State.withNode (s : State) (o : Operand) (go : BitVec 16 → BitVec 8 → State) : State :=
  let w := s.sreg o.sreg
  let node := w.setWidth 16
  if w.toNat / 2 ^ 24 ≠ 0 || node = 0 || node = 0xFFFF then s.raiseCv .resource else go node ((w >>> 16).setWidth 8)

/-- The lanes' requests of a remote access leave, in ascending order of lanes, unless a MARK holds them (R207, R208). -/
def State.remoteSend (s : State) (id : Nat) : State :=
  match s.op id with
  | none => s
  | some o => match o.kind with
    | .remote node tctx _ _ _ _ =>
      if s.heldBack o.agent id || s.behindMark o.agent id then s
      else
        let s := s.setOp { o with todo := [], remote := o.remote ++ o.todo }
        o.todo.foldl (fun s r => s.send (.request id r.lane node tctx.toNat r.va r.w r.act)) s
    | _ => s

/-- The requests of the lanes that take part; the local checks are 1 and 2 of R263. -/
def State.remoteOp (s : State) (f : Fields) (node : BitVec 16) (tctx : BitVec 8) (rd w : Nat) (sx returns : Bool)
    (act : Nat → Act) : State :=
  let ls := (s.partLanes f).map (fun L => mkReq L (s.src64 false f.b L) w (act L))
  let bad := ls.filterMap (fun r =>
    if r.va.toNat ≥ 2 ^ 57 then some (r.lane, LaneCause.outOfRange, r.va)
    else if r.va.toNat % w ≠ 0 then some (r.lane, LaneCause.misaligned, r.va) else none)
  let good := ls.filter (fun r => r.va.toNat < 2 ^ 57 && r.va.toNat % w = 0)
  let op := s.nextOp
  let pc := s.pc
  let s := (s.addOp f .CL (.remote node tctx rd w sx returns) good [] [] []).remoteSend op
  let s := if good.isEmpty then (match s.op op with
    | some o => s.finishOp o
    | none => s) else s
  s.advance.raiseLanes s.cur.core s.cur.slot pc pc bad

def execRld (f : Fields) (s : State) : Outcome State Fault Refusal :=
  issue (.rld f) f false false
    (fun s => s.withNode f.a (fun node tctx =>
      s.remoteOp f node tctx f.d.vreg (widthBytes (modBits f.m 0 3)) (modBits f.m 9 1 = 1) true (fun _ => .rd))) s

def execRst (f : Fields) (s : State) : Outcome State Fault Refusal :=
  issue (.rst f) f false false
    (fun s => s.withNode f.a (fun node tctx =>
      let w := widthBytes (modBits f.m 0 3)
      s.remoteOp f node tctx f.d.vreg w false false (fun L => .wr (s.laneValue f.d.vreg w L)))) s

def execRatom (f : Fields) (s : State) : Outcome State Fault Refusal :=
  issue (.ratom f) f false false
    (fun s => s.withNode f.a (fun node tctx =>
      let ord := Fields_.ord f
      let t := Fields_.t f
      let go (s : State) : State :=
        let op := s.nextOp
        let s := s.strongStore.remoteOp f node tctx f.d.vreg (atomBytes t) false true
          (fun L => .rmw (Fields_.op f) t (s.atomOld f L) none)
        if ord = 1 || ord = 3 then s.joinAcquire op 5 else s
      if ord ≥ 2 then s.withRelease 5 go else go s)) s

/-! ## RST.BLK (R321) -/

/-- Bytes of a tile from byte o on, as a number. -/
def tileNumber (s : State) (k : Nat) (t : Tile) (o n : Nat) : Nat := s.storeLoad k (256 * t.base + o) n

/-- Requests that stand for a transfer's acknowledgements, numbered from 0. -/
def ackReqs (n : Nat) (va : W64) (step : Nat) : List Req :=
  (List.range n).map (fun i => mkReq i (va + BitVec.ofNat 64 (step * i)) 16 (.wr 0))

end Sys2Proof.Machine

namespace Sys2Proof

/-- Header bytes 0 to 59 and the payload, as CHK covers them (R151). -/
def LossyBlock.covered (b : LossyBlock) : Nat := b.header.toNat % 2 ^ 480 + 2 ^ 480 * b.payload.toNat

/-- CHK holds. -/
def LossyBlock.chkOk (b : LossyBlock) : Bool := Machine.crc32c 316 b.covered = b.chk

/-- A block with its header and CHK (R151). -/
def LossyBlock.make (src : BitVec 16) (sctx tctx : BitVec 8) (xfer : BitVec 32) (index : Nat) (va : BitVec 64) (x : BitVec 2048) :
    LossyBlock :=
  let h := 2 ^ 8 * tctx.toNat + 2 ^ 16 * xfer.toNat + 2 ^ 48 * (index % 2 ^ 16) + 2 ^ 64 * va.toNat
  let b : LossyBlock := { src := src, sctx := sctx, header := BitVec.ofNat 512 h, payload := x }
  { b with header := BitVec.ofNat 512 (h + 2 ^ 480 * (Machine.crc32c 316 b.covered).toNat) }

end Sys2Proof

namespace Sys2Proof.Machine

open Host (Outcome)

/-- The blocks of an RST.BLK leave, and in the lossy form the end marker after them, unless a MARK holds them (R151, R207, R321). -/
def State.blkSend (s : State) (id : Nat) : State :=
  match s.op id with
  | none => s
  | some o => match o.kind with
    | .sendTile t lossy node tctx base valVa cntVa notify false failed =>
      if s.heldBack o.agent id || s.behindMark o.agent id then s
      else
        let x := s.tile o.core t
        let n := x.bytes / 256
        let block (i : Nat) : Nat := tileNumber s o.core x (256 * i) 256
        let va (i : Nat) : W64 := base + BitVec.ofNat 64 (256 * i)
        let sctx := BitVec.ofNat 8 o.ctx
        if lossy then
          let xfer := sget 0 s.fab.xfer node.toNat
          let s := { s with fab := { s.fab with xfer := sset 0 s.fab.xfer node.toNat (xfer + 1) } }
          let s := (List.range n).foldl (fun s i =>
            s.send (.lossy (LossyBlock.make s.dev.nodeid sctx tctx xfer i (va i) (BitVec.ofNat 2048 (block i))) node)) s
          let s := s.send (.marker { src := s.dev.nodeid, sctx := sctx, tctx := tctx, xfer := xfer, n := n, base := base,
                                     valVa := valVa, cntVa := cntVa, notVa := notify } node)
          s.setOp { o with kind := .sendTile t true node tctx base valVa cntVa 0 true failed }
        else
          let s := (List.range n).foldl (fun s i => s.send (.write node tctx.toNat (va i) 256 (block i))) s
          s.setOp { o with kind := .sendTile t false node tctx base valVa cntVa notify true failed }
    | _ => s

def execRstBlk (f : Fields) (s : State) : Outcome State Fault Refusal :=
  issue (.rstBlk f) f false true
    (fun s => s.withNode f.a (fun node tctx =>
      let t := f.d.tileNum
      let k := s.cur.core
      let lossy := modBits f.m 8 1 = 1
      let sx := f.b.sreg
      let base := s.sreg sx
      s.withTile t true (fun x => s.sendTile t x (
        let n := x.bytes / 256
        if x.bytes % 256 ≠ 0 || n > 65536 || base.toNat % 256 ≠ 0 then s.raiseCv .resource
        else
          let id := s.nextOp
          let kind : OpKind := .sendTile t lossy node tctx base (s.sreg (sx + 1)) (s.sreg (sx + 2)) (s.sreg (sx + 3)) false none
          let s := s.setTile k t (x.send (modBits f.m 3 1 = 1))
          let s := s.addOp f .CL kind [] (if lossy then ackReqs 1 base 0 else ackReqs n base 256) [] []
          (s.blkSend id).advance)))) s

/-! ## The communicator endpoint (R158 to R160) -/

/-- A communicator entry that is valid (R158). -/
def commOk (x : Nat) : Bool :=
  field x 0 1 = 1 && field x 1 15 = 0 && field x 41 23 = 0 && x / 2 ^ 128 = 0 && field x 28 12 ≤ field x 16 12

/-- The first n entries of a rank table: node and context of each rank; one that cannot be read names no node (R147, R158; log 102). -/
def State.readRanks (s : State) (c va : Nat) : Nat → State × List (BitVec 16 × Nat)
  | 0 => (s, [])
  | n + 1 =>
    let (s, l) := s.readRanks c va n
    match s.devRead c (va + 4 * n) 4 with
    | (s, some x) => (s, l ++ [(BitVec.ofNat 16 x, field x 16 8)])
    | (s, none) => (s, l ++ [(0, 0)])

/-- Read an entry, and the rank table that it names, the first time after ACTIVATE, RESTORE or a write to COMMTAB; one that has EN = 0
ends BROKEN. -/
def State.readComm (s : State) (c k : Nat) : State :=
  let x := s.comm c k
  if x.read then s
  else
    match s.devReads c ((s.ctx c).commtab.toNat + 64 * k) 16 4 with
    | (s, none) => s.setComm c k { s.comm c k with read := true, on := false }
    | (s, some w) =>
      let ok := commOk w
      let size := field w 16 12 + 1
      let (s, ranks) := s.readRanks c (field w 64 64) (if ok then size else 0)
      let x := s.comm c k
      s.setComm c k { x with read := true, on := ok, sw := field w 40 1 = 1, rank := field w 28 12, size := size,
                             ranks := ranks, next := 0, st := if x.st = .broken && field w 0 1 = 0 then CommState.idle else x.st }

/-- The other ranks of an endpoint. -/
def Comm.peers (x : Comm) : List Nat := (List.range x.size).filter (fun r => r ≠ x.rank)
def Comm.at_ (x : Comm) (r : Nat) : BitVec 16 × Nat := x.ranks.getD r (0, 0)

/-- The oldest instance that is not complete here (R161). -/
def Comm.current (x : Comm) : Nat :=
  match x.insts.find? (fun i => !i.localDone) with
  | some i => i.inst
  | none => x.next - 1

/-- The highest chunk that GANGQ has reported of an instance. -/
def Comm.chunkOf (x : Comm) (inst : Nat) : Nat :=
  match x.insts.find? (fun i => i.inst = inst) with
  | some i => i.chunk
  | none => 0

/-- The outstanding COLLs of an instance. -/
def collOps (s : State) (c k inst : Nat) : List Op :=
  s.ops.filter (fun o => o.ctx = c && match o.kind with
    | .coll a b _ _ => a = k && b = inst
    | _ => false)

def State.finishColl (s : State) (c k inst : Nat) : State := (collOps s c k inst).foldl (fun s o => s.finishOp o) s

/-- An instance's send and its barrier arrival complete (R157, R323). -/
def State.endInstance (s : State) (c k : Nat) (i : Instance) (err : Bool) : State :=
  let s := if err then s.setTile i.core i.tile { s.tile i.core i.tile with err := true } else s
  let n := (s.tile i.core i.tile).bytes
  ((s.tileSent i.core i.tile).arriveAt (some (i.bcore, i.bent, i.made, i.bar)) n).finishColl c k i.inst

/-- A chunk fails: Td is filled with zeros and READY with ERR, and Ta completes its send (R322). -/
def State.failChunk (s : State) (k td ta : Nat) : State :=
  let x := s.tile k td
  let s := { s with mem := mzero s.mem (Flat.core k (256 * x.base)) x.bytes }
  (s.setTile k td { x.filled with err := true }).tileSent k ta

/-- The open chunks of a communicator on this device fail. -/
def State.failChunks (s : State) (c k : Nat) : State :=
  s.ops.foldl (fun s o =>
    match o.kind with
    | .rred td ta comm _ _ _ _ _ _ _ _ _ =>
      if o.ctx = c && comm = k && !o.done then (s.failChunk o.core td ta).finishOp o else s
    | _ => s) s

/-- The endpoint becomes BROKEN (R160): each open instance ends with ERR; one whose request is not written yet is given up. -/
def State.breakComm (s : State) (c k : Nat) : State :=
  let x := s.comm c k
  if x.st = .broken then s
  else
    let opened := x.insts.filter (fun i => i.posted && !i.localDone)
    let s := opened.foldl (fun s i => s.endInstance c k i true) s
    let s := (x.insts.filter (fun i => !i.posted)).foldl (fun s i =>
      (s.setParty i.bcore i.bent { s.party i.bcore i.bent with coll := none }).finishColl c k i.inst) s
    let s := s.failChunks c k
    let s := s.setComm c k { s.comm c k with st := .broken, insts := [], early := [], users := [], own := false, permit := none, acks := [] }
    let s := { s with ops := s.ops.filter (fun o => !(o.ctx = c && o.kind = OpKind.gang k)) }
    s.event [c] (0x2100 + k) 0x0033 (match opened with
      | i :: _ => i.inst
      | [] => x.next - 1)

/-- A slot frees when its instance is complete here and at every peer; with the last one an ACTIVE endpoint is IDLE (R159). -/
def State.freeSlots (s : State) (c k : Nat) : State :=
  let x := s.comm c k
  let left := x.insts.filter (fun i => !(i.localDone && i.peers.length + 1 ≥ x.size))
  s.setComm c k { x with insts := left, st := if left.isEmpty && x.st = .active then CommState.idle else x.st,
                         users := x.users.filter (fun u => u.1 = x.pinst || left.any (fun i => i.inst = u.1)) }

/-! ## COLL (R157, R159, R323) -/

/-- Slot inst mod 2 is taken by another instance. -/
def slotBusy (x : Comm) (inst : Nat) : Bool := x.insts.any (fun i => i.inst % 2 = inst % 2 && i.inst ≠ inst)

/-- Producer and consumer words of the relay work queue. -/
def State.relayWords (s : State) (c : Nat) : State × Option (Nat × Nat) :=
  let q := (s.ctx c).relayq.toNat
  match s.devRead c (q + 8192) 8 with
  | (s, none) => (s, none)
  | (s, some p) => match s.devRead c (q + 8200) 8 with
    | (s, none) => (s, none)
    | (s, some n) => (s, some (p, n))

/-- A request word of 32 bytes (R157). -/
def relayRequest (w0 w1 w2 : W64) (core t bcore bent bar : Nat) : Nat :=
  field w0.toNat 0 24 + 2 ^ 32 * field w0.toNat 32 32 + 2 ^ 64 * field w1.toNat 0 16 + 2 ^ 80 * core + 2 ^ 90 * t + 2 ^ 97 * bcore +
    2 ^ 100 * bent + 2 ^ 104 * bar + (if w0.getLsbD 23 then 2 ^ 192 * w2.toNat else 0)

/-- Write request p of the ring, then advance the producer word with a release at DEVICE scope: whether both are done (R157). -/
def State.postRelay (s : State) (c p req : Nat) : State × Bool :=
  let q := (s.ctx c).relayq.toNat
  match (s.release 4 none).devWrites c (q + 32 * (p % 256)) 16 2 req with
  | (s, false) => (s, false)
  | (s, true) => s.devWrite c (q + 8192) 8 (p + 1)

/-- A member whose COLL fails is not counted. -/
def State.uncount (s : State) (pk pe : Nat) (o : Op) : State :=
  let s := s.dropOp o.id
  let p := s.party pk pe
  match p.coll with
  | none => s
  | some (t, w0, w1, w2, b, n) =>
    if n > 1 then s.setParty pk pe { p with coll := some (t, w0, w1, w2, b, n - 1) }
    else
      let k := field w0.toNat 0 16
      let inst := field w0.toNat 32 32
      let x := s.comm p.ctx k
      (s.setParty pk pe { p with coll := none }).setComm p.ctx k
        { x with next := inst, insts := x.insts.filter (fun i => i.inst ≠ inst) }

/-- A COLL goes on once it is counted: the slot, then for the last member the tile, the ring and the request. -/
def State.collGo (s : State) (pk pe : Nat) (o : Op) (k inst : Nat) (last : Bool) : State :=
  let c := s.me.ctx
  let leave (s : State) : State := (s.setOp { o with kind := .coll k inst false last }).advance
  if slotBusy (s.comm c k) inst then s.block (.slot k inst) 0
  else if !last then leave s
  else
    let p := s.party pk pe
    match p.coll with
    | none => leave s
    | some (t, w0, w1, w2, b, _) =>
      let x := s.tile pk t
      if !x.defined || x.ctx ≠ c || x.st = .empty then (s.uncount pk pe o).raiseTile false
      else if x.st != .ready then s.block (.tileReady pk t) 0
      else if x.err then (s.uncount pk pe o).raiseTile true
      else if tileHeld s pk t then s.block (.tileHeld pk t) 0
      else match s.relayWords c with
        | (s, none) => (s.uncount pk pe o).raiseCv .resource
        | (s, some (p, n)) =>
          if (p + 2 ^ 64 - n) % 2 ^ 64 ≥ 256 then s.block .relayRing 0
          else match s.postRelay c p (relayRequest w0 w1 w2 pk t (placeOfCore pk) pe b) with
            | (s, false) => (s.uncount pk pe o).raiseCv .resource
            | (s, true) =>
              let s := s.setTile pk t (x.send false)
              let s := s.setParty pk pe { s.party pk pe with coll := none }
              let y := s.comm c k
              leave (s.setComm c k { y with insts := y.insts.map (fun i => if i.inst = inst then { i with posted := true } else i) })

/-- The COLL that the issuing caravan has begun at this PC and that still waits. -/
def State.openColl (s : State) : Option Op :=
  (s.mine s.cur.core s.cur.slot false).find? (fun o => o.pc = s.pc && !o.done && match o.kind with
    | .coll _ _ w _ => w
    | _ => false)

/-- COLL's request form (R323). -/
def State.coll (s : State) (f : Fields) : State :=
  match s.me.party with
  | none => s.raiseCv .resource
  | some (pk, pe) =>
    match s.openColl with
    | some o => match o.kind with
      | .coll k inst _ last => s.collGo pk pe o k inst last
      | _ => s
    | none =>
      let c := s.me.ctx
      let sx := f.a.sreg
      let w0 := s.sreg sx
      let w1 := s.sreg (sx + 1)
      let w2 := s.sreg (sx + 2)
      let k := field w0.toNat 0 16
      let inst := field w0.toNat 32 32
      let t := f.d.tileNum
      let b := f.b.immU
      if field w0.toNat 24 8 ≠ 0 || field w0.toNat 16 3 > 3 || w1.toNat = 0 || w1.toNat > 65535 || k ≥ 64 ||
          s.myCtx.relayq = 0 then s.raiseCv .resource
      else
        let s := s.readComm c k
        let x := s.comm c k
        let p := s.party pk pe
        let count := match p.coll with
          | some (_, _, _, _, _, n) => n + 1
          | none => 1
        let same := match p.coll with
          | some (t', w0', w1', w2', b', _) => t = t' && w0 = w0' && w1 = w1' && w2 = w2' && b = b'
          | none => inst = x.next
        if !x.on || x.st = .broken || !same then s.raiseCv .resource
        else
          let id := s.nextOp
          let last := count = p.joined
          let s := s.setParty pk pe { p with coll := some (t, w0, w1, w2, b, count) }
          let s := if count > 1 then s else s.setComm c k
            { x with next := inst + 1, st := if x.st = .idle then CommState.active else x.st,
                     early := x.early.filter (fun e => e.1 ≠ inst),
                     insts := x.insts ++ [{ inst := inst, core := pk, tile := t, bcore := pk, bent := pe, made := p.made, bar := b,
                                            chunk := 0, posted := false, localDone := false,
                                            peers := (x.early.filter (fun e => e.1 = inst)).map (·.2) }] }
          let s := s.addOp f .CL (.coll k inst true last) [] [] [] []
          match s.op id with
          | some o => s.collGo pk pe o k inst last
          | none => s

def execColl (f : Fields) (s : State) : Outcome State Fault Refusal :=
  issue (.coll f) f false true (fun s => s.orAway (fun s => s.coll f)) s

/-- COLL.DONE (R323): a request that matches no open instance has no effect. -/
def execCollDone (f : Fields) (s : State) : Outcome State Fault Refusal :=
  issue (.collDone f) f false true
    (fun s =>
      let c := s.me.ctx
      let r := (List.range 4).foldr (fun j a => (s.sreg (f.a.sreg + j)).toNat + 2 ^ 64 * a) 0
      let k := field r 0 16
      let s := s.advance
      match (s.comm c k).insts.find? (fun i => i.inst = field r 32 32 && i.posted && !i.localDone && i.core = field r 80 10 &&
          i.tile = field r 90 7 && placeOfCore i.bcore = field r 97 3 && i.bent = field r 100 4 && i.bar = field r 104 4) with
      | none => s
      | some i =>
        let s := s.endInstance c k i (modBits f.m 8 1 = 1)
        let x := s.comm c k
        let s := s.setComm c k { x with insts := x.insts.map (fun j => if j.inst = i.inst then { j with localDone := true } else j) }
        let s := x.peers.foldl (fun s r => s.send (.instanceDone (x.at_ r).1 (x.at_ r).2 k i.inst x.rank)) s
        s.freeSlots c k) s

/-! ## MSV and the operators of R154 (R324, R325) -/

/-- −∞ of FP32. -/
def negInf32 : Nat := fp32.infinity true

/-- One component: round(round(a·f1) + round(b·f2)), with its flags. -/
def msvMix (a f1 b f2 : Nat) : Nat × Flag :=
  let (x, g1) := fpMul fp32 0 a f1
  let (y, g2) := fpMul fp32 0 b f2
  let (z, g3) := fpAdd fp32 0 x y
  (z, g1 ||| g2 ||| g3)

/-- The factor of a side: 0 for a maximum of −∞, else FEX2 of its distance to m. -/
def msvFactor (mi m : Nat) : Nat × Flag :=
  if mi = negInf32 then (0, 0)
  else
    let (d, g1) := fpAdd fp32 0 mi (m ^^^ 2 ^ 31)
    let (e, g2) := fpSpecial .ex2 0 d
    (e, g1 ||| g2)

/-- MSV's combine of two (m, s, v), v of any length (R325). -/
def msvCombine (m1 s1 : Nat) (v1 : List Nat) (m2 s2 : Nat) (v2 : List Nat) : Nat × Nat × List Nat × Flag :=
  if m1 = negInf32 && m2 = negInf32 then (negInf32, 0, v1.map (fun _ => 0), 0)
  else
    let (m, g0) := fpPick fp32 true false m1 m2
    let (f1, g1) := msvFactor m1 m
    let (f2, g2) := msvFactor m2 m
    let (x, g3) := msvMix s1 f1 s2 f2
    let vs := (v1.zip v2).map (fun p => msvMix p.1 f1 p.2 f2)
    (m, x, vs.map (·.1), vs.foldl (fun a p => a ||| p.2) (g0 ||| g1 ||| g2 ||| g3))

def execMsv (f : Fields) (s : State) : Outcome State Fault Refusal :=
  issue (.msv f) f false false
    (fun s =>
      let W := s.me.width
      let (ra, perm) := match f.a with
        | .v r p _ => (r.toNat, p.toNat)
        | _ => (0, 0)
      let left (i L : Nat) : Nat := (s.me.reg (f.d.vreg + i) L).toNat
      let right (i L : Nat) : Nat :=
        if s.srcP f.b L then (s.me.reg (ra + i) (permLane perm L s.lowLane)).toNat else if i = 0 then negInf32 else 0
      let out (L : Nat) : Nat × Nat × List Nat × Flag :=
        msvCombine (left 0 L) (left 1 L) [left 2 L] (right 0 L) (right 1 L) [right 2 L]
      let fl := lanesFlags W (s.part f) (fun L => (out L).2.2.2)
      let c := s.me
      let p := s.part f
      let c := c.writeLanes f.d.vreg p (fun L => BitVec.ofNat 32 (out L).1)
      let c := c.writeLanes (f.d.vreg + 1) p (fun L => BitVec.ofNat 32 (out L).2.1)
      let c := c.writeLanes (f.d.vreg + 2) p (fun L => BitVec.ofNat 32 ((out L).2.2.1.headD 0))
      ((s.setMe c).raise fl).advance) s

/-- VMASK (R324). -/
def execVmask (f : Fields) (s : State) : Outcome State Fault Refusal :=
  issue (.vmask f) f false false
    (fun s =>
      let k (L : Nat) : Nat := (s.sreg f.b.sreg + BitVec.ofNat 64 L).toNat * typeBits (modBits f.m 2 4) / 8 / 256
      (s.putP f.d.pnum f (fun L => (s.src32 .int false f.a L).getLsbD (k L % 32))).advance) s

/-- x·n/c with one rounding. -/
def fpRescale (rm n c x : Nat) : Nat × Flag :=
  if c = 0 || n = 0 then (x, 0)
  else match decodeFp fp32 x with
    | .nan sg => (fp32.nan, flagIf sg fNV)
    | .inf _ => (x, 0)
    | .fin neg m e => roundFp fp32 rm neg (m * n * 2 ^ 64 / c) (e - 64) (m * n * 2 ^ 64 % c ≠ 0)

/-- VRSC (R324). -/
def execVrsc (f : Fields) (s : State) : Outcome State Fault Refusal :=
  issue (.vrsc f) f false false
    (fun s =>
      let n := (s.srcS true f.b).toNat
      let out (L : Nat) : Nat × Flag :=
        fpRescale (modBits f.m 0 2) n ((s.src32 .int false f.a L).toNat % 256) (s.me.reg f.d.vreg L).toNat
      ((s.putV f (fun L => BitVec.ofNat 32 (out L).1)).raise (lanesFlags s.me.width (s.part f) (fun L => (out L).2))).advance) s

/-- One combination of two elements; for MSV an element is a block of 64 words (R154). -/
def redOp (op ty a b : Nat) : Nat :=
  let f := fmtOf ty
  match op with
  | 0 => if ty = 8 then (a + b) % 2 ^ 32 else (fpAdd f 0 a b).1
  | 1 => if ty = 8 then (if signed 32 b < signed 32 a then b else a) else (fpPick f false false a b).1
  | 2 => if ty = 8 then (if signed 32 b > signed 32 a then b else a) else (fpPick f true false a b).1
  | _ =>
    let word (x i : Nat) : Nat := field x (32 * i) 32
    let vs (x : Nat) : List Nat := (List.range 62).map (fun i => word x (2 + i))
    let (m, s, v, _) := msvCombine (word a 0) (word a 1) (vs a) (word b 0) (word b 1) (vs b)
    m + 2 ^ 32 * s + 2 ^ 64 * v.foldr (fun x acc => x + 2 ^ 32 * acc) 0

/-- The identity of an operator (R154). -/
def rredIdentity (op ty : Nat) : Nat :=
  let f := fmtOf ty
  match op with
  | 0 => if ty = 8 then 0 else f.signBit true
  | 1 => if ty = 8 then 0x7FFFFFFF else f.infinity false
  | 2 => if ty = 8 then 0x80000000 else f.infinity true
  | _ => negInf32

/-- One level of the canonical tree. -/
def treeLevel {α : Type} (g : α → α → α) : List α → List α
  | a :: b :: r => g a b :: treeLevel g r
  | l => l

/-- The canonical tree (R154), by levels; `n` bounds them. -/
def tree {α : Type} (g : α → α → α) (d : α) : Nat → List α → α
  | 0, l => l.headD d
  | n + 1, l => match l with
    | [] => d
    | [x] => x
    | l => tree g d n (treeLevel g l)

/-! ## RRED (R322, R369) -/

/-- Keys of a chunk's values: piece i of rank r, byte i of this rank's validity array, and what rank r's contribution is of. -/
def pieceKey (pieces r i : Nat) : Nat := r * pieces + i
def validKey (i : Nat) : Nat := 2 ^ 40 + i
def headKey (r : Nat) : Nat := 2 ^ 41 + r

/-- A key of the validity array. -/
def isValidKey (n : Nat) : Bool := 2 ^ 40 ≤ n && n < 2 ^ 41

/-- This rank's validity bit of block i. -/
def ownValid (o : Op) (lossy : Bool) (i : Nat) : Bool :=
  !lossy || (sget 0 o.vals (validKey (i / 8))).getLsbD (i % 8)

/-- What a contribution is of: op, T, byte count and instance (R322). -/
def rredHead (op ty bytes inst : Nat) : Nat := op + 2 ^ 3 * ty + 2 ^ 8 * bytes + 2 ^ 64 * inst

/-- The heads of the ranks that are known all agree with rank 0's, where that is known (R322). -/
def headsAgree (o : Op) (rank size mine : Nat) : Bool :=
  let head (r : Nat) : Option Nat := if r = rank then some mine else (o.vals.find? (fun p => p.1 = headKey r)).map (fun p => p.2.toNat)
  match head 0 with
  | none => true
  | some x => (List.range size).all (fun r => match head r with
    | some y => y = x
    | none => true)

/-- Send this rank's contribution and ask for the others', once the validity array has been read and the issuer's earlier accesses and
marks allow (R198, R207). -/
def State.rredSend (s : State) (id : Nat) : State :=
  match s.op id with
  | none => s
  | some o => match o.kind with
    | .rred td ta k inst chunk op ty sw lossy rv rc false =>
      if !o.served || o.done || s.engineWaits o then s
      else
        let x := s.tile o.core ta
        let y := s.comm o.ctx k
        let pieces := x.bytes / 16
        let asks := y.peers.flatMap (fun r =>
          mkReq (headKey r) 0 16 .rd :: (List.range pieces).map (fun i => mkReq (pieceKey pieces r i) 0 16 .rd))
        let valid := (List.range (x.bytes / 256)).foldr (fun i a => (if ownValid o lossy i then 1 else 0) + 2 * a) 0
        let data := tileNumber s o.core x 0 x.bytes
        let s := y.peers.foldl (fun s r =>
          s.send (.contribution (y.at_ r).1 (y.at_ r).2 k inst chunk op ty sw lossy x.bytes data valid)) s
        s.setOp { o with remote := asks, kind := .rred td ta k inst chunk op ty sw lossy rv rc true }
    | _ => s

/-- RRED once its tiles are known to fit (R322). -/
def State.rred (s : State) (f : Fields) (xd xa : Tile) : State :=
  let td := f.d.tileNum
  let ta := f.a.tileNum
  let k := s.cur.core
  let lossy := modBits f.m 8 1 = 1
  let sx := f.b.sreg
  let w0 := (s.sreg sx).toNat
  let c := s.me.ctx
  let comm := field w0 0 16
  let s := if comm < 64 then s.readComm c comm else s
  let y := s.comm c comm
  let sent (s : State) : State := (s.setTile k ta (xa.send false)).setTile k td (xd.fill xd.bytes)
  if comm ≥ 64 || !y.on || y.st = .broken then ((sent s).failChunk k td ta).advance
  else
    let id := s.nextOp
    let pc := s.pc
    let n := if lossy then (xa.bytes / 256 + 7) / 8 else 0
    let a := serve s (s.user id) false [] ((List.range n).map (fun i =>
      [mkReq (validKey i) (s.sreg (sx + 1) + BitVec.ofNat 64 i) 1 .rd]))
    match a.parks with
    | (r, level) :: _ => a.s.parkCaravan k s.cur.slot pc 0 [(s.lowLane, r.va.toNat, level)] .reissue
    | [] =>
      let vals := if a.causes.isEmpty then a.vals else []
      let (todo, remote) := if a.causes.isEmpty then (a.todo, a.remote) else ([], [])
      let kind : OpKind := .rred td ta comm (field w0 32 32) (field w0 16 16) (modBits f.m 5 3) (modBits f.m 1 4)
        (modBits f.m 9 1 = 1 && y.sw) lossy (s.sreg (sx + 2)) (s.sreg (sx + 3)) false
      let s := ((sent a.s).addOp f .CL kind todo remote [] vals).sendRequests id c remote
      let s := (s.rredSend id).advance
      match a.causes with
      | (_, x, va) :: _ => s.raiseAll k s.cur.slot pc pc s.me.mask x va
      | [] => s

def execRred (f : Fields) (s : State) : Outcome State Fault Refusal :=
  issue (.rred f) f false true
    (fun s =>
      let ty := modBits f.m 1 4
      s.withTile f.a.tileNum true (fun xa => s.withTile f.d.tileNum false (fun xd =>
        if xd.st != .empty || xd.rows ≠ xa.rows || xd.cols ≠ xa.cols || xd.pitch ≠ xa.pitch || xd.fmt ≠ ty || xa.fmt ≠ ty ||
            ((modBits f.m 8 1 = 1 || modBits f.m 5 3 = 3) && xa.bytes % 256 ≠ 0) then s.raiseTile false
        else s.sendTile f.a.tileNum xa (s.orAway (fun s => s.rred f xd xa))))) s

/-- A rank's contribution, piece by piece: none where a block is invalid or lost. -/
def pieceOf (s : State) (o : Op) (x : Tile) (lossy : Bool) (rank pieces r i : Nat) : Option Nat :=
  if r = rank then (if ownValid o lossy (i / 16) then some (tileNumber s o.core x (16 * i) 16) else none)
  else (o.vals.find? (fun p => p.1 = pieceKey pieces r i)).map (fun p => p.2.toNat)

/-- A rank's block: its bytes as a number, or none where it is not valid as a whole. -/
def blockOf (s : State) (o : Op) (x : Tile) (lossy : Bool) (rank pieces r i : Nat) : Option Nat :=
  let ps := (List.range 16).map (fun j => pieceOf s o x lossy rank pieces r (16 * i + j))
  if ps.all (·.isSome) then some (ps.foldr (fun p a => p.getD 0 + 2 ^ 128 * a) 0) else none

/-- Combine n elements of b bits, rank by rank. -/
def combineElems (op ty b n : Nat) (l : List (Option Nat)) : Nat :=
  (List.range n).foldr (fun e a =>
    tree (redOp op ty) 0 l.length (l.map (fun x => match x with
      | some v => field v (b * e) b
      | none => rredIdentity op ty)) + 2 ^ b * a) 0

/-- The result of a chunk: its bytes as a number, and the count of each block. -/
def chunkResult (s : State) (o : Op) (x : Tile) (op ty rank size : Nat) (lossy : Bool) : Nat × List Nat :=
  let pieces := x.bytes / 16
  let b := if op = 3 then 2048 else typeBits ty
  if lossy || op = 3 then
    let blocks := (List.range (x.bytes / 256)).map (fun i => (List.range size).map (fun r => blockOf s o x lossy rank pieces r i))
    (blocks.foldr (fun l a => combineElems op ty b (2048 / b) l + 2 ^ 2048 * a) 0,
     blocks.map (fun l => (l.filter (·.isSome)).length))
  else
    ((List.range pieces).foldr (fun i a =>
      combineElems op ty b (128 / b) ((List.range size).map (fun r => pieceOf s o x lossy rank pieces r i)) + 2 ^ 128 * a) 0, [])

/-- Byte writes of an engine operation; the first that does not complete. -/
def State.engineWrites (s : State) (o : Op) (va : W64) : List Nat → State × Option (Res × W64)
  | [] => (s, none)
  | x :: r =>
    match s.askChecked (engineUser o false) .plain va 1 (.wr (BitVec.ofNat 128 x)) with
    | (s, .ok _) => s.engineWrites o (va + 1) r
    | (s, x) => (s, some (x, va))

/-- Bytes of a validity array. -/
def validBytes (l : List Nat) : List Nat :=
  (List.range ((l.length + 7) / 8)).map (fun i =>
    (List.range 8).foldr (fun j a => (if l.getD (8 * i + j) 0 ≠ 0 then 1 else 0) + 2 * a) 0)

/-- A chunk's result lands: the arrays, then Td READY, Ta's send, and it retires (R322, R369). -/
def State.rredEnd (s : State) (o : Op) : State :=
  match o.kind with
  | .rred td ta k _ _ op ty _ lossy rv rc true =>
    if !o.served || o.done then s
    else (s.whole (fun s =>
      let y := s.comm o.ctx k
      let x := s.tile o.core ta
      let (res, counts) := chunkResult s o x op ty y.rank y.size lossy
      let (s, stop) := if lossy && rv ≠ 0 then s.engineWrites o rv (validBytes counts) else (s, none)
      let (s, stop) := match stop with
        | none => if lossy && rc ≠ 0 then s.engineWrites o rc (counts.map (fun n => min n 255)) else (s, none)
        | p => (s, p)
      let land (s : State) : State :=
        let d := s.tile o.core td
        let s := s.storePut o.core (256 * d.base) d.bytes res
        ((s.setTile o.core td d.filled).tileSent o.core ta).finishOp o
      match stop with
      | none => land s
      | some (.park level, va) => s.parkEngine o 2 0 1 va.toNat level (.copy o.id)
      | some (.cause c, va) => (land s).engineCause o none (fun v => v.mask) c va
      | some _ => s)).1
  | _ => s

/-! ## Sends that end (R87, R321) -/

/-- RST.BLK: after every block the notify add, then the end of the send. -/
def State.sendEnd (s : State) (o : Op) : State :=
  match o.kind with
  | .sendTile t lossy node tctx base valVa cntVa notify true failed =>
    if !o.served || o.done then s
    else if notify ≠ 0 && failed.isNone then
      (s.send (.notifyAdd node tctx.toNat notify)).setOp
        { o with remote := ackReqs 1 notify 0, kind := .sendTile t lossy node tctx base valVa cntVa 0 true failed }
    else (s.tileSent o.core t).finishOp o
  | _ => s

/-- A send from a DRAINING tile completes. -/
def execSendComplete (op : Nat) (s : State) : Outcome State Fault Refusal :=
  .next <|
    match s.op op with
    | none => s
    | some o => match o.kind with
      | .copy c => match c.kind with
        | .cpo t _ _ _ =>
          if s.copyGoes o && copyEnded s o c && !c.ended then
            (s.tileSent o.core t).setOp { o with kind := .copy { c with ended := true } }
          else s
        | _ => s
      | .sendTile _ _ _ _ _ _ _ _ _ _ => s.sendEnd o
      | .rred _ _ _ _ _ _ _ _ _ _ _ _ => s.rredEnd o
      | _ => s

/-! ## Gang pauses as relay software meets them (R161, R326) -/

/-- The communicator that a COMM and instance word names; RESOURCE where it is disabled. -/
def State.withComm (s : State) (w : W64) (go : State → Nat → Nat → State) : State :=
  let k := field w.toNat 0 16
  if k ≥ 64 then s.raiseCv .resource
  else s.orAway (fun s =>
    let s := s.readComm s.me.ctx k
    if (s.comm s.me.ctx k).on then go s k (field w.toNat 32 32) else s.raiseCv .resource)

/-- GANGQ's answer for chunk n of an instance: a grant, a pause, or no answer yet. Nothing is granted of an instance after the one
queried or paused (log 100). -/
def gangAnswer (x : Comm) (inst n : Nat) : Option Bool :=
  if (x.st = .pausing || x.st = .paused) && inst = x.pinst && n = x.cstar + 1 then some false
  else match x.permit with
    | none => some true
    | some p => if inst < x.pinst || (inst = x.pinst && n ≤ p) then some true else none

/-- A chunk is granted: GANGQ has reported it, and the caravan has a part in the instance. -/
def Comm.grant (x : Comm) (inst n core slot : Nat) : Comm :=
  { x with insts := x.insts.map (fun i => if i.inst = inst then { i with chunk := max i.chunk n } else i),
           users := if x.users.contains (inst, core, slot) then x.users else x.users ++ [(inst, core, slot)] }

def execGangq (f : Fields) (s : State) : Outcome State Fault Refusal :=
  issue (.gangq f) f false true
    (fun s => s.withComm (s.sreg f.a.sreg) (fun s k inst =>
      let c := s.me.ctx
      let n := (s.sreg f.b.sreg).toNat
      let x := s.comm c k
      match gangAnswer x inst n with
      | some true => ((s.setComm c k (x.grant inst n s.cur.core s.cur.slot)).setS f.d.sreg 0).advance
      | some false => (s.setS f.d.sreg 1).advance
      | none => s.block (.grant k inst n) 0)) s

/-- The relay caravans that have a part in the instance that is to pause and have not acknowledged (R161; log 100). -/
def Comm.unacked (x : Comm) : List (Nat × Nat) :=
  ((x.users.filter (fun u => u.1 = x.pinst)).map (·.2)).filter (fun m => !x.acks.contains m)

def execGangack (f : Fields) (s : State) : Outcome State Fault Refusal :=
  issue (.gangack f) f false true
    (fun s => s.withComm (s.sreg f.a.sreg) (fun s k inst =>
      let c := s.me.ctx
      let x := s.comm c k
      let s := s.advance
      if x.st != .pausing || inst ≠ x.pinst then s
      else
        let y := { x with acks := (x.acks ++ [(s.cur.core, s.cur.slot)]).eraseDups }
        (s.setComm c k { y with st := if y.unacked.isEmpty then CommState.paused else y.st }).send (.gangAck c k))) s

end Sys2Proof.Machine
end

