-- ==== Sys2Proof/Machine/FabricEvents.lean ====
section
/-! DEFINITION. What arrives from the fabric and from its manager: replies, remote requests, lossy transfers, link events, gang
pauses, extents (R116, R117, R144 to R152, R155, R159 to R161). -/

namespace Sys2Proof.Machine

open Host (Outcome)

/-! ## Links (R144, R146) -/

/-- A link event, to context 0 (R146). -/
def State.linkEvent (s : State) (p typ : Nat) : State := s.event [0] (0x2000 + p) typ (s.port p).peer.toNat

/-- A link loses its lock, or a flit has been retransmitted 16 times in a row: RETRAIN (R146). -/
def State.retrain (s : State) (port : Nat) : State :=
  let x := s.port port
  s.setPort port { x with st := .retrain, retrain := x.retrain + 1, tries := 0 }

/-- A flit fails its check: LCHECK counts it at the port that receives it. One of this device's that is not lossy is sent again from the
retry buffer, and LRETRY counts it (R144, R145). -/
def execFlitCheckFail (port : Nat) (flit : FailedFlit) (s : State) : Outcome State Fault Refusal :=
  .next <|
    let x := s.port port
    if x.st != .up then s
    else if !flit.sent then s.setPort port { x with check := x.check + 1 }
    else if flit.cls = .lossy then s
    else
      let s := s.setPort port { x with retry := x.retry + 1, tries := x.tries + 1 }
      if x.tries + 1 ≥ 16 then s.retrain port else s

def execRetrainEntry (port : Nat) (s : State) : Outcome State Fault Refusal :=
  .next (if (s.port port).st != .up then s else s.retrain port)

/-- A link is UP; after RETRAIN its retry buffer is replayed, which retransmits the flits in it (R146; log 101). -/
def execTrainingComplete (port : Nat) (peer : BitVec 16) (peerPort : BitVec 8) (s : State) : Outcome State Fault Refusal :=
  .next <|
    let x := s.port port
    if x.st = .training then
      (s.setPort port { x with st := .up, peer := peer, peerPort := peerPort, attempts := 0, tries := 0 }).linkEvent port 0x30
    else if x.st = .retrain then
      let (w, s) := if x.buffer.isEmpty then (0, s) else s.fresh
      s.setPort port { x with st := .up, tries := 0, retry := x.retry + w }
    else s

/-- A failed attempt; the third one makes the link FAILED. -/
def execTrainingFailed (port : Nat) (s : State) : Outcome State Fault Refusal :=
  .next <|
    let x := s.port port
    if x.st != .training then s
    else if x.attempts + 1 < 3 then s.setPort port { x with attempts := x.attempts + 1 }
    else (s.setPort port { x with st := .failed, attempts := 0 }).linkEvent port 0x31

/-- A route to a node remains (R150). -/
def routeTo (s : State) (node : BitVec 16) : Bool :=
  node ≠ 0 && node ≠ 0xFFFF && (node = s.dev.nodeid || (s.portFor node).isSome)

/-- The endpoints that have a peer without a route, as context and communicator (R150, R160). -/
def lostComms (s : State) : List (Nat × Nat) :=
  (s.fab.comms.filter (fun kx => kx.2.on && kx.2.st != .broken && kx.2.peers.any (fun r => !routeTo s (kx.2.at_ r).1))).map
    (fun kx => (kx.1 / 64, kx.1 % 64))

/-- They become BROKEN. -/
def State.loseRoutes (s : State) : State := (lostComms s).foldl (fun s m => s.breakComm m.1 m.2) s

def execRetrainTimeout (port : Nat) (s : State) : Outcome State Fault Refusal :=
  .next <|
    let x := s.port port
    if x.st != .retrain then s
    else (((s.setPort port { x with st := .failed }).linkEvent port 0x31).reroute port).loseRoutes

def execLctlDisSet (port : Nat) (s : State) : Outcome State Fault Refusal :=
  .next (if port < 36 then (s.disSet port).loseRoutes else s)

def execLctlDisClear (port : Nat) (s : State) : Outcome State Fault Refusal := .next (if port < 36 then s.disClear port else s)

/-! ## Replies (R149, R320 to R322) -/

/-- The cause that an outcome becomes. -/
def causeOf : RemoteOutcome → Option LaneCause
  | .performed => none
  | .permission => some .permission
  | .outOfRange => some .outOfRange
  | .extentGone => some .extentGone

/-- A cause met by a request of an operation, once another node has answered. -/
def State.remoteCause (s : State) (o : Op) (r : Req) (x : LaneCause) : State :=
  let c := s.cv o.core o.cslot
  if o.cls = .fetch then (s.dropOp o.id).asAgent o.agent (fun s => (s.raiseEvery x r.va).settle o.core o.cslot)
  else if o.slice then if c.slice.st = .ended then s else s.sliceTrapAt o.core o.cslot o.pc x.code
  else (s.raiseLanes o.core o.cslot o.pc c.pc ((causeLanes c o.kind r.lane).map (fun L => (L, x, r.va)))).settle o.core o.cslot

/-- The bytes that an operation's request asked for lie in the caches, and the request is served (R105, R116). -/
def State.filled (s : State) (o : Op) (r : Req) (x : BitVec 128) : State :=
  (s.fillBytes (opUser o) r.va.toNat r.w x).serveOp o [{ r with fill := false }]

/-- The lane of a remote access that has its answer (R320). -/
def State.remoteLane (s : State) (o : Op) (r : Req) (x : BitVec 128) : State :=
  let s := s.deliver { o with vals := [(r.lane, x)] }
  if o.served then (s.nowServed o.id).finishOp o else s

/-- The front end has every member's report: c* is one past the highest chunk reported, and PAUSE(c*) goes to every member (R161;
log 100). -/
def State.gangDecide (s : State) (id : Nat) : State :=
  match s.op id with
  | none => s
  | some o => match o.kind with
    | .gang k =>
      if !o.remote.isEmpty then s
      else
        let x := s.comm o.ctx k
        let s := s.dropOp id
        if x.st != .queried || !x.own then s
        else
          let cstar := o.vals.foldl (fun a p => max a (p.2.toNat % 2 ^ 64)) (x.permit.getD 1 - 1) + 1
          let s := s.setComm o.ctx k { x with st := .pausing, permit := some cstar, cstar := cstar }
          x.peers.foldl (fun s r => s.send (.gangPause (x.at_ r).1 (x.at_ r).2 k cstar)) s
    | _ => s

/-- The answer to request r of operation o, which no longer waits for it. -/
def State.answered (s : State) (o : Op) (r : Req) (out : RemoteOutcome) (x : BitVec 128) : State :=
  let s := s.setOp o
  match o.kind with
  | .remote _ _ _ _ _ _ =>
    match causeOf out with
    | none => s.remoteLane o r x
    | some c =>
      let s := s.remoteCause o r c
      if o.served then (s.nowServed o.id).finishOp o else s
  | .sendTile t lossy node tctx base valVa cntVa notify sent failed =>
    match causeOf out, failed with
    | some c, none =>
      (s.setOp { o with kind := .sendTile t lossy node tctx base valVa cntVa notify sent (some c) }).engineCause o none
        (fun v => v.mask) c r.va
    | _, _ => s
  | .rred td ta k inst _ op ty _ lossy _ _ sent =>
    match causeOf out with
    | none =>
      if r.fill then s.filled o r x
      else
        let o := { o with vals := sput o.vals r.lane x }
        let y := s.comm o.ctx k
        if sent && !headsAgree o y.rank y.size (rredHead op ty (s.tile o.core ta).bytes inst) then
          (s.failChunk o.core td ta).finishOp o
        else (s.setOp o).rredSend o.id
    | some c =>
      if isValidKey r.lane then
        -- the read of this rank's validity array: every block of this rank is invalid
        let o := { o with todo := [], remote := [], vals := [] }
        ((s.setOp o).rredSend o.id).engineCause o none (fun v => v.mask) c r.va
      else if lossy && r.lane < 2 ^ 40 && out = RemoteOutcome.outOfRange then s
      else (s.failChunk o.core td ta).finishOp o
  | .copy c =>
    match causeOf out with
    | none => if r.fill then s.fillBytes (engineUser o true) r.va.toNat r.w x else s.setOp { o with vals := sput o.vals r.lane x }
    | some y => s.endCopy o c none (some (y, r.va))
  | .matrix m =>
    match causeOf out with
    | none => if r.fill then s.fillBytes (engineUser o false) r.va.toNat r.w x else s.setOp { o with vals := sput o.vals r.lane x }
    | some y => s.mxStopped o m (.fails y r.va)
  | .bank _ _ _ =>
    match causeOf out with
    | none => if r.fill then s.filled o r x else s.setOp { o with vals := sput o.vals r.lane x }
    | some y => (s.remoteCause o r y).finishOp o
  | .wback => if o.remote.isEmpty then s.dropOp o.id else s
  | .dev node q _ => s.setOp { o with vals := [(0, x &&& BitVec.ofNat 128 (2 ^ (8 * r.w) - 1))], kind := .dev node q (causeOf out) }
  | .gang _ =>
    match out with
    | .performed => (s.setOp { o with vals := sput o.vals r.lane x }).gangDecide o.id
    | _ => s.gangDecide o.id
  | _ =>
    match causeOf out with
    | some y => (s.remoteCause o r y).nowServed o.id
    | none =>
      if r.fill then s.filled o r x
      else
        let v := sget 0 o.vals r.lane ||| (x &&& BitVec.ofNat 128 (2 ^ (8 * r.w) - 1)) <<< (8 * r.off)
        let s := if r.home then s.updateL1 (opUser o) r.va.toNat r.w (r.act.after r.w x.toNat) else s
        (s.setOp { o with vals := if r.act.needsOld then sput o.vals r.lane v else o.vals }).nowServed o.id

/-- An operation without the first request of a lane that waits for another node. -/
def Op.without (o : Op) (r : Req) : Op := { o with remote := o.remote.erase r, held := o.held.filter (fun L => L ≠ r.lane) }

/-- The message with which a request of an operation's lane was sent last. -/
def messageOf (s : State) (op lane : Nat) : Option Nat :=
  (s.fab.out.zipIdx.reverse.find? (fun p => match p.1 with
    | .request o l _ _ _ _ _ => o = op && l = lane
    | .gangQuery o l _ _ _ _ => o = op && l = lane
    | _ => false)).map (·.2)

/-- A request has arrived, and so has all that the port has sent before it: it leaves the retry buffer (R144, R150; log 101). -/
def State.arrived (s : State) (op lane : Nat) : State :=
  match messageOf s op lane with
  | none => s
  | some n => { s with fab := { s.fab with ports := s.fab.ports.map (fun kp =>
      if kp.2.buffer.contains n then (kp.1, { kp.2 with buffer := kp.2.buffer.filter (fun i => i > n), tries := 0 }) else kp) } }

/-- A reply; one to a request that has ended already is discarded. -/
def execRemoteReply (op lane : Nat) (out : RemoteOutcome) (data : BitVec 128) (s : State) : Outcome State Fault Refusal :=
  .next <|
    match s.op op with
    | none => s
    | some o => match o.remote.find? (fun r => r.lane = lane) with
      | none => s
      | some r => (s.arrived op lane).answered (o.without r) r out data

/-- A PARKED notice suspends the request's timer; where it answers a request that this device passes on for another node, that node has
one too (R149). -/
def execParkedNotice (op lane : Nat) (s : State) : Outcome State Fault Refusal :=
  .next <|
    match s.op op with
    | none => s
    | some o =>
      if o.remote.any (fun r => r.lane = lane) && !o.held.contains lane then
        let s := (s.arrived op lane).setOp { o with held := o.held ++ [lane] }
        match o.kind with
        | .dev _ q _ => s.fab.waits.foldl (fun s w => match w with
          | .request _ r => if r.tctx.toNat = o.ctx && r.va = q.va && r.size = q.w then s.send (.parked r) else s
          | _ => s) s
        | _ => s
      else s

/-- The node that a request went to. -/
def requestNode (s : State) (o : Op) (r : Req) : BitVec 16 :=
  match o.kind with
  | .remote node _ _ _ _ _ => node
  | .sendTile _ _ node _ _ _ _ _ _ _ => node
  | .rred _ ta k _ _ _ _ _ _ _ _ _ =>
    let y := s.comm o.ctx k
    if isValidKey r.lane then (pageTarget s o.ctx r.va).1
    else if r.lane ≥ 2 ^ 41 then (y.at_ (r.lane - 2 ^ 41)).1
    else (y.at_ (r.lane / max 1 ((s.tile o.core ta).bytes / 16))).1
  | .gang k => ((s.comm o.ctx k).at_ r.lane).1
  | .dev node _ _ => node
  | _ => (pageTarget s o.ctx r.va).1

/-- The port on which a request was sent last (R149). -/
def requestPort (s : State) (op lane : Nat) (node : BitVec 16) : Nat :=
  match (messageOf s op lane).bind (fun n => (s.fab.via.find? (fun p => p.1 = n)).map (·.2)) with
  | some p => p
  | none => (s.portFor node).getD (Config.portTo node.toNat % 36)

/-- No reply for 50 ms and no notice: OUT_OF_RANGE and FABRIC_TIMEOUT; an exchange of a chunk, or of a pause, breaks its endpoint (R149,
R160). -/
def execFabricTimeout (op lane : Nat) (s : State) : Outcome State Fault Refusal :=
  .next <|
    match s.op op with
    | none => s
    | some o => match o.remote.find? (fun r => r.lane = lane) with
      | none => s
      | some r =>
        if o.held.contains lane then s
        else
          let node := requestNode s o r
          let s := s.event [o.ctx] (0x2000 + requestPort s op lane node) 0x32 node.toNat
          match o.kind with
          | .rred _ _ k _ _ _ _ _ _ _ _ _ =>
            if isValidKey r.lane then s.answered (o.without r) r .outOfRange 0 else s.breakComm o.ctx k
          | .gang k => s.breakComm o.ctx k
          | _ => s.answered (o.without r) r .outOfRange 0

/-! ## Access lists (R148, R379) -/

/-- Rights of R148. -/
inductive Right where
  | rd | wr | at | lossy
  deriving DecidableEq, Repr

def Right.bit : Right → Nat
  | .rd => 25
  | .wr => 26
  | .at => 27
  | .lossy => 28

/-- An entry of an access list admits a source for a right. -/
def aclAdmits (x : BitVec 128) (node : BitVec 16) (sctx : BitVec 8) (r : Right) : Bool :=
  let e := x.toNat
  e / 2 ^ 29 = 0 && (field e 0 16 = 0xFFFF || field e 0 16 = node.toNat) && (field e 24 1 = 1 || field e 16 8 = sctx.toNat) &&
    field e r.bit 1 = 1

/-- The endpoint's cached list of a context, read where it is not cached. -/
def State.readAcl (s : State) (c : Nat) : State × List (BitVec 128) :=
  match s.fab.acl.find? (fun p => p.1 = c) with
  | some (_, l) => (s, l)
  | none =>
    let v := (s.ctx c).fabacl.toNat
    if v = 0 then (s, [])
    else
      let va := field v 8 49 * 256
      let (s, l) := (List.range (v % 256 + 1)).foldl (fun (a : State × List (BitVec 128)) i =>
        match a.1.devRead c (va + 16 * i) 16 with
        | (s, some x) => (s, a.2 ++ [BitVec.ofNat 128 x])
        | (s, none) => (s, a.2)) (s, [])
      ({ s with fab := { s.fab with acl := sput s.fab.acl c l } }, l)

/-- A source is admitted to a context for a right; a host that ADMIT_HOST named has RD, WR and AT on context 0. -/
def State.admits (s : State) (c : Nat) (node : BitVec 16) (sctx : BitVec 8) (r : Right) : State × Bool :=
  if c = 0 && s.dev.admitted.contains node && r != .lossy then (s, true)
  else
    let (s, l) := s.readAcl c
    (s, l.any (fun e => aclAdmits e node sctx r))

/-- A context that serves remote accesses (R149). -/
def servesRemote (s : State) (c : Nat) : Bool :=
  match (s.ctx c).st with
  | .free => false
  | .resetting => false
  | .dead => false
  | _ => true

/-! ## Requests of other nodes (R149) -/

/-- The user that an incoming request is, under the number that it waits with. -/
def remoteUser (c id : Nat) : User := { User.device c with op := id }

def reqRight (r : RemoteReq) : Right :=
  match r.kind with
  | .rd => .rd
  | .wr => .wr
  | .at _ _ => .at

def reqAct (r : RemoteReq) : Act :=
  match r.kind with
  | .rd => .rd
  | .wr => .wr r.data
  | .at op t => .rmw op.toNat t.toNat (r.data.setWidth 64) none

def reqPlace (r : RemoteReq) : Place :=
  match r.kind with
  | .at _ _ => .home true
  | _ => .plain

/-- What a cause at the target answers: an uncorrectable sector answers as performed, with zero. -/
def outcomeOf : LaneCause → RemoteOutcome
  | .permission => .permission
  | .extentGone => .extentGone
  | .dataUncorrectable => .performed
  | _ => .outOfRange

/-- Hold an access of the fabric at this device: a fault record with SRCKIND 5, SRCID 0x0002, MASK 0x1 (R149). -/
def State.parkIncoming (s : State) (c akind va level : Nat) (what : ParkWhat) : State :=
  let (s, id) := s.postFaults c 5 2 0 akind [(0, va, level)]
  { s with parks := s.parks ++ [{ id := id, srckind := 5, srcid := 2, ctx := c, core := 0, cslot := 0, what := what }] }

/-- Serve a request: admitted, refused, held, performed. -/
def State.serveRequest (s : State) (id : Nat) (r : RemoteReq) : State :=
  let c := r.tctx.toNat
  if !servesRemote s c then s.send (.reply r .permission 0)
  else
    match s.admits c r.node r.sctx (reqRight r) with
    | (s, false) => s.send (.reply r .permission 0)
    | (s, true) =>
      match s.askChecked (remoteUser c id) (reqPlace r) r.va r.size (reqAct r) with
      | (s, .ok x) => s.send (.reply r .performed (BitVec.ofNat 128 x))
      | (s, .cause x) => s.send (.reply r (outcomeOf x) 0)
      | (s, .park level) => (s.parkIncoming c (reqAct r).kind r.va.toNat level (.incoming r)).send (.parked r)
      | (s, _) => s

/-! ## What waits (R134, R149) -/

def Waiting.id : Waiting → Nat
  | .request id _ => id
  | .block id _ _ => id
  | .marker id _ _ => id
  | .command id _ _ _ => id
  | .doorbell id _ _ _ => id

def State.unwait (s : State) (id : Nat) : State :=
  { s with fab := { s.fab with waits := s.fab.waits.filter (fun w => w.id ≠ id) } }.dropAsked (fun n => n = id)

/-- Try what waits: done, it waits no more; else it stays, or takes its place at the end. -/
def State.serveWaiting (s : State) (w : Waiting) (body : State → State) : State :=
  match s.whole body with
  | (t, true) => t.unwait w.id
  | (t, false) => if t.fab.waits.any (fun v => v.id = w.id) then t else { t with fab := { t.fab with waits := t.fab.waits ++ [w] } }

/-- A number under which something that has come waits. -/
def State.waitId (s : State) : Nat × State := (2 ^ 64 + s.nextDev, { s with nextDev := s.nextDev + 1 })

/-- A request comes, from its node or from a replay. -/
def State.newRequest (s : State) (r : RemoteReq) : State :=
  let (id, s) := s.waitId
  s.serveWaiting (.request id r) (fun s => s.serveRequest id r)

def execRemoteRequest (r : RemoteReq) (s : State) : Outcome State Fault Refusal := .next (s.newRequest r)

/-! ## Lossy transfers (R151, R152) -/

/-- XFER − H modulo 2³²; H of a source is kept as the distance above 0xFFFF_FFFF. -/
def xferAhead (s : State) (src : BitVec 16) (xfer : BitVec 32) : BitVec 32 := xfer - (sget 0 s.fab.h src.toNat - 1)

/-- n bytes of a page that is present and writable: none where it is not. Those of another node's page are sent to it. -/
def State.lossyWrite (s : State) (c id : Nat) (va : W64) (n x : Nat) : Option State :=
  match s.checkedAccess (remoteUser c id) .plain va n 1 (.wr (BitVec.ofNat 128 x)) with
  | (s, .ok _) => some s
  | (s, .remote) =>
    let t := pageTarget s c va
    let r := askReq 0 va.toNat n false (.wr (BitVec.ofNat 128 x))
    some ((s.addDevOp c .wback [r]).send (.request (2 ^ 64 + s.nextDev) 0 t.1 c t.2 n r.act))
  | (s, .busy) => some { s with want := .waits }
  | _ => none

/-- 256 bytes, in pieces of one byte where they are not aligned to sixteen; none where a piece cannot be written. -/
def State.lossyBytes (s : State) (c id : Nat) (va : W64) (x : Nat) : Option State :=
  let n := if va.toNat % 16 = 0 then 16 else 1
  (List.range (256 / n)).foldl (fun s i => s.bind (fun s =>
    s.lossyWrite c id (va + BitVec.ofNat 64 (n * i)) n (field x (8 * n * i) (8 * n)))) (some s)

def openXfer (s : State) (src : BitVec 16) (xfer : BitVec 32) : Option OpenXfer :=
  s.fab.opened.find? (fun t => t.src = src && t.xfer = xfer)

def State.closeXfer (s : State) (src : BitVec 16) (xfer : BitVec 32) : State :=
  { s with fab := { s.fab with opened := s.fab.opened.filter (fun t => !(t.src = src && t.xfer = xfer)) } }

/-- LDROP + 1. -/
def State.dropBlock (s : State) (p : Nat) : State := s.setPort p { s.port p with drop := (s.port p).drop + 1 }

/-- A lossy block by the table of R152. -/
def State.serveBlock (s : State) (id port : Nat) (b : LossyBlock) : State :=
  let c := b.tctx.toNat
  let d := xferAhead s b.src b.xfer
  if d = 0 || d.msb || !b.chkOk then s.dropBlock port
  else
    let old := openXfer s b.src b.xfer
    if old.isNone && s.fab.opened.length ≥ 4096 then s.dropBlock port
    else if !servesRemote s c then s.dropBlock port
    else
      let (s, a1) := s.admits c b.src b.sctx .lossy
      let (s, a2) := s.admits c b.src b.sctx .wr
      if !(a1 && a2) then s.dropBlock port
      else match s.lossyBytes c id b.va b.payload.toNat with
        | none => s.dropBlock port
        | some s =>
          let t := old.getD { src := b.src, xfer := b.xfer, got := [] }
          let s := s.closeXfer b.src b.xfer
          { s with fab := { s.fab with opened := s.fab.opened ++ [{ t with got := t.got ++ [b.index.toNat] }] } }

def execLossyBlock (port : Nat) (b : LossyBlock) (s : State) : Outcome State Fault Refusal :=
  .next <|
    let (id, s) := s.waitId
    s.serveWaiting (.block id port b) (fun s => s.serveBlock id port b)

/-- A marker's own accesses, byte by byte: what the first that fails meets. -/
def State.markerBytes (s : State) (c id : Nat) (va : W64) : List Nat → State × Option (Res × W64)
  | [] => (s, none)
  | x :: r =>
    match s.askChecked (remoteUser c id) .plain va 1 (.wr (BitVec.ofNat 128 x)) with
    | (s, .ok _) => s.markerBytes c id (va + 1) r
    | (s, x) => (s, some (x, va))

/-- The marker's zero writes and its arrays. -/
def State.markerWrites (s : State) (id : Nat) (m : EndMarker) (got : List Nat) : State × Option (Res × W64) :=
  let c := m.tctx.toNat
  let bits := (List.range m.n).map (fun i => if got.contains i then 1 else 0)
  let s := ((List.range m.n).filter (fun i => !got.contains i)).foldl (fun s i =>
    (s.lossyBytes c id (m.base + BitVec.ofNat 64 (256 * i)) 0).getD s) s
  match s.markerBytes c id m.valVa (validBytes bits) with
  | (s, some x) => (s, some x)
  | (s, none) => if m.cntVa = 0 then (s, none) else s.markerBytes c id m.cntVa bits

/-- A marker is processed, or refused: its entry is freed and H moves on (R152). -/
def State.markerEnd (s : State) (m : EndMarker) (out : RemoteOutcome) : State :=
  let s := s.closeXfer m.src m.xfer
  { s with fab := { s.fab with h := sset 0 s.fab.h m.src.toNat (m.xfer + 1) } }.send (.markerAck m out)

/-- What a marker's access that did not complete brings: it is held, refused, or waits. -/
def State.markerStops (s : State) (m : EndMarker) (wrote : Bool) (x : Res) (va : W64) : State :=
  match x with
  | .park level => s.parkIncoming m.tctx.toNat (if wrote then 2 else 1) va.toNat level (.marker m wrote)
  | .cause x => s.markerEnd m (outcomeOf x)
  | _ => s

/-- The notify add, which releases at SYSTEM scope: it follows once nothing of the context is left to be written to a node (R152, R194,
R196). -/
def State.markerNotify (s : State) (id : Nat) (m : EndMarker) : State :=
  let c := m.tctx.toNat
  let w : Waiting := .marker id m true
  if m.notVa = 0 then (s.markerEnd m .performed).unwait id
  else
    let s := s.flushFabric c
    s.serveWaiting w (fun s =>
      if fabricPending s c then { s with want := .waits }
      else match s.askChecked (remoteUser c id) (.home true) m.notVa 8 (.rmw 0 3 1 none) with
        | (s, .ok _) => s.markerEnd m .performed
        | (s, x) => s.markerStops m true x m.notVa)

/-- A source's markers are processed in their order: one stands behind an earlier one that waits or is held (R151, R152). -/
def behindMarker (s : State) (id : Nat) (m : EndMarker) : Bool :=
  (s.fab.waits.takeWhile (fun w => w.id ≠ id)).any (fun w => match w with
    | .marker _ n _ => n.src = m.src
    | _ => false) ||
  s.parks.any (fun p => match p.what with
    | .marker n _ => n.src = m.src
    | _ => false)

/-- The marker procedure of R152; `wrote`: only the notify add is left. -/
def State.serveMarker (s : State) (id : Nat) (m : EndMarker) (wrote : Bool) : State :=
  let c := m.tctx.toNat
  let w : Waiting := .marker id m wrote
  if behindMarker s id m then s.serveWaiting w (fun s => { s with want := .waits })
  else if wrote then s.markerNotify id m
  else
    let refused (s : State) : State × Bool :=
      if !servesRemote s c then (s, true)
      else
        let (s, ok) := s.admits c m.src m.sctx .wr
        (s, !ok)
    let got := match openXfer s m.src m.xfer with
      | some t => t.got
      | none => []
    let body (s : State) : State × Bool :=
      match refused s with
      | (s, true) => (s.markerEnd m .permission, false)
      | (s, false) => match s.markerWrites id m got with
        | (s, none) => (s, true)
        | (s, some (x, va)) => (s.markerStops m false x va, false)
    let go := (body s).2
    let s := s.serveWaiting w (fun s => (body s).1)
    if go && !(s.fab.waits.any (fun v => v.id = id)) then s.markerNotify id m else s

/-- A marker comes, or goes on after a replay. -/
def State.newMarker (s : State) (m : EndMarker) (wrote : Bool) : State :=
  let (id, s) := s.waitId
  s.serveMarker id m wrote

def execEndMarker (m : EndMarker) (s : State) : Outcome State Fault Refusal := .next (s.newMarker m false)

/-- H of the node is reset; its open transfers go, and with them its blocks and markers that wait or are held (R152). -/
def execNodeReset (node : BitVec 16) (s : State) : Outcome State Fault Refusal :=
  .next { s with
    fab := { s.fab with h := sset 0 s.fab.h node.toNat 0, opened := s.fab.opened.filter (fun t => t.src ≠ node),
                        waits := s.fab.waits.filter (fun w => match w with
                          | .block _ _ b => b.src ≠ node
                          | .marker _ m _ => m.src ≠ node
                          | _ => true) }
    parks := s.parks.filter (fun p => match p.what with
      | .marker m _ => m.src ≠ node
      | _ => true) }

/-! ## Collectives: peers, gang pauses, switches (R155, R159 to R161) -/

def execPeerContextReset (c comm : Nat) (s : State) : Outcome State Fault Refusal :=
  .next (if (s.comm c comm).read then s.breakComm c comm else s)

/-- INSTANCE_DONE of a peer; it counts too for an instance that its COLL has still to open here (R159). -/
def execInstanceDone (c comm inst peer : Nat) (s : State) : Outcome State Fault Refusal :=
  .next <|
    let x := s.comm c comm
    if x.insts.any (fun i => i.inst = inst) then
      (s.setComm c comm { x with insts := x.insts.map (fun i =>
        if i.inst = inst then { i with peers := (i.peers ++ [peer]).eraseDups } else i) }).freeSlots c comm
    else if inst < x.next then s
    else s.setComm c comm { x with early := (x.early ++ [(inst, peer)]).eraseDups }

/-- An endpoint is queried for its current instance: at most one chunk past the highest reported is granted. -/
def Comm.query (x : Comm) (own : Bool) : Comm :=
  { x with st := .queried, own := own, pinst := x.current, permit := some (x.chunkOf x.current + 1), acks := [] }

/-- GANG_QUERY: the highest chunk is reported; in a pause it is refused with BUSY. -/
def execGangQuery (c comm : Nat) (s : State) : Outcome State Fault Refusal :=
  .next <|
    let x := s.comm c comm
    let chunk := x.chunkOf x.current
    match x.st with
    | .active => (s.setComm c comm (x.query false)).send (.gangReport c comm chunk false)
    | .queried => s.send (.gangReport c comm chunk true)
    | .pausing => s.send (.gangReport c comm chunk true)
    | .paused => s.send (.gangReport c comm chunk true)
    | _ => s

def execPause (c comm cstar : Nat) (s : State) : Outcome State Fault Refusal :=
  .next <|
    let x := s.comm c comm
    let busy := s.send (.gangReport c comm (x.chunkOf x.current) true)
    match x.st with
    | .queried => if x.own then busy else s.setComm c comm { x with st := .pausing, permit := some cstar, cstar := cstar }
    | .pausing => busy
    | .paused => busy
    | _ => s

/-- A pause ends. -/
def Comm.resumed (x : Comm) : Comm := { x with st := .active, own := false, permit := none, acks := [] }

def execGangResume (c comm : Nat) (s : State) : Outcome State Fault Refusal :=
  .next <|
    let x := s.comm c comm
    if x.st = .paused then s.setComm c comm x.resumed else s

/-- The front end begins a pause of an active endpoint (R26, R160, R161). -/
def State.startPause (s : State) (c k : Nat) : State :=
  let x := s.comm c k
  if x.st != .active then s
  else
    let y := x.query true
    let id := 2 ^ 64 + s.nextDev
    let s := (s.setComm c k y).addDevOp c (.gang k) (x.peers.map (fun r => mkReq r 0 8 .rd))
    (x.peers.foldl (fun s r => s.send (.gangQuery id r (x.at_ r).1 (x.at_ r).2 k y.pinst)) s).gangDecide id

/-- Every active endpoint of a context. -/
def State.pauseComms (s : State) (c : Nat) : State :=
  (s.fab.comms.filter (fun kx => kx.1 / 64 = c)).foldl (fun s kx => s.startPause c (kx.1 % 64)) s

/-- The pauses that the front end has begun for a context end, with RESUME to the members (R28, R160). -/
def State.resumeComms (s : State) (c : Nat) : State :=
  let s := { s with ops := s.ops.filter (fun o => !(o.ctx = c && match o.kind with
    | .gang _ => true
    | _ => false)) }
  (s.fab.comms.filter (fun kx => kx.1 / 64 = c && kx.2.own && kx.2.st != .broken)).foldl (fun s kx =>
    let x := kx.2
    x.peers.foldl (fun s r => s.send (.gangResume (x.at_ r).1 (x.at_ r).2 (kx.1 % 64))) (s.setComm c (kx.1 % 64) x.resumed)) s

/-- A switch declines a chunk: the relay cores perform it, with the same result (R155). -/
def execSwitchDecline (op : Nat) (s : State) : Outcome State Fault Refusal :=
  .next <|
    match s.op op with
    | none => s
    | some o => match o.kind with
      | .rred td ta k inst chunk op ty true lossy rv rc true =>
        if o.done then s else s.setOp { o with kind := .rred td ta k inst chunk op ty false lossy rv rc true }
      | _ => s

/-- A switch aborts an accepted chunk: it is run again, from every rank's contribution (R155). -/
def execSwitchAbort (op : Nat) (s : State) : Outcome State Fault Refusal :=
  .next <|
    match s.op op with
    | none => s
    | some o => match o.kind with
      | .rred td ta k inst chunk op ty true lossy rv rc true =>
        if o.done then s
        else (s.setOp { o with remote := [], held := [], vals := o.vals.filter (fun p => isValidKey p.1),
                               kind := .rred td ta k inst chunk op ty false lossy rv rc false }).rredSend o.id
      | _ => s

/-! ## Fabric extents (R116, R117) -/

/-- An extent event (R36), to the owner and to context 0. -/
def State.extentEvent (s : State) (typ id detail : Nat) : State :=
  let o := (s.extent id).owner
  s.ctxEvent [o, 0] 0x6000 typ (id + 2 ^ 16 * detail) o

def execExtentGrant (id : Nat) (node : BitVec 16) (base : W64) (size owner : Nat) (s : State) : Outcome State Fault Refusal :=
  .next <|
    let x := s.extent id
    if id < 4096 && (x.st = .free || x.st = .gone) then
      s.setExtent id { st := .granted, node := node, base := base, size := size, owner := owner }
    else s

def execExtentOrderlyRelease (id : Nat) (s : State) : Outcome State Fault Refusal :=
  .next <|
    let x := s.extent id
    if x.st = .granted then s.setExtent id { x with st := .releasing } else s

def Line.ofExtent (l : Line) (id : Nat) : Bool := l.home = 4 && l.key = id

/-- Dirty 32-byte sectors of a byte mask. -/
def dirtySectors (m : BitVec 128) : Nat := (lineSectors m).length

/-- Every line of an extent leaves every cache; nothing is written. -/
def State.dropExtent (s : State) (id : Nat) : State :=
  let s := s.cores.foldl (fun s kc =>
    (kc.2.l1.filter (fun l => l.ofExtent id)).foldl (fun s l => s.dropL1 kc.1 l.asid l.tag) s) s
  let s := (List.range 8).foldl (fun s d => s.dropL2 d (fun l => l.ofExtent id)) s
  { s with chans := s.chans.map (fun kc => (kc.1, { kc.2 with msc := kc.2.msc.filter (fun l => l.extent ≠ some id) })) }

/-- The dirty sectors of an extent in the caches. -/
def extentDirty (s : State) (id : Nat) : Nat :=
  let lines (l : List Line) : Nat := (l.filter (fun l => l.ofExtent id)).foldl (fun a l => a + dirtySectors l.dirty) 0
  s.cores.foldl (fun a kc => a + lines kc.2.l1) 0 + s.dies.foldl (fun a kd => a + lines kd.2.l2) 0 +
    s.chans.foldl (fun a kc => a + (kc.2.msc.filter (fun l => l.extent = some id)).foldl (fun a l => a + dirtySectors l.dbytes) 0) 0

def execExtentForcedRelease (id : Nat) (s : State) : Outcome State Fault Refusal :=
  .next <|
    let x := s.extent id
    if x.st = .granted || x.st = .releasing then
      let n := extentDirty s id
      ((s.dropExtent id).setExtent id { x with st := .gone }).extentEvent 0x71 id n
    else s

/-- Steps 1 to 5 of R117: the extent is GONE once nothing of it is dirty and its node has acknowledged what was written. -/
def execExtentWritebackDone (id : Nat) (s : State) : Outcome State Fault Refusal :=
  .next <|
    let x := s.extent id
    if x.st != .releasing then s
    else
      let s := s.cores.foldl (fun s kc =>
        (kc.2.l1.filter (fun l => l.ofExtent id)).foldl (fun s l => s.cleanL1 kc.1 l.asid l.tag) s) s
      let s := (List.range 8).foldl (fun s d => s.flushL2 d (fun l => l.ofExtent id) false) s
      let s := s.flushExt (fun l => l.extent = some id) true
      if extentDirty s id ≠ 0 || s.ops.any (fun o => o.ctx = x.owner && o.kind = .wback) then s
      else (((s.dropExtent id).setExtent id { x with st := .gone }).send (.extentAck id)).extentEvent 0x70 id 0

end Sys2Proof.Machine
end

