-- ==== Sys2Proof/Machine/Bank.lean ====
section
/-! DEFINITION. Channel modes and bank commands, class 0xA (R132 to R137, R203, R204, R327, R328), and the events of a
channel (R129 to R131, R133, R134). -/

namespace Sys2Proof.Machine

open Host (Outcome)

/-! ## Channel addresses (R201, R306) -/

/-- The channel that an address names, and with `bank` a bank of it; RESOURCE where it names none. -/
def State.withChannel (s : State) (o : Operand) (bank : Bool) (go : Nat → Nat → State) : State :=
  match deepScope s s.me.ctx s.cur.core bank (s.sreg o.sreg) with
  | none => s.raiseCv .resource
  | some (ch, b) => go ch (b.getD 0)

/-! ## The mode machine (R133) -/

/-- A mode word that is well formed for a context (R132). -/
inductive ModeWord where
  | step1 | step2 | step3 | exit_ | other
  deriving DecidableEq, Repr

def modeWord (w ctx : Nat) : ModeWord :=
  if field w 0 8 ≠ 0 || field w 8 8 ≠ ctx then .other
  else match field w 16 16 with
    | 0x3A71 => .step1
    | 0x5C92 => .step2
    | 0x7EB3 => .step3
    | 0x9D04 => .exit_
    | _ => .other

/-- A mode event of a channel, to its owner and to context 0 (R127). -/
def State.modeEvent (s : State) (ch typ owner detail : Nat) : State :=
  s.chanEvent [owner] ch typ 0 (s.ctx owner).asid.toNat 0 0 detail

/-- The operations of a channel's bank commands that have not completed. -/
def bankOps (s : State) (ch : Nat) : List Op :=
  s.ops.filter (fun o => !o.done && match o.kind with
    | .bank c _ _ => c = ch
    | _ => false)

/-- Queued commands fail: EXECUTOR_FAULT for every active lane of their issuers (R328). -/
def State.failCommands (s : State) (ch : Nat) : State :=
  let s := (bankOps s ch).foldl (fun s o => (s.finishOp o).engineCause o none (fun v => v.mask) .executorFault 0) s
  s.setChan ch { s.chan ch with cmds := [] }

/-- Back to NORMAL: no ordinary request has to wait any more. -/
def State.toNormal (s : State) (ch : Nat) : State :=
  s.setChan ch { s.chan ch with mode := .normal, steps := 0, owner := 0, waits := [], snap := [] }

/-- The owner or the arming context enters SAVING or RESETTING: MODE_LOST (R133). -/
def State.modeLost (s : State) (ch : Nat) : State :=
  let o := (s.chan ch).owner
  let s := if s.advOpen = some ch then { s with advOpen := none, advTodo := [] } else s
  (((s.failCommands ch).zeroExecutors ch).toNormal ch).modeEvent ch 0x28 o o

/-- A channel that a context owns or arms. -/
def Channel.heldBy (c : Channel) (ctx : Nat) : Bool :=
  (c.mode = .arming || c.mode = .compute || c.mode = .suspended) && c.owner = ctx

/-- Every channel of a context that enters SAVING or RESETTING is lost. -/
def State.loseChannels (s : State) (ctx : Nat) : State :=
  ((s.chans.filter (fun p => p.2.heldBy ctx)).map (·.1)).foldl (fun s ch => s.modeLost ch) s

/-- A refusal in ARMING aborts the sequence. -/
def State.abortArming (s : State) (ch : Nat) : State :=
  let c := s.chan ch
  (s.toNormal ch).modeEvent ch 0x26 c.owner c.steps

/-- Deliver a mode word of context x to a channel: the state after it, and whether it was accepted. -/
def State.deliverMode (s : State) (ch x : Nat) (w : ModeWord) : State × Bool :=
  let c := s.chan ch
  match c.mode with
  | .normal => if w = .step1 then (s.setChan ch { c with mode := .arming, steps := 1, owner := x }, true) else (s, false)
  | .arming =>
    if w = .step2 && c.owner = x && c.steps = 1 then (s.setChan ch { c with steps := 2 }, true)
    else if w = .step3 && c.owner = x && c.steps = 2 then
      let s := s.zeroExecutors ch
      ((s.setChan ch { s.chan ch with mode := .compute, steps := 0, cmds := [] }).modeEvent ch 0x25 x x, true)
    else (s.abortArming ch, false)
  | .exiting => (s, false)
  | _ => if w = .exit_ && c.owner = x then (s.setChan ch { c with mode := .exiting, snap := [] }, true) else (s, false)

/-- XMODE (R328): the word s[w][31:0] to the channel, the status to s[d]. -/
def State.xmode (s : State) (f : Fields) : State :=
  s.withChannel f.a false (fun ch _ =>
    let x := s.me.ctx
    let (t, ok) := s.deliverMode ch x (modeWord ((s.sreg f.b.sreg).toNat % 2 ^ 32) x)
    (t.setS f.d.sreg (if ok then 0 else 1)).advance)

def execXmodeStep1 (f : Fields) (s : State) : Outcome State Fault Refusal := issue (.xmodeStep1 f) f true true (fun s => s.xmode f) s
def execXmodeStep2 (f : Fields) (s : State) : Outcome State Fault Refusal := issue (.xmodeStep2 f) f true true (fun s => s.xmode f) s
def execXmodeStep3 (f : Fields) (s : State) : Outcome State Fault Refusal := issue (.xmodeStep3 f) f true true (fun s => s.xmode f) s
def execXmodeExit (f : Fields) (s : State) : Outcome State Fault Refusal := issue (.xmodeExit f) f true true (fun s => s.xmode f) s
def execXmodeOtherWord (f : Fields) (s : State) : Outcome State Fault Refusal :=
  issue (.xmodeOtherWord f) f true true (fun s => s.xmode f) s

/-! ## The commands (R328) -/

/-- The channel takes commands of context x. -/
def Channel.takes (c : Channel) (x : Nat) : Bool := (c.mode = .compute || c.mode = .suspended) && c.owner = x

/-- A lane cause for every active lane; the caravan goes on (R263, R337). -/
def State.failAll (s : State) (x : LaneCause) (va : W64) : State :=
  let pc := s.pc
  s.advance.raiseAll s.cur.core s.cur.slot pc pc s.me.mask x va

/-- The channel of a command of the issuing context, else EXECUTOR_FAULT. -/
def State.withExecutors (s : State) (o : Operand) (bank : Bool) (go : Nat → Nat → State) : State :=
  s.withChannel o bank (fun ch b => if (s.chan ch).takes s.me.ctx then go ch b else s.failAll .executorFault 0)

/-- A command goes to its channel: at once, or when nothing holds it (R134, R207, R208). `adds`: it makes an add to ADV, which is the
released write of a wide release that has had none (R203, R204). -/
def State.sendCommand (s : State) (f : Fields) (ch : Nat) (c : BankCmd) (adds : Bool) (todo remote : List Req)
    (vals : List (Nat × BitVec 128)) : State :=
  let id := s.nextOp
  let s := (s.addOp f .BX (.bank ch c (adds && s.me.relDue)) todo remote [] vals).sendRequests id s.me.ctx remote
  let s := if adds then s.setMe { s.me with relDue := false } else s
  match s.op id with
  | some o => s.queueCommand o ch
  | none => s

/-- A command that acts in no advance takes its turn: after the issuer's earlier commands to the channel, between advances, and not in a
suspension (R134, R136, R137, R328). -/
def commandsDue (s : State) (k slot ch : Nat) : Bool :=
  (s.chan ch).mode = .suspended || s.advOpen = some ch ||
    (bankOps s ch).any (fun o => o.core = k && o.cslot = slot && !o.slice)

def State.afterCommands (s : State) (ch : Nat) (go : State) : State :=
  if commandsDue s s.cur.core s.cur.slot ch then s.block (.commands ch) 0 else go

/-- The read of an XPROG: n words, one request each. -/
def xprogReqs (va : W64) (n : Nat) : List (List Req) :=
  (List.range n).map (fun i => [mkReq i (va + BitVec.ofNat 64 (4 * i)) 4 .rd])

def execXprog (f : Fields) (s : State) : Outcome State Fault Refusal :=
  issue (.xprog f) f false true
    (fun s =>
      let n := (s.srcS true f.b).toNat
      let va := s.sreg f.a.sreg
      if n = 0 || n > 256 then s.withChannel f.d false (fun _ _ => s.raiseCv .resource)
      else s.withExecutors f.d false (fun ch _ =>
        let a := serve s (s.user s.nextOp) true [] (xprogReqs va n)
        match a.causes, a.parks with
        | (_, c, x) :: _, _ => a.s.failAll c x
        | [], (r, level) :: _ =>
          a.s.parkCaravan s.cur.core s.cur.slot s.pc 0 [(s.lowLane, r.va.toNat, level)] .reissue
        | [], [] => (a.s.sendCommand f ch (.xprog n) false a.todo a.remote a.vals).advance)) s

/-- XCOL's 32 bytes: inbox words 2j and 2j+1 are the halves of s[v+j]. -/
def State.inboxOf (s : State) (v : Nat) : BitVec 256 :=
  BitVec.ofNat 256 ((List.range 4).foldr (fun j a => (s.sreg (v + j)).toNat + 2 ^ 64 * a) 0)

def execXcol (f : Fields) (s : State) : Outcome State Fault Refusal :=
  issue (.xcol f) f false true
    (fun s => s.withExecutors f.a false (fun ch _ =>
      (s.sendCommand f ch (.xcol (s.inboxOf f.b.sreg)) true [] [] []).advance)) s

def execXread (f : Fields) (s : State) : Outcome State Fault Refusal :=
  issue (.xread f) f false true
    (fun s => s.withExecutors f.a true (fun ch b =>
      (s.sendCommand f ch (.xread f.d.sreg b) true [] [] []).advance)) s

def execXstat (f : Fields) (s : State) : Outcome State Fault Refusal :=
  issue (.xstat f) f false true
    (fun s => s.withExecutors f.a true (fun ch b =>
      s.afterCommands ch (s.setS f.d.sreg (s.executor (64 * ch + b)).status).advance)) s

/-- XRESET: every executor of the channel IDLE, its program and the transfer slots kept (R135). -/
def State.idleExecutors (s : State) (ch : Nat) : State :=
  let s := { s with parks := s.parks.filter (fun p => !(p.srckind = 4 && bankChan p.srcid = ch)) }
  (banksOf ch).foldl (fun s n => s.setExecutor n (s.executor n).idled) s

def execXreset (f : Fields) (s : State) : Outcome State Fault Refusal :=
  issue (.xreset f) f true true (fun s => s.withExecutors f.a false (fun ch _ => s.afterCommands ch (s.idleExecutors ch).advance)) s

/-! ## Events of the mode machine (R133, R134) -/

def execArmingTimeout (ch : Nat) (s : State) : Outcome State Fault Refusal :=
  .next (if (s.chan ch).mode = .arming then s.abortArming ch else s)

/-- The commands queued at Exit have completed. -/
def execExitingComplete (ch : Nat) (s : State) : Outcome State Fault Refusal :=
  .next <|
    let o := (s.chan ch).owner
    if (s.chan ch).mode = .exiting && (bankOps s ch).isEmpty && s.advOpen ≠ some ch then
      ((s.zeroExecutors ch).toNormal ch).modeEvent ch 0x27 o o
    else s

/-- What still has an ordinary request that waits at a channel: of the numbers noted there, those in use, and the device's own. -/
def waitingAt (s : State) (ch : Nat) : List Nat :=
  (s.chan ch).waits.filter (fun n => n = devOp || (s.op n).isSome || s.fab.waits.any (fun w => w.id = n))

/-- Entry into SUSPENDED: what is queued now is served (R134). -/
def execOboundExpires (ch : Nat) (s : State) : Outcome State Fault Refusal :=
  .next <|
    let c := s.chan ch
    let ids := waitingAt s ch
    if c.mode ≠ .compute || s.advOpen = some ch || ids.isEmpty then s
    else s.setChan ch { c with mode := .suspended, statsusp := c.statsusp + 1, waits := ids, snap := ids }

/-- The snapshot is served. What the device has given up of its own accesses holds nothing up (log 97). -/
def execSnapshotServed (ch : Nat) (s : State) : Outcome State Fault Refusal :=
  .next <|
    let c := s.chan ch
    if c.mode = .suspended && !c.snap.any (fun n => n ≠ devOp && (waitingAt s ch).contains n) then
      s.setChan ch { c with mode := .compute, snap := [] }
    else s

/-! ## Hot rows (R129 to R131) -/

def execRfmBlockEnd (ch bank : Nat) (s : State) : Outcome State Fault Refusal :=
  .next (s.setChan ch { s.chan ch with blocked := (s.chan ch).blocked.filter (fun b => b ≠ bank) })

/-- The counting tables clear; then each dirty captured row is written back, which opens it, and every capture ends. -/
def execRefreshWindowBoundary (ch : Nat) (s : State) : Outcome State Fault Refusal :=
  .next <|
    let c := s.chan ch
    let s := s.setChan ch { c with hot := [], captured := [] }
    (c.captured.filter (fun p => p.2.2)).foldl (fun s p =>
      s.openRow { ctx := 0, asid := 0, va := 0 } ch p.1 p.2.1 true) s

end Sys2Proof.Machine
end

