-- ==== Sys2Proof/Machine/Control.lean ====
section
/-! DEFINITION. Control instructions, class 0x0 (R230 to R238). -/

namespace Sys2Proof.Machine

open Host (Outcome)

/-- The target of a relative branch: PC + 12·offset (R209). -/
def State.relTarget (s : State) (o : Operand) : W64 := s.pc + BitVec.ofInt 64 (12 * o.immS)

/-- Go to an address held in an S register: bits 1:0 are taken as zero, bits 63:57 must be zero (R232). -/
def State.jump (s : State) (x : W64) (go : State → State) : State :=
  let t := x &&& ~~~3
  if t.toNat ≥ 2 ^ 57 then s.raiseEvery .outOfRange t else go (s.setPc t)

/-- The active lanes whose condition holds: P xor NOT (R231, R233, R234). -/
def State.condMask (s : State) (o : Operand) (m : BitVec 10) : Mask :=
  s.me.mask &&& (if modBits m 0 1 = 1 then ~~~(s.me.pred o.pnum) else s.me.pred o.pnum)

/-- R231. -/
def braBody (f : Fields) (s : State) : State :=
  let t := s.relTarget f.a
  if modBits f.m 1 1 = 1 then s.setPc t
  else
    let taken := s.condMask f.d f.m
    if taken = s.me.mask then s.setPc t
    else if taken = 0 then s.advance
    else if s.me.depth ≥ 16 then s.raiseCv .resource
    else s.setMe (s.me.diverge (s.relTarget f.b) (s.pc + 12) t taken)

/-- YIELD (R235). -/
def yieldBody (s : State) : State := (s.setMe { s.me with yielding := true }).advance

/-- Lanes exit: they leave the mask and the stack, and in a handler the trap-time and deferred masks (R63, R234, R345). -/
def Caravan.exitLanes (c : Caravan) (m : Mask) : Caravan :=
  let c := c.removeLanes m
  let c := { c with gone := c.gone ||| m }
  if c.trap.taken then
    { c with trap := { c.trap with tmask := c.trap.tmask &&& ~~~m, dmask := c.trap.dmask &&& ~~~m,
                                   laneBytes := c.trap.laneBytes.filter (fun p => !m.getLsbD p.1),
                                   laneVas := c.trap.laneVas.filter (fun p => !m.getLsbD p.1) } }
  else c

/-- Mask word w ∧ x, the other words kept (R237). -/
def maskWord (m : Mask) (w : Nat) (x : W32) : Mask :=
  (m &&& ~~~(0xFFFFFFFF#1024 <<< (32 * w))) ||| (((m >>> (32 * w)).setWidth 32 &&& x).setWidth 1024 <<< (32 * w))

def execNop (f : Fields) (s : State) : Outcome State Fault Refusal :=
  issue (.nop f) f false true (fun s => s.advance) s

def execBra (f : Fields) (s : State) : Outcome State Fault Refusal := issue (.bra f) f false true (braBody f) s

def execBrx (f : Fields) (s : State) : Outcome State Fault Refusal :=
  issue (.brx f) f false true (fun s => s.jump (s.sreg f.a.sreg) id) s

/-- R233: at least one active lane. -/
def execBrany (f : Fields) (s : State) : Outcome State Fault Refusal :=
  issue (.brany f) f false true
    (fun s => if s.condMask f.d f.m ≠ 0 then s.setPc (s.relTarget f.a) else s.advance) s

/-- R233: every active lane. -/
def execBrall (f : Fields) (s : State) : Outcome State Fault Refusal :=
  issue (.brall f) f false true
    (fun s => if s.condMask f.d f.m = s.me.mask then s.setPc (s.relTarget f.a) else s.advance) s

def execCall (f : Fields) (s : State) : Outcome State Fault Refusal :=
  issue (.call f) f false true
    (fun s =>
      let back := s.pc + 12
      match f.a with
      | .s n => s.jump (s.sreg n.toNat) (fun s => s.setS f.d.sreg back)
      | a => (s.setPc (s.relTarget a)).setS f.d.sreg back) s

def execRet (f : Fields) (s : State) : Outcome State Fault Refusal :=
  issue (.ret f) f false true (fun s => s.jump (s.sreg f.a.sreg) id) s

def execReconv (f : Fields) (s : State) : Outcome State Fault Refusal :=
  issue (.reconv f) f false true (fun s => s.setMe (s.me.reconv s.pc)) s

/-- R234; in an access slice it ends the slice and closes its queues (R91). -/
def execExitI (f : Fields) (s : State) : Outcome State Fault Refusal :=
  issue (.exitI f) f false true
    (fun s =>
      if s.cur.slice then s.setMe (s.me.endSlice false)
      else
        let out := if modBits f.m 1 1 = 1 then s.condMask f.a f.m else s.me.mask
        s.advance.setMe (s.advance.me.exitLanes out)) s

def execYield (f : Fields) (s : State) : Outcome State Fault Refusal := issue (.yield f) f false true yieldBody s

/-- R235: n local clocks, an S operand saturated at 2³² − 1; n = 0 acts as YIELD. -/
def execSleep (f : Fields) (s : State) : Outcome State Fault Refusal :=
  issue (.sleep f) f false true
    (fun s =>
      let n := min (s.srcS true f.a).toNat (2 ^ 32 - 1)
      if n = 0 then yieldBody s
      else (s.setMe { s.me with st := .sleeping, sleep := BitVec.ofNat 32 n }).advance) s

def execTrap (f : Fields) (s : State) : Outcome State Fault Refusal :=
  issue (.trap f) f false true (fun s => s.raiseCv .software (BitVec.ofNat 16 f.a.immU)) s

def execBrk (f : Fields) (s : State) : Outcome State Fault Refusal :=
  issue (.brk f) f false true (fun s => s.raiseCv .breakpoint (BitVec.ofNat 16 f.a.immU)) s

def execMskget (f : Fields) (s : State) : Outcome State Fault Refusal :=
  issue (.mskget f) f false true
    (fun s =>
      let x := if f.a.immU = 32 then summaryOf s.me.mask else (s.me.mask >>> (32 * f.a.immU)).setWidth 32
      (s.setS f.d.sreg (x.setWidth 64)).advance) s

def execMskset (f : Fields) (s : State) : Outcome State Fault Refusal :=
  issue (.mskset f) f false true
    (fun s =>
      let m := maskWord s.me.mask f.b.immU ((s.sreg f.a.sreg).setWidth 32)
      if m = 0 then s.raiseCv .illegalConvergence else (s.setMe { s.me with mask := m }).advance) s

end Sys2Proof.Machine
end

