-- ==== Sys2Proof/Machine/System.lean ====
section
/-! DEFINITION. Control registers, REPLAY, TLBINV, EVPOST, LAUNCH, RESUME, KILL, ENERGYQ, class 0xC but for CTXOP (R20, R21,
R58, R107, R113, R224, R225, R329 to R334, R343, R345), with the events that complete them. -/

namespace Sys2Proof.Machine

open Host (Outcome)

/-! ## Control registers (R20, R225) -/

/-- The context registers that CSRW may write: access code RWP (R6). -/
def isRwp (n : Nat) : Bool := n = 0x11 || n = 0x31 || n = 0x32 || n = 0x33 || n = 0x35 || n = 0x36 || n = 0x37

/-- A context register, by number. -/
def Context.reg (x : Context) (n : Nat) : W64 :=
  match n with
  | 0x11 => x.trapbase
  | 0x31 => x.privarea
  | 0x32 => x.winarea
  | 0x33 => x.accthr
  | 0x35 => x.fabacl
  | 0x36 => x.relayq
  | 0x37 => x.commtab
  | _ => 0

/-- The bits of a context register that a write sets; the others read zero (R20, R74, R106, R114). Bits that no
rule assigns are kept as written (log 108). -/
def regMask (n : Nat) : W64 :=
  match n with
  | 0x11 => 0x01FFFFFFFFFFFFFC
  | 0x31 => 0xFFFFFFFFFFC00000
  | 0x32 => 0xFFFFFFFFFE000000
  | 0x33 => 0xFFFF
  | _ => 0xFFFFFFFFFFFFFFFF

def Context.setReg (x : Context) (n : Nat) (v : W64) : Context :=
  let v := v &&& regMask n
  match n with
  | 0x11 => { x with trapbase := v }
  | 0x31 => { x with privarea := v }
  | 0x32 => { x with winarea := v }
  | 0x33 => { x with accthr := v }
  | 0x35 => { x with fabacl := v }
  | 0x36 => { x with relayq := v }
  | 0x37 => { x with commtab := v }
  | _ => x

/-- PINCAP (R380). -/
def pincap (s : State) : W64 := BitVec.ofNat 64 ((List.range 8).foldr (fun d a => (s.die d).pinned + 2 ^ 5 * a) 0)

/-- COREID (R58). -/
def coreId (k : Nat) : Nat := placeOfCore k + 2 ^ 3 * clusterOfCore k + 2 ^ 7 * dieOfCore k

/-- A control register as the issuing caravan reads it (R225). -/
def State.csr (s : State) (n : Nat) : W64 :=
  let k := s.cur.core
  let x := s.myCtx
  match n with
  | 0x00 => Config.cycles k s.clock
  | 0x01 => BitVec.ofNat 64 (coreId k)
  | 0x02 => s.me.ordinal.setWidth 64
  | 0x03 => BitVec.ofNat 64 s.me.width
  | 0x04 => s.me.flags.setWidth 64
  | 0x05 => if x.weak then 1 else 0
  | 0x06 => s.me.progress
  | 0x07 => s.privBase
  | 0x08 => x.winarea + BitVec.ofNat 64 (2 ^ 22 * placeOfCore k)
  | 0x10 => BitVec.ofNat 64 (trapSlotVa s k s.cur.slot)
  | 0x20 => x.energyUse.setWidth 64
  | 0x21 => x.eallot.setWidth 64
  | 0x30 => BitVec.ofNat 64 (s.me.ctx + 2 ^ 8 * x.asid.toNat + (if x.priv then 2 ^ 24 else 0))
  | 0x34 => s.dev.nodeid.setWidth 64
  | 0x38 => pincap s
  | n => x.reg n

def execCsrr (f : Fields) (s : State) : Outcome State Fault Refusal :=
  issue (.csrr f) f false true (fun s =>
    let s := if f.a.csrNum = 0x20 then s.chargeCtx s.me.ctx else s
    (s.setS f.d.sreg (s.csr f.a.csrNum)).advance) s

/-- Every core holds a context register's new value: the register takes it; a write of FABACL discards the endpoint's list,
one of COMMTAB what the endpoints have read (R148, R158, R330). -/
def State.setContextReg (s : State) (c n : Nat) (v : W64) : State :=
  let s := s.setCtx c ((s.ctx c).setReg n v)
  if n = 0x35 then { s with fab := { s.fab with acl := s.fab.acl.filter (fun p => p.1 ≠ c) } }
  else if n = 0x37 then
    { s with fab := { s.fab with comms := s.fab.comms.map (fun p => if p.1 / 64 = c then (p.1, { p.2 with read := false }) else p) } }
  else s

def execCsrw (f : Fields) (s : State) : Outcome State Fault Refusal :=
  issue (.csrw f) f (isRwp f.d.csrNum) true
    (fun s =>
      let n := f.d.csrNum
      let v := s.sreg f.a.sreg
      if n = 0x04 then (s.setMe { s.me with flags := v.setWidth 7 }).advance
      else if n = 0x06 then (s.setMe { s.me with progress := v &&& 0xFFFFFFFFFFFFFFFC }).advance
      else if isRwp n then
        let x := s.myCtx
        let s := s.setCtx s.me.ctx { x with csrws := x.csrws ++ [(n, v, s.cur.core, s.cur.slot)] }
        (s.setMe { s.me with stall := .csrw }).advance
      else s.advance) s

/-- The oldest CSRW of a context completes; a trap entered before uses the old TRAPBASE (R21, R330; log 109). -/
def State.csrwDone (s : State) (c : Nat) : State :=
  let x := s.ctx c
  match x.csrws with
  | [] => s
  | (n, v, k, slot) :: r =>
    let s := (s.setCtx c { x with csrws := r }).setContextReg c n v
    let y := s.cv k slot
    if y.ctx = c && y.stall = .csrw then s.setCv k slot { y with stall := .none } else s

def execContextRegisterWriteComplete (c : Nat) (s : State) : Outcome State Fault Refusal := .next (s.csrwDone c)

/-- A write of 8 bytes to a register of a channel or a port, in context 0 (R119, R145). -/
def execRegisterWrite (va x : BitVec 64) (s : State) : Outcome State Fault Refusal :=
  .next (if va.toNat < 2 ^ 57 && route s 0 none va.toNat = .regs then
    (s.regAccess (User.device 0) va.toNat 8 (.wr (x.setWidth 128))).1 else s)

/-! ## REPLAY (R109, R113) -/

/-- The caravan of a park runs again, unless it has finished. -/
def State.wakePark (s : State) (p : Park) (f : State → State) : State :=
  let c := s.cv p.core p.cslot
  (f (if c.st = .parked then s.setCv p.core p.cslot { c with st := c.runState } else s)).settle p.core p.cslot

/-- The slice of a park runs again, unless it has ended. -/
def State.wakeSlice (s : State) (p : Park) : State :=
  let c := s.cv p.core p.cslot
  if c.slice.st = .parked then s.setCv p.core p.cslot { c with slice := { c.slice with st := .running } } else s

/-- Serve the requests of a parked operation again. -/
def State.replayLanes (s : State) (op : Nat) (rs : List Req) : State :=
  match s.op op with
  | some o => s.serveOp o rs
  | none => s

/-- Release a park, by what was parked. -/
def State.releasePark (s : State) (p : Park) : State :=
  match p.what with
  | .lanes op rs => if p.srckind = 1 then (s.wakeSlice p).replayLanes op rs else s.wakePark p (fun s => s.replayLanes op rs)
  | .reissue => s.wakePark p id
  | .sliceReissue => s.wakeSlice p
  | .copy op => s.unhold op
  | .stream op => s.unhold op
  | .executor n => s.setExecutor n { s.executor n with st := .running }
  | .queue q =>
    let x := s.ctx p.ctx
    s.setCtx p.ctx { x with queues := sset LaunchQ.zero x.queues q { sget LaunchQ.zero x.queues q with waiting := false } }
  | .completion _ => s
  | .trapWrite => s.wakePark p (fun s => s.writeTrapRecord p.core p.cslot)
  | .incoming r => s.newRequest r
  | .marker m wrote => s.newMarker m wrote

/-- REPLAY of a source under a PARKID: true when it was parked and is released. A park of a context in SAVING or SAVED stays
(R26). -/
def State.replayPark (s : State) (c kind id park : Nat) : State × Bool :=
  let st := (s.ctx c).st
  if c > 255 || st = .free || st = .saving || st = .saved then (s, false)
  else
    let here (p : Park) : Bool := p.ctx = c && p.srckind = kind && p.srcid = id && p.id.toNat = park
    match s.parks.find? here with
    | none => (s, false)
    | some p => ({ s with parks := s.parks.filter (fun p => !here p) }.releasePark p, true)

def execReplay (f : Fields) (s : State) : Outcome State Fault Refusal :=
  issue (.replay f) f true true
    (fun s =>
      let x := (s.sreg f.a.sreg).toNat
      let y := (s.sreg f.b.sreg).toNat
      if x / 2 ^ 28 ≠ 0 || y / 2 ^ 32 ≠ 0 then s.raiseCv .resource
      else s.withRelease 5 (fun s =>
        let a := s.cur
        let (s, ok) := s.advance.replayPark (field x 20 8) (field x 16 4) (field x 0 16) y
        s.asAgent a (fun s => s.setS f.d.sreg (if ok then 0 else 1)))) s

/-- A host's write to the replay doorbell, where context 0's list or a built-in entry grants it WR (R113, R148). -/
def State.serveDoorbell (s : State) (node : BitVec 16) (sctx : BitVec 8) (w : BitVec 128) : State :=
  let x := w.toNat
  match s.admits 0 node sctx .wr with
  | (s, false) => s
  | (s, true) =>
    if s.want != .nothing || field x 28 36 ≠ 0 || x / 2 ^ 96 ≠ 0 then s
    else (s.replayPark (field x 0 8) (field x 8 4) (field x 12 16) (field x 64 32)).1

def execReplayDoorbell (node : BitVec 16) (sctx : BitVec 8) (w : BitVec 128) (s : State) : Outcome State Fault Refusal :=
  .next <|
    let (id, s) := s.waitId
    s.serveWaiting (.doorbell id node sctx w) (fun s => s.serveDoorbell node sctx w)

/-! ## TLBINV (R107) -/

/-- A line of an address space in a range of whole pages. -/
def Line.within (l : Line) (asid : BitVec 16) (lo hi : Nat) : Bool := l.asid = asid && lo ≤ 128 * l.tag && 128 * l.tag < hi
def MscLine.within (l : MscLine) (asid : BitVec 16) (lo hi : Nat) : Bool :=
  l.asid = asid && lo ≤ 128 * l.tag && 128 * l.tag < hi

/-- Steps 1 and 3: translations and access counters that touch the range go. -/
def State.dropTranslations (s : State) (asid : BitVec 16) (lo hi : Nat) : State :=
  let meets (a n : Nat) : Bool := a < hi && lo < a + n
  { s with chans := s.chans.map (fun kc => (kc.1, { kc.2 with
      tlb := kc.2.tlb.filter (fun t => !(t.asid = asid && meets (t.vpn * 2 ^ t.size) (2 ^ t.size))),
      acc := kc.2.acc.filter (fun r => !(r.asid = asid && meets (65536 * r.region) 65536)) })) }

/-- Step 2: the range's lines are written back and leave every cache. -/
def State.flushRange (s : State) (asid : BitVec 16) (lo hi : Nat) : State :=
  let s := s.cores.foldl (fun s kc =>
    (kc.2.l1.filter (fun l => l.within asid lo hi)).foldl (fun s l => (s.cleanL1 kc.1 asid l.tag).dropL1 kc.1 asid l.tag) s) s
  let s := (List.range 8).foldl (fun s d => s.flushL2 d (fun l => l.within asid lo hi) true) s
  let s := s.flushExt (fun l => l.within asid lo hi) true
  s.chans.foldl (fun s kc => (kc.2.msc.filter (fun l => l.extent.isNone && l.within asid lo hi)).foldl (fun s l => s.mscOut kc.1 l) s) s

/-- Something of the range is still to be written: to a channel that does not serve now, or at a node that has not acknowledged it. -/
def rangeLeft (s : State) (asid : BitVec 16) (lo hi : Nat) : Bool :=
  !(List.range 8).all (fun d => l2Clean s d (fun l => l.within asid lo hi)) ||
    s.ops.any (fun o => o.kind = OpKind.wback && (s.ctx o.ctx).asid = asid)

def execTlbinv (f : Fields) (s : State) : Outcome State Fault Refusal :=
  issue (.tlbinv f) f true true
    (fun s =>
      let y := (s.sreg f.b.sreg).toNat
      let n := field y 0 32
      if field y 32 16 ≠ 0 then s.raiseCv .resource
      else if n = 0 then (s.acquire 4 none).advance
      else (s.setMe { s.me with stall := .tlbinv (BitVec.ofNat 16 (y / 2 ^ 48)) (s.sreg f.a.sreg &&& 0xFFFFFFFFFFFFF000) n }).advance) s

/-- A TLBINV goes on, and completes once its work is done, with an acquire at DEVICE scope; held records are retried (R112). -/
def execTlbinvComplete (core slot : Nat) (s : State) : Outcome State Fault Refusal :=
  .next <|
    let c := s.cv core slot
    match c.stall with
    | .tlbinv asid va n =>
      let lo := va.toNat
      let hi := min (lo + 4096 * n) (2 ^ 57)
      let s := (s.dropTranslations asid lo hi).flushRange asid lo hi
      if rangeLeft s asid lo hi then s
      else
        let s := s.setCv core slot { s.cv core slot with stall := .none }
        (s.asAgent { core := core, slot := slot, slice := false } (fun s => s.acquire 4 none)).retryQueues c.ctx
    | _ => s

/-! ## EVPOST (R331) -/

def execEvpost (f : Fields) (s : State) : Outcome State Fault Refusal :=
  issue (.evpost f) f false true
    (fun s => s.withRelease 5 (fun s =>
      (s.event [s.me.ctx] (0x4000 + s.cur.core) 0x40 ((s.sreg f.a.sreg).toNat + 2 ^ 64 * (s.sreg f.b.sreg).toNat)).advance)) s

/-! ## LAUNCH (R332) -/

/-- The user that LAUNCH's five accesses are. -/
def State.launchUser (s : State) : User := s.user devOp

/-- Bytes of n pieces of k, upward: their number, or the VA and what the first that does not complete meets. -/
def State.pieces (s : State) (u : User) (pl : Place) (va k : Nat) : Nat → State × (Nat ⊕ Nat × Res)
  | 0 => (s, .inl 0)
  | n + 1 =>
    match s.askChecked u pl (BitVec.ofNat 64 va) k .rd with
    | (s, .ok x) =>
      match s.pieces u pl (va + k) k n with
      | (s, .inl y) => (s, .inl (x + 2 ^ (8 * k) * y))
      | r => r
    | (s, r) => (s, .inr (va, r))

/-- n pieces of k bytes are written, upward: what the first that does not complete meets. -/
def State.putPieces (s : State) (u : User) (pl : Place) (va k : Nat) : Nat → Nat → State × Option (Nat × Res)
  | 0, _ => (s, none)
  | n + 1, x =>
    match s.askChecked u pl (BitVec.ofNat 64 va) k (.wr (BitVec.ofNat 128 (x % 2 ^ (8 * k)))) with
    | (s, .ok _) => s.putPieces u pl (va + k) k n (x / 2 ^ (8 * k))
    | (s, r) => (s, some (va, r))

/-- One of the five accesses fails: a park of the whole LAUNCH, or the cause for every active lane. -/
def State.launchFails (s : State) (akind : Nat) (p : Nat × Res) : State :=
  match p.2 with
  | .park level => s.parkCaravan s.cur.core s.cur.slot s.pc akind [(s.lowLane, p.1, level)] .reissue
  | .cause c => s.failAll c (BitVec.ofNat 64 p.1)
  | _ => s

/-- What a write of LAUNCH would meet at its page. -/
def State.launchCheck (s : State) (va k : Nat) : State × Option (Nat × Res) :=
  match s.checkedAccess s.launchUser (.home true) (BitVec.ofNat 64 va) k k (.wr 0) with
  | (t, .cause c) => (t, some (va, .cause c))
  | (t, .park level) => (t, some (va, .park level))
  | _ => (s, none)

/-- Steps 2 to 4, once the five accesses have passed: slot P, the producer index, the answers. The release at SYSTEM scope has been made
of all that was written before, and slot P is written at that scope. -/
def State.launchNow (s : State) (f : Fields) (qn : Nat) (q : LaunchQ) (idx record : Nat) (relay : Bool) : State :=
  let u := s.launchUser
  let c := s.me.ctx
  match s.putPieces u (.home true) (q.base.toNat + 256 * (idx % 2 ^ q.log2n)) 16 16 record with
  | (s, some p) => s.launchFails 1 p
  | (s, none) => match s.putPieces u (.home true) q.prodVa.toNat 8 1 (idx + 1) with
    | (s, some p) => s.launchFails 1 p
    | (s, none) =>
      let x := s.ctx c
      let q := sget LaunchQ.zero x.queues qn
      let q := { q with prod := idx + 1, relay := if relay then q.relay ++ [idx] else q.relay }
      let s := s.setCtx c { x with queues := sset LaunchQ.zero x.queues qn q }
      let h := BitVec.ofNat 64 (qn + 256 * idx)
      ((s.setS f.d.sreg h).setS (f.d.sreg + 1) (kernelStatus s h)).advance

/-- LAUNCH into queue qn, which is enabled: the three reads, the checks of the two writes, then the writes (R332). -/
def State.launch (s : State) (f : Fields) (qn src : Nat) (relay : Bool) : State :=
  let q := sget LaunchQ.zero s.myCtx.queues qn
  let u := s.launchUser
  match s.pieces u (.home true) q.consVa.toNat 8 1 with
  | (s, .inr p) => s.launchFails 0 p
  | (s, .inl cons) =>
    match s.pieces u (.home true) q.prodVa.toNat 8 1 with
    | (s, .inr p) => s.launchFails 0 p
    | (s, .inl idx) =>
      if (idx + 2 ^ 64 - cons) % 2 ^ 64 ≥ 2 ^ q.log2n then s.block (.launchRing qn) 0
      else match s.pieces u .plain src 16 16 with
        | (s, .inr p) => s.launchFails 0 p
        | (s, .inl record) =>
          match s.launchCheck (q.base.toNat + 256 * (idx % 2 ^ q.log2n)) 16 with
          | (s, some p) => s.launchFails 1 p
          | (s, none) => match s.launchCheck q.prodVa.toNat 8 with
            | (s, some p) => s.launchFails 1 p
            | (s, none) => s.launchNow f qn q idx record relay

def execLaunch (f : Fields) (s : State) : Outcome State Fault Refusal :=
  let relay := modBits f.m 9 1 = 1
  issue (.launch f) f relay true
    (fun s =>
      let qn := (s.sreg f.b.sreg).toNat
      let src := (s.sreg f.a.sreg).toNat
      if qn > 7 || src % 256 ≠ 0 || !(sget LaunchQ.zero s.myCtx.queues qn).on then s.raiseCv .resource
      else s.withRelease 5 (fun s => s.orAway (fun s => s.launch f qn src relay))) s

/-! ## RESUME and KILL (R333, R345) -/

/-- The lanes that Va chooses, whatever the mask. -/
def State.chosen (s : State) (o : Operand) : Mask :=
  maskWhere s.me.width (fun L => s.src32 .int false o L ≠ 0) &&& s.me.exist

/-- RESUME's caravan: READY at x, with the chosen deferred lanes; those that stay off have ended. -/
def Caravan.resumed (c : Caravan) (x : W64) (m : Mask) : Caravan :=
  { c with st := .ready, pc := x, mask := c.trap.tmask ||| (c.trap.dmask &&& m), depth := c.trap.depth,
           stack := c.stack.take (2 * c.trap.depth), gone := c.gone ||| (c.trap.dmask &&& ~~~m), trap := TrapRec.zero }

def execResume (f : Fields) (s : State) : Outcome State Fault Refusal :=
  issue (.resume f) f false true
    (fun s =>
      if !s.me.trap.taken then s.raiseCv .resource
      else s.setMe (s.me.resumed (s.sreg f.a.sreg) (s.chosen f.b))) s

def execKill (f : Fields) (s : State) : Outcome State Fault Refusal :=
  issue (.kill f) f false true
    (fun s =>
      if !s.me.trap.taken then s.raiseCv .resource
      else s.advance.setMe (s.advance.me.exitLanes (s.chosen f.a))) s

/-! ## ENERGYQ (R334) -/

def energyValue (s : State) (sel : Nat) : W64 :=
  if sel < 8 then (s.dev.energy.getD sel 0).setWidth 64
  else if sel = 8 then s.myCtx.energyUse.setWidth 64
  else if sel = 9 then s.myCtx.eallot.setWidth 64
  else BitVec.ofNat 64 s.myCtx.admittedE

def execEnergyq (f : Fields) (s : State) : Outcome State Fault Refusal :=
  issue (.energyq f) f (f.a.immU < 8) true (fun s =>
    let sel := f.a.immU
    let s := if sel < 8 then s.chargeDie sel else if sel = 8 then s.chargeCtx s.me.ctx else s
    (s.setS f.d.sreg (energyValue s sel)).advance) s

end Sys2Proof.Machine
end

