-- ==== Sys2Proof/Machine/FrontEnd.lean ====
section
/-! DEFINITION. The front end and the distributors: launch queues, admission, completion (R37 to R49), placement, stealing,
spawn bins, termination (R50 to R54). -/

namespace Sys2Proof.Machine

open Host (Outcome)

/-! ## Events and parks of the front end -/

/-- A kernel event (R47): handle, TAG, status or code. -/
def State.kernelEvent (s : State) (c typ handle tag code : Nat) : State :=
  s.event [c] 0x0001 typ (handle % 2 ^ 64 + 2 ^ 64 * (tag % 2 ^ 32) + 2 ^ 96 * code)

def State.queue (s : State) (c q : Nat) : LaunchQ := sget LaunchQ.zero (s.ctx c).queues q
def State.setLQ (s : State) (c q : Nat) (x : LaunchQ) : State :=
  let y := s.ctx c
  s.setCtx c { y with queues := sset LaunchQ.zero y.queues q x }

/-- A fault record of the front end, and its park (R44, R110). -/
def State.parkFrontEnd (s : State) (c akind va level : Nat) (what : ParkWhat) : State :=
  let (s, id) := s.postFaults c 5 1 0 akind [(0, va, level)]
  { s with parks := s.parks ++ [{ id := id, srckind := 5, srcid := 1, ctx := c, core := 0, cslot := 0, what := what }] }

/-- A queue waits for the replay of a fault. -/
def State.parkQueue (s : State) (c q akind va level : Nat) : State :=
  (s.setLQ c q { s.queue c q with waiting := true }).parkFrontEnd c akind va level (.queue q)

/-- A queue is disabled, with QUEUE_REJECTED (R38, R40). -/
def State.rejectQueue (s : State) (c q : Nat) : State :=
  (s.setLQ c q { s.queue c q with on := false }).kernelEvent c 0x12 q 0 0

/-- A read of the front end, in pieces. -/
def State.feRead (s : State) (c va k n : Nat) : State × (Nat ⊕ Nat × Res) := s.pieces (User.device c) (.home true) va k n

/-! ## Consumer and producer words (R39, R40) -/

/-- Write the consumer index word, which stays due until it is written. -/
def State.putCons (s : State) (c q : Nat) : State :=
  let x := s.queue c q
  ((s.setLQ c q { x with consDue := true }).whole (fun s =>
    match s.askChecked (User.device c) (.home true) x.consVa 8 (.wr (BitVec.ofNat 128 x.cons)) with
    | (s, .ok _) => s.setLQ c q { s.queue c q with consDue := false }
    | (s, .park level) => s.parkQueue c q 1 x.consVa.toNat level
    | (s, .cause _) => s.rejectQueue c q
    | (s, _) => s)).1

/-- The front end goes on with a queue: it is enabled and waits for no replay. -/
def LaunchQ.open_ (x : LaunchQ) : Bool := x.on && !x.waiting

def execProducerIndexObserved (c q : Nat) (s : State) : Outcome State Fault Refusal :=
  .next <|
    let x := s.queue c q
    if !x.open_ || !ctxRuns s c then s
    else
      (s.whole (fun s => match s.feRead c x.prodVa.toNat 8 1 with
        | (s, .inl p) => s.setLQ c q { s.queue c q with prod := min p (x.cons + 2 ^ x.log2n) }
        | (s, .inr (va, .park level)) => s.parkQueue c q 0 va level
        | (s, .inr (_, .cause _)) => s.rejectQueue c q
        | (s, .inr _) => s)).1

/-! ## The checks of a record (R42 to R44) -/

/-- Reserved bits of a record: first bit and width. -/
def recordReserved : List (Nat × Nat) :=
  [(163, 5), (174, 2), (185, 7), (206, 8), (232, 24), (352, 32), (448, 64), (1536, 512)]

/-- A reserved bit or kind of a role; bits 6:4 and 15:8 are free whatever the kind (R42; log 110). -/
def roleBad (e : Nat) : Bool := field e 2 2 ≠ 0 || field e 7 1 ≠ 0 || e / 2 ^ 16 % 2 ^ 48 ≠ 0 || field e 0 2 = 3

/-- A VA that breaks its alignment or has a bit above 56. -/
def vaBad (va align : Nat) : Bool := va % align ≠ 0 || va ≥ 2 ^ 57

/-- Fields of a record or of a spawn entry that can be out of their range (code 2). -/
def shapeBad (wcode vregs8 nq qdepth : Nat) : Bool :=
  wcode > 5 || vregs8 = 0 || vregs8 > 32 || nq > 8 || (if nq = 0 then qdepth ≠ 0 else qdepth < 2 || qdepth > 16)

/-- Bytes of an L1 partition (R41). -/
def l1Bytes (code : Nat) : Nat := 131072 * 2 ^ code

/-- Core store of a caravan: window and queues, and the CSREQ space. -/
def windowSize (w vregs8 nq qdepth : Nat) : Nat := 4 * w * 8 * vregs8 + 4 * w * nq * qdepth

/-- Code 3. -/
def tooLarge (wcode vregs8 nq qdepth csreq l1 : Nat) : Bool :=
  windowSize (32 * 2 ^ wcode) vregs8 nq qdepth + 256 * csreq + l1Bytes l1 > 3 * 2 ^ 20

/-- The checks that need only the record: the code of the first that fails. -/
def recordCode (r : BitVec 2048) : Option Nat :=
  let x := r.toNat
  let deps := (List.range 4).map (fun j => (LaunchRec.dep r j).1)
  if recordReserved.any (fun p => field x p.1 p.2 ≠ 0) || field x 512 64 ≠ 0 ||
      (List.range 8).any (fun k => roleBad (field x (512 + 64 * k) 64)) then some 1
  else if shapeBad (LaunchRec.wcode r) (LaunchRec.vregs8 r) (LaunchRec.nq r) (LaunchRec.qdepth r) || LaunchRec.cgrp r > 4 ||
      LaunchRec.nspawn r > 16 then some 2
  else if tooLarge (LaunchRec.wcode r) (LaunchRec.vregs8 r) (LaunchRec.nq r) (LaunchRec.qdepth r) (LaunchRec.csreq r)
      (LaunchRec.l1size r) || 2 ^ LaunchRec.cgrp r * (32 * 2 ^ LaunchRec.wcode r) > 131072 then some 3
  else if vaBad (LaunchRec.entry r).toNat 4 || vaBad (LaunchRec.aentry r).toNat 4 ||
      (LaunchRec.incr r && vaBad (LaunchRec.doneva r) 8) || (LaunchRec.nspawn r ≠ 0 && vaBad (LaunchRec.spawntab r) 32) ||
      deps.any (fun va => vaBad va 8) then some 5
  else none

/-- The checks of the spawn entries. -/
def spawnCode (l1 : Nat) (es : List (BitVec 256)) : Option Nat :=
  if es.any (fun e => e.toNat / 2 ^ 160 ≠ 0) then some 1
  else if es.any (fun e => shapeBad (SpawnEntry.wcode e) (SpawnEntry.vregs8 e) (SpawnEntry.nq e) (SpawnEntry.qdepth e)) then some 2
  else if es.any (fun e => tooLarge (SpawnEntry.wcode e) (SpawnEntry.vregs8 e) (SpawnEntry.nq e) (SpawnEntry.qdepth e)
      (SpawnEntry.csreq e) l1) then some 3
  else if (es.map SpawnEntry.entry).eraseDups.length < es.length then some 4
  else if es.any (fun e => vaBad (SpawnEntry.entry e).toNat 4 || vaBad (SpawnEntry.aentry e).toNat 4) then some 5
  else none

/-! ## The head of a queue (R44 to R49) -/

/-- The head leaves its queue; the consumer index moves past it. -/
def State.popHead (s : State) (c q : Nat) : State :=
  let x := s.queue c q
  (s.setLQ c q { x with cons := x.cons + 1, headOk := false, depOk := false, spawn := [], head := 0,
                        relay := x.relay.filter (fun i => i ≠ x.cons) }).putCons c q

/-- The head retires with LAUNCH_REJECTED (R44). -/
def State.rejectHead (s : State) (c q tag code : Nat) : State :=
  let x := s.queue c q
  (s.kernelEvent c 0x11 (q + 256 * x.cons) tag code).popHead c q

/-- What becomes of a read of the head that failed: the queue parks, or the record is rejected with RECORD_FAULT. -/
def State.headFault (s : State) (c q tag : Nat) (p : Nat × Res) : State :=
  match p.2 with
  | .park level => s.parkQueue c q 0 p.1 level
  | .cause _ => s.rejectHead c q tag 6
  | _ => s

/-- Read the used dependence words of a head from pair j on: are they all met? -/
def State.readDeps (s : State) (c : Nat) (r : BitVec 2048) : Nat → State × (Bool ⊕ Nat × Res)
  | 0 => (s, .inl true)
  | n + 1 =>
    let d := LaunchRec.dep r (3 - n)
    if d.1 = 0 then s.readDeps c r n
    else match s.feRead c d.1 8 1 with
      | (s, .inr p) => (s, .inr p)
      | (s, .inl x) =>
        match s.readDeps c r n with
        | (s, .inl b) => (s, .inl (b && d.2 ≤ x))
        | r => r

/-- The dependence words of a queue's head are read (R46, R47). -/
def State.checkDeps (s : State) (c q : Nat) : State :=
  let x := s.queue c q
  if !x.open_ || !x.headOk || x.depOk || (s.ctx c).st != .active then s
  else
    (s.whole (fun s => match s.readDeps c x.head 4 with
      | (s, .inl b) => s.setLQ c q { s.queue c q with depOk := b }
      | (s, .inr p) => s.headFault c q (LaunchRec.tag x.head) p)).1

/-- Entries of a spawn table, from its bytes as a number. -/
def spawnEntries (n x : Nat) : List (BitVec 256) := (List.range n).map (fun e => BitVec.ofNat 256 (x / 2 ^ (256 * e)))

/-- A record and its spawn table have passed every check: its dependence words are read. -/
def State.takeHead (s : State) (c q : Nat) (r : BitVec 2048) (es : List (BitVec 256)) : State :=
  (s.setLQ c q { s.queue c q with headOk := true, head := r, spawn := es, depOk := false }).checkDeps c q

/-- A record that has passed its own checks has its spawn table read. -/
def State.headTable (s : State) (c q : Nat) (r : BitVec 2048) : State :=
  let n := LaunchRec.nspawn r
  match s.feRead c (LaunchRec.spawntab r) 16 (2 * n) with
  | (s, .inr p) => s.headFault c q (LaunchRec.tag r) p
  | (s, .inl t) =>
    let es := spawnEntries n t
    match spawnCode (LaunchRec.l1size r) es with
    | some code => s.rejectHead c q (LaunchRec.tag r) code
    | none => s.takeHead c q r es

/-- The head record is read and checked; one that cannot be read is rejected with TAG 0 (R44; log 110). -/
def execHeadRead (c q : Nat) (s : State) : Outcome State Fault Refusal :=
  .next <|
    let x := s.queue c q
    if !x.open_ || (s.ctx c).st != .active then s
    else if x.consDue then s.putCons c q
    else if x.headOk || x.cons ≥ x.prod then s
    else
      (s.whole (fun s => match s.feRead c (x.base.toNat + 256 * (x.cons % 2 ^ x.log2n)) 16 16 with
        | (s, .inr p) => s.headFault c q 0 p
        | (s, .inl r) =>
          let r := BitVec.ofNat 2048 r
          match recordCode r with
          | some code => s.rejectHead c q (LaunchRec.tag r) code
          | none => if LaunchRec.nspawn r = 0 then s.takeHead c q r [] else s.headTable c q r)).1

def execDependenceReread (c q : Nat) (s : State) : Outcome State Fault Refusal := .next (s.checkDeps c q)

/-- E(c) (R48). -/
def energyCharge (cls : Nat) : Nat := if cls = 0 then 0 else 2 ^ (cls + 5)

/-- Kernels of a queue that are in flight (R45): a retired kernel is no longer held. -/
def inFlight (s : State) (c q : Nat) : Nat := ((s.ctx c).kernels.filter (fun k => k.kid.q = q)).length

/-- The head of a queue passes the admission test (R46, R48). -/
def admissible (s : State) (c q : Nat) : Bool :=
  let x := s.queue c q
  let y := s.ctx c
  y.st = .active && x.open_ && !x.consDue && x.headOk && x.depOk && inFlight s c q < 8 &&
    (y.eallot = 0 || y.energyUse.toNat + y.admittedE + energyCharge (LaunchRec.eclass x.head) ≤ y.eallot.toNat || !y.admittedAny)

/-- The queue whose head is admitted next: highest PRIO, then lowest number (R49). -/
def bestQueue (s : State) (c : Nat) : Option Nat :=
  ((List.range 8).filter (fun q => admissible s c q)).foldl (fun best q => match best with
    | none => some q
    | some b => if LaunchRec.prio (s.queue c q).head > LaunchRec.prio (s.queue c b).head then some q else some b) none

/-- What every die has advertised to every other, where each knows the shares: key 8·destination + source (R50, R51; log 103). -/
def Kernel.advertised (k : Kernel) : List (Nat × Nat) :=
  (List.range 64).foldl (fun a i => sset 0 a i (sget Share.none k.shares (i % 8)).count) []

/-- The kernel that a head becomes, with its shares dealt (R50). -/
def State.newKernel (s : State) (c q : Nat) : Kernel :=
  let x := s.queue c q
  let k : Kernel := { kid := { ctx := c, q := q, idx := x.cons }, st := .admitted, at_ := s.clock, relay := x.relay.contains x.cons,
                      record := x.head, spawn := x.spawn, shares := [], sent := [], recv := [], spawned := [], pending := [],
                      replies := [], adverts := [], wave1 := none }
  let k := { k with shares := (List.range 8).foldl (fun a d => sset Share.none a d { p := d, cursor := 0, limit := k.caravans }) [] }
  { k with adverts := k.advertised }

def execAdmission (c q : Nat) (s : State) : Outcome State Fault Refusal :=
  .next <|
    let s := if (s.ctx c).eallot = 0 then s else s.chargeCtx c
    if bestQueue s c ≠ some q then s
    else
      let k := s.newKernel c q
      let y := s.ctx c
      (s.setCtx c { y with kernels := y.kernels ++ [k], admittedAny := true,
                           admittedE := y.admittedE + energyCharge (LaunchRec.eclass k.record) }).popHead c q

/-! ## Completion (R47) -/

/-- A kernel's writes reach every agent at SYSTEM scope: the cores' dirty lines go to the home L2s, and fabric lines to
their node. -/
def State.releaseAll (s : State) (c : Nat) : State :=
  (s.cores.foldl (fun s kc => s.drainFifo kc.1 none) s).flushFabric c

/-- The front end holds a kernel no longer. -/
def State.dropKernel (s : State) (k : KernelId) : State :=
  let y := s.ctx k.ctx
  s.setCtx k.ctx { y with kernels := y.kernels.filter (fun x => x.kid ≠ k) }

/-- Every queue of the device looks at its dependences again. -/
def State.rereadAll (s : State) : State :=
  s.ctxs.foldl (fun s p => (List.range 8).foldl (fun s q => s.checkDeps p.1 q) s) s

def handleOf (k : KernelId) : Nat := k.q + 256 * k.idx

/-- The kernel's completion add waits for a replay. -/
def completionParked (s : State) (k : KernelId) : Bool := s.parks.any (fun p => p.what = .completion k)

/-- Every operation that a kernel's lanes, slices, copies, collectives and bank commands issued is performed (R47). -/
def kernelPerformed (s : State) (k : KernelId) : Bool :=
  s.ops.all (fun o => o.core = State.devCore || o.kid ≠ k || o.done || o.cls = .fetch ||
    (o.served && match o.cls, o.kind with
      | .ST, .tst _ => false
      | .LD, _ => true
      | .ST, _ => true
      | .sync, _ => true
      | _, _ => false))

/-- A kernel retires, with LAUNCH_DONE where it is asked for. -/
def State.retireKernel (s : State) (k : Kernel) (status : Nat) (ev : Bool) : State :=
  let s := s.dropKernel k.kid
  if ev then s.kernelEvent k.kid.ctx 0x10 (handleOf k.kid) (LaunchRec.tag k.record) status else s

/-- The completion add, and what follows it: the retirement, or the park of the add. -/
def State.completionAdd (s : State) (k : Kernel) : State :=
  let r := k.record
  match s.askChecked (User.device k.kid.ctx) (.home true) (BitVec.ofNat 64 (LaunchRec.doneva r)) 8 (.rmw 0 3 1 none) with
  | (s, .ok _) => (s.retireKernel k 0 (LaunchRec.event r)).rereadAll
  | (s, .park level) => s.parkFrontEnd k.kid.ctx 2 (LaunchRec.doneva r) level (.completion k.kid)
  | (s, .cause _) => s.retireKernel k 1 true
  | (s, _) => s

/-- The completion action of a QUIESCENT kernel whose operations are performed: the release at SYSTEM scope, the add once what that
writes to other nodes is acknowledged, and the event (R47). -/
def State.complete (s : State) (k : Kernel) : State :=
  let c := k.kid.ctx
  let s := s.releaseAll c
  if fabricPending s c then s
  else if !LaunchRec.incr k.record then s.retireKernel k 0 (LaunchRec.event k.record)
  else (s.whole (fun s => s.completionAdd k)).1

/-- Contexts whose completions are performed (R25, R46). -/
def ctxCompletes (s : State) (c : Nat) : Bool :=
  (s.ctx c).st = .active || (s.ctx c).st = .draining || (s.ctx c).st = .saving

def execCompletionAction (k : KernelId) (s : State) : Outcome State Fault Refusal :=
  .next <|
    match s.kernel k with
    | none => s
    | some x =>
      if x.st = .quiescent && kernelPerformed s k && !completionParked s k && ctxCompletes s k.ctx then s.complete x else s

def execControlIntervalBoundary (s : State) : Outcome State Fault Refusal :=
  .next { s with ctxs := s.ctxs.map (fun p => (p.1, { p.2 with energyUse := 0, admittedE := 0, admittedAny := false })) }

/-! ## Placement (R52, R68, R69) -/

/-- What a caravan asks of a core. -/
structure Need where
  w      : Nat
  win    : Nat
  cs     : Nat
  l1     : Nat
  deriving Repr

def needOf (w vregs8 nq qdepth csreq l1 : Nat) : Need :=
  { w := w, win := windowSize w vregs8 nq qdepth, cs := 256 * csreq, l1 := l1 }

def Kernel.need (k : Kernel) : Need :=
  let r := k.record
  needOf k.width (LaunchRec.vregs8 r) (LaunchRec.nq r) (LaunchRec.qdepth r) (LaunchRec.csreq r) (LaunchRec.l1size r)

def Kernel.needSpawned (k : Kernel) (e : BitVec 256) : Need :=
  needOf (32 * 2 ^ SpawnEntry.wcode e) (SpawnEntry.vregs8 e) (SpawnEntry.nq e) (SpawnEntry.qdepth e) (SpawnEntry.csreq e)
    (LaunchRec.l1size k.record)

/-- Slots of a core that hold caravans. -/
def resident (s : State) (k : Nat) : List Nat := (List.range 16).filter (fun n => (s.cv k n).st != .absent)

def alignUp (a n : Nat) : Nat := (n + a - 1) / a * a

/-- Ranges of a core's store that are taken: windows, queues and CSREQ spaces, and party scratch that is left of a caravan that
has gone. -/
def takenRanges (s : State) (k : Nat) : List (Nat × Nat) :=
  (resident s k).map (fun n => let c := s.cv k n; (c.rbase, c.csbase + c.cslen)) ++
    (s.core k).parties.filterMap (fun p =>
      if p.2.st != .free && p.2.scrSize ≠ 0 then some (256 * p.2.scrBase, 256 * (p.2.scrBase + p.2.scrSize)) else none)

/-- The lowest place of the core store with room for n bytes below the L1 partition (log 20). -/
def storePlace (s : State) (k n l1 : Nat) : Option Nat :=
  let t := takenRanges s k
  ((0 :: t.map (fun p => alignUp 256 p.2)).filter (fun b =>
    b + n ≤ 3 * 2 ^ 20 - l1Bytes l1 && t.all (fun p => b + n ≤ p.1 || p.2 ≤ b))).min?

/-- A core meets R52 for a caravan: where its storage goes. -/
def coreTakes (s : State) (k : Nat) (x : Need) : Option Nat :=
  let rs := resident s k
  if rs.length ≥ 16 || rs.foldl (fun a n => a + (s.cv k n).width) 0 + x.w > 16384 then none
  else if !rs.isEmpty && (s.core k).l1size ≠ x.l1 then none
  else if bufferUsed s k 16 + 8 * x.w > 131072 then none
  else storePlace s k (alignUp 256 x.win + x.cs) x.l1

/-- Relay clusters that some context has reserved, as 12·die + cluster (R156). -/
def reservedClusters (s : State) : List Nat := s.ctxs.flatMap (fun p => p.2.relayClusters)

/-- Clusters of a die that may hold a kernel's caravans (R52, R156). -/
def clustersFor (s : State) (k : Kernel) (d : Nat) : List Nat :=
  let all := (List.range 12).map (fun g => 12 * d + g)
  if k.relay then all.filter (fun g => (s.ctx k.kid.ctx).relayClusters.contains g)
  else all.filter (fun g => !(reservedClusters s).contains g)

/-- Cores of cluster g of the device. -/
def coresOfCluster (g : Nat) : List Nat := (List.range 8).map (fun c => 8 * g + c)

/-- The eligible core with the fewest caravans, then the lowest index. -/
def bestCore (s : State) (ks : List Nat) (x : Need) : Option Nat :=
  (ks.filter (fun k => (coreTakes s k x).isSome)).foldl (fun best k => match best with
    | none => some k
    | some b => if (resident s k).length < (resident s b).length then some k else some b) none

/-- What a caravan starts with. -/
structure Start where
  ordinal : BitVec 32
  entry  : W64
  aentry : W64
  nregs  : Nat
  nq     : Nat
  qdepth : Nat
  exist  : Mask
  items  : List W64

def startOf (k : Kernel) (o : Nat) : Start :=
  let r := k.record
  { ordinal := BitVec.ofNat 32 o, entry := LaunchRec.entry r, aentry := LaunchRec.aentry r, nregs := 8 * LaunchRec.vregs8 r,
    nq := LaunchRec.nq r, qdepth := LaunchRec.qdepth r, exist := maskWhere k.width (fun L => o * k.width + L < k.lanes), items := [] }

def startSpawned (e : BitVec 256) (p : Spawned) : Start :=
  { ordinal := p.ordinal, entry := SpawnEntry.entry e, aentry := SpawnEntry.aentry e, nregs := 8 * SpawnEntry.vregs8 e,
    nq := SpawnEntry.nq e, qdepth := SpawnEntry.qdepth e,
    exist := maskWhere (32 * 2 ^ SpawnEntry.wcode e) (fun L => L < p.items.length), items := p.items }

/-- Item i of a spawned caravan in V0 and V1 of lane i (R53). -/
def itemRegs (items : List W64) : List (Nat × W32) :=
  items.zipIdx.foldl (fun (a : List (Nat × W32)) (p : W64 × Nat) =>
    sset 0 (sset 0 a p.2 (p.1.setWidth 32)) (1024 + p.2) ((p.1 >>> 32).setWidth 32)) []

/-- A caravan as placement leaves it (R52, R57, R69, R89, R93). -/
def Start.caravan (t : Start) (k : Kernel) (w base win cs order : Nat) : Caravan :=
  { Caravan.blank with
      st := .ready, ctx := k.kid.ctx, kid := k.kid, relay := k.relay, pc := t.entry, ordinal := t.ordinal, width := w,
      nregs := t.nregs, nq := t.nq, qdepth := t.qdepth, prio := LaunchRec.prio k.record, exist := t.exist, mask := t.exist,
      win := itemRegs t.items, queues := List.replicate t.nq (OpQueue.fresh (t.aentry = 0)),
      slice := if t.aentry = 0 then Slice.zero else { Slice.zero with st := .running, pc := t.aentry },
      order := order, eprio := LaunchRec.prio k.record, rbase := base, csbase := base + alignUp 256 win, cslen := cs }

/-- Place a caravan on a core that takes it; its accesses follow the dependences and the launch (R47). -/
def State.placeOn (s : State) (core : Nat) (k : Kernel) (x : Need) (t : Start) : State :=
  match coreTakes s core x, (List.range 16).find? (fun n => (s.cv core n).st = .absent) with
  | some b, some slot =>
    let s := if (resident s core).isEmpty then s.setCore core { s.core core with l1size := x.l1 } else s
    let s := { s with mem := mzero s.mem (Flat.core core b) x.win }
    let s := { s.setCv core slot (t.caravan k x.w b x.win x.cs s.nextCv) with nextCv := s.nextCv + 1 }
    s.asAgent { core := core, slot := slot, slice := false } (fun s => s.acquire 5 none)
  | _, _ => s

/-- Place the caravans of a group on cores of one cluster: none where one does not fit. -/
def State.placeGroup (s : State) (g : Nat) (k : Kernel) (x : Need) : List Start → Option State
  | [] => some s
  | t :: r => match bestCore s (coresOfCluster g) x with
    | none => none
    | some core => (s.placeOn core k x t).placeGroup g k x r

/-- The cluster whose best core comes first among those that take the whole group. -/
def State.placeBest (s : State) (k : Kernel) (d : Nat) (x : Need) (ts : List Start) : Option State :=
  let rank (g : Nat) : Nat := match bestCore s (coresOfCluster g) x with
    | some c => 1024 * (resident s c).length + c
    | none => 2 ^ 20
  ((clustersFor s k d).filterMap (fun g => (s.placeGroup g k x ts).map (fun t => (rank g, t)))).foldl (fun best p =>
    match best with
    | none => some p
    | some b => if p.1 < b.1 then some p else some b) (none : Option (Nat × State)) |>.map (·.2)

/-- Ordinal i, from 0, of what a share still holds. -/
def Share.nth (t : Share) (i : Nat) : Nat :=
  let j := dealtBelow t.p t.cursor + i
  16 * (8 * (j / 16) + t.p) + j % 16

/-- The first group of a share: its ordinals, and the share without it. -/
def Share.group (t : Share) (cgrp : Nat) : List Nat × Share :=
  let os := (List.range (min (2 ^ cgrp) t.count)).map (fun i => t.nth i)
  (os, { t with cursor := os.getLastD t.cursor + 1 })

/-- A kernel whose first caravan is placed is RUNNING (R46). -/
def Kernel.started (k : Kernel) : Kernel := { k with st := if k.st = .admitted then .running else k.st }

/-- Place a kernel's first spawned caravan on die d. -/
def State.placeSpawned (s : State) (k : Kernel) (d : Nat) : Option State :=
  match k.pending.find? (fun p => p.die = d) with
  | none => none
  | some p =>
    let e := k.spawn.getD p.e 0
    (s.placeBest k d (k.needSpawned e) [startSpawned e p]).map (fun s =>
      s.setKernel { k.started with pending := k.pending.erase p })

/-- Place the first group of a kernel's share of die d. -/
def State.placeShare (s : State) (k : Kernel) (d : Nat) : Option State :=
  let t := sget Share.none k.shares d
  if t.count = 0 then none
  else
    let (os, t) := t.group (LaunchRec.cgrp k.record)
    (s.placeBest k d k.need (os.map (startOf k))).map (fun s =>
      s.setKernel { k.started with shares := sset Share.none k.shares d t })

/-- Kernel a is placed before kernel b: higher PRIO, then earlier admitted (R52). -/
def before (a b : Kernel) : Bool :=
  let pa := LaunchRec.prio a.record
  let pb := LaunchRec.prio b.record
  if pa ≠ pb then pa > pb else a.at_ ≤ b.at_

/-- Put a kernel in its place among ordered ones. -/
def insertKernel (x : Kernel) : List Kernel → List Kernel
  | [] => [x]
  | y :: r => if before x y then x :: y :: r else y :: insertKernel x r

/-- Kernels whose caravans a distributor may place, in its order (R52). -/
def placeable (s : State) : List Kernel :=
  ((s.ctxs.filter (fun p => p.2.st = .active)).flatMap (fun p =>
    p.2.kernels.filter (fun k => k.st = .admitted || k.st = .running))).foldr insertKernel []

/-- The next placement of a die: spawned caravans first; the first that fits. -/
def State.nextPlacement (s : State) (d : Nat) : Option State :=
  let ks := placeable s
  match ks.findSome? (fun k => s.placeSpawned k d) with
  | some t => some t
  | none => ks.findSome? (fun k => s.placeShare k d)

def execPlacement (die : Nat) (s : State) : Outcome State Fault Refusal :=
  .next (if die < 8 then (s.nextPlacement die).getD s else s)

/-! ## Stealing (R51) -/

/-- Bits that a die keeps of r ordinals: the lower half, rounded up to whole groups. -/
def stealKeep (cgrp r : Nat) : Nat := alignUp (2 ^ cgrp) ((r + 1) / 2)

/-- The die that a thief asks: the one that advertises the most caravans left, the lowest of those (R51). -/
def Kernel.victim (k : Kernel) (thief : Nat) : Option Nat :=
  (List.range 8).foldl (fun best d =>
    let n (d : Nat) : Nat := sget 0 k.adverts (8 * thief + d)
    if d = thief || n d = 0 then best
    else match best with
      | none => some d
      | some b => if n d > n b then some d else best) none

/-- A die steals: its share is empty, and no reply to it is on its way (R51). -/
def Kernel.steals (k : Kernel) (thief : Nat) : Bool :=
  (k.st = .admitted || k.st = .running) && (sget Share.none k.shares thief).count = 0 && !k.replies.any (fun p => p.1 = thief)

def execStealRequest (k : KernelId) (thief victim : Nat) (s : State) : Outcome State Fault Refusal :=
  .next <|
    match s.kernel k with
    | none => s
    | some x =>
      let t := sget Share.none x.shares victim
      let g := LaunchRec.cgrp x.record
      let n := stealKeep g t.count
      if thief > 7 || (s.ctx k.ctx).st != .active || !x.steals thief || x.victim thief ≠ some victim || t.count < 2 * 2 ^ g ||
          n ≥ t.count then s
      else
        let cut := t.nth n
        let up : Share := { t with cursor := cut }
        s.setKernel { x with shares := sset Share.none x.shares victim { t with limit := cut },
                             sent := sset 0 x.sent victim (sget 0 x.sent victim + x.lanesOf up),
                             replies := x.replies ++ [(thief, up)] }

def execStealReply (k : KernelId) (thief : Nat) (s : State) : Outcome State Fault Refusal :=
  .next <|
    match s.kernel k with
    | none => s
    | some x => match x.replies.find? (fun p => p.1 = thief) with
      | none => s
      | some (_, t) =>
        s.setKernel { x with shares := sset Share.none x.shares thief t, replies := x.replies.filter (fun p => p.1 ≠ thief),
                             recv := sset 0 x.recv thief (sget 0 x.recv thief + x.lanesOf t) }

/-- A die's count has changed by 16 or reached zero since it advertised it (R51). -/
def advertDue (old new : Nat) : Bool := old ≠ new && (new = 0 || old + 16 ≤ new || new + 16 ≤ old)

/-- An advertisement arrives: it carries the count that its source has. -/
def execRemainingCount (k : KernelId) (src dst count : Nat) (s : State) : Outcome State Fault Refusal :=
  .next <|
    match s.kernel k with
    | none => s
    | some x =>
      if src > 7 || dst > 7 || count ≠ (sget Share.none x.shares src).count ||
          !advertDue (sget 0 x.adverts (8 * dst + src)) count then s
      else s.setKernel { x with adverts := sset 0 x.adverts (8 * dst + src) count }

/-! ## Spawn bins and termination (R53, R54) -/

def execSpawnBinTimeout (die bin : Nat) (s : State) : Outcome State Fault Refusal :=
  .next <|
    let b := sget Bin.zero (s.die die).bins bin
    if b.items.isEmpty || (s.ctx b.ctx).st != .active then s else s.launchBin die bin

/-- A bin that SPAWN has filled while it launched nothing launches when its context is ACTIVE again (R25, R53). -/
def State.launchFull (s : State) (c : Nat) : State :=
  s.dies.foldl (fun s d => d.2.bins.foldl (fun s b =>
    match s.kernel b.2.kid with
    | none => s
    | some k =>
      if b.2.ctx = c && b.2.items.length ≥ 32 * 2 ^ SpawnEntry.wcode (k.spawn.getD b.2.e 0) then s.launchBin d.1 b.1 else s) s) s

/-- Every die's live count is zero. -/
def allQuiet (s : State) (k : Kernel) : Bool := (List.range 8).all (fun d => liveCount s k d = 0)

/-- A zero notice: die 0 makes its first wave. -/
def execZeroNotice (k : KernelId) (die : Nat) (s : State) : Outcome State Fault Refusal :=
  .next <|
    match s.kernel k with
    | none => s
    | some x =>
      if (x.st = .admitted || x.st = .running) && ctxCompletes s k.ctx && die < 8 &&
          liveCount s x die = 0 && allQuiet s x then
        s.setKernel { x with wave1 := some (x.sent, x.recv) }
      else s

def execQuiescenceWave (k : KernelId) (s : State) : Outcome State Fault Refusal :=
  .next <|
    match s.kernel k with
    | none => s
    | some x => match x.wave1 with
      | none => s
      | some w =>
        let sum (l : List (Nat × Nat)) : Nat := l.foldl (fun a p => a + p.2) 0
        if ctxCompletes s k.ctx && allQuiet s x && w = (x.sent, x.recv) && sum x.sent = sum x.recv then
          s.setKernel { x with st := .quiescent, wave1 := none }
        else s.setKernel { x with wave1 := none }

end Sys2Proof.Machine
end

