-- ==== Sys2Proof/Machine/Context.lean ====
section
/-! DEFINITION. Contexts: the descriptor, CTXOP, the state machine and the pre-emption ladder, the save image, context commands
(R16 to R35, R56, R379). -/

namespace Sys2Proof.Machine

open Host (Outcome)

/-! ## The descriptor (R18, R19) -/

namespace Desc
def asid (x : Nat) : BitVec 16 := BitVec.ofNat 16 x
def priv (x : Nat) : Bool := field x 16 1 = 1
def weak (x : Nat) : Bool := field x 17 1 = 1
def relayc (x : Nat) : Nat := field x 18 5
def kbase (x : Nat) : Nat := field x 24 12
def kcount (x : Nat) : Nat := field x 36 13
def eallot (x : Nat) : BitVec 32 := BitVec.ofNat 32 (field x 64 32)
def d1 (x : Nat) : BitVec 16 := BitVec.ofNat 16 (field x 96 16)
def d2 (x : Nat) : BitVec 16 := BitVec.ofNat 16 (field x 112 16)
def word (x i : Nat) : W64 := BitVec.ofNat 64 (field x (64 * i) 64)
def root (x : Nat) : W64 := word x 2
def trapbase (x : Nat) : W64 := word x 3
def faultq (x : Nat) : W64 := word x 4
def evq (x : Nat) : W64 := word x 5
def evnode (x : Nat) : BitVec 16 := BitVec.ofNat 16 (field x 384 16)
def lqtable (x : Nat) : W64 := word x 7
def saveva (x : Nat) : W64 := word x 8
def savelen (x : Nat) : W64 := word x 9
end Desc

/-- Deadlines in local µs: 0 selects 200 and 2,000. -/
def d1Of (d : BitVec 16) : Nat := if d = 0 then 200 else d.toNat
def d2Of (d : BitVec 16) : Nat := if d = 0 then 2000 else d.toNat

/-- R19, with ROOT's reserved bits (R99). -/
def descBad (x : Nat) : Bool :=
  field x 23 1 ≠ 0 || field x 49 15 ≠ 0 || field x 400 48 ≠ 0 || field x 640 384 ≠ 0 || (Desc.root x).toNat ≥ 2 ^ 23 ||
    vaBad (Desc.saveva x).toNat 4096 || vaBad (Desc.lqtable x).toNat 64 || vaBad (Desc.evq x).toNat 64 ||
    vaBad (Desc.faultq x).toNat 64 || vaBad (Desc.trapbase x).toNat 4 || Desc.relayc x = 1 || Desc.relayc x > 24 ||
    Desc.kcount x = 0 || Desc.kbase x + Desc.kcount x > 4096 || d2Of (Desc.d2 x) ≤ d1Of (Desc.d1 x)

/-- What MODIFY reloads (R23). -/
def Context.reload (y : Context) (x : Nat) : Context :=
  { y with weak := Desc.weak x, trapbase := Desc.trapbase x, eallot := Desc.eallot x, d1 := Desc.d1 x, d2 := Desc.d2 x,
           evnode := Desc.evnode x, evqVa := Desc.evq x }

/-- Every other field but ASID, PRIV, KBASE and KCOUNT. -/
def Context.reloadAll (y : Context) (x : Nat) : Context :=
  { y.reload x with relayc := Desc.relayc x, root := Desc.root x, faultqVa := Desc.faultq x, lqtable := Desc.lqtable x,
                    saveva := Desc.saveva x, savelen := Desc.savelen x }

/-- The context that CREATE makes. -/
def Context.ofDesc (x : Nat) : Context :=
  { Context.free.reloadAll x with st := .created, asid := Desc.asid x, priv := Desc.priv x, kbase := Desc.kbase x,
                                  kcount := Desc.kcount x }

/-- The four fields that no MODIFY changes agree. -/
def Context.sameBase (y : Context) (x : Nat) : Bool :=
  y.asid = Desc.asid x && y.priv = Desc.priv x && y.kbase = Desc.kbase x && y.kcount = Desc.kcount x

/-- Every field that MODIFY does not reload agrees. -/
def Context.sameRest (y : Context) (x : Nat) : Bool :=
  y.sameBase x && y.relayc = Desc.relayc x && y.root = Desc.root x && y.faultqVa = Desc.faultq x && y.lqtable = Desc.lqtable x &&
    y.saveva = Desc.saveva x && y.savelen = Desc.savelen x

/-- The device as the user of a context's memory, for the caravan that issues CTXOP or for a host's command. -/
def User.by_ (who : User) (c : Nat) : User := { who with ctx := c, core := none }

/-- The device reads a descriptor in the issuer's address space. -/
def State.readDesc (s : State) (u : User) (va : Nat) : State × Option Nat :=
  if vaBad va 128 then (s, none)
  else match s.pieces (u.by_ u.ctx) (.home true) va 16 8 with
    | (s, .inl x) => (s, some x)
    | (s, .inr _) => (s, none)

/-- No other context holds the ASID or one of the key slots (R17). -/
def baseFree (s : State) (x : Nat) : Bool :=
  !s.ctxs.any (fun p => p.2.st != .free && (p.2.asid = Desc.asid x ||
    (p.2.kbase < Desc.kbase x + Desc.kcount x && Desc.kbase x < p.2.kbase + p.2.kcount)))

/-! ## Status (R22, R33) -/

def CtxState.code : CtxState → Nat
  | .free => 0
  | .created => 1
  | .active => 2
  | .draining => 3
  | .saving => 4
  | .saved => 5
  | .resetting => 6
  | .dead => 7

inductive CtxStatus where
  | ok | accepted | badState | badId | badDescriptor | noResource | busy | denied
  deriving DecidableEq, Repr

def CtxStatus.code : CtxStatus → Nat
  | .ok => 0
  | .accepted => 1
  | .badState => 2
  | .badId => 3
  | .badDescriptor => 4
  | .noResource => 5
  | .busy => 6
  | .denied => 7

inductive CtxOp where
  | create | activate | preempt | restore | reset | destroy | query | modify
  deriving DecidableEq, Repr

def State.setSt (s : State) (c : Nat) (st : CtxState) : State := s.setCtx c { s.ctx c with st := st }

/-! ## Headers, relay clusters, launch queues (R38, R111, R156, R162) -/

/-- A header that obeys R8, with the VA of an aligned ring (R96; log 18). -/
def headerOk (fault : Bool) (x : Nat) : Bool :=
  field x 256 256 = 0 && field x (if fault then 197 else 196) (if fault then 27 else 28) = 0 && field x 192 4 ≠ 0 &&
    !vaBad (field x 128 64) (if fault then 64 else 32)

/-- n pieces of 16 bytes at a node, as the device asks for them: none where one of them fails. -/
def State.nodeReads (s : State) (u : User) (node : BitVec 16) (va : Nat) : Nat → State × Option Nat
  | 0 => (s, some 0)
  | n + 1 =>
    match s.askNode node u.ctx (BitVec.ofNat 64 va) (askReq u.asker va 16 false .rd) with
    | (s, .ok x) => match s.nodeReads u node (va + 16) n with
      | (s, some y) => (s, some (x + 2 ^ 128 * y))
      | r => r
    | (s, _) => (s, none)

/-- The device reads a queue's header, here or at another node (R111, R162). -/
def State.readHeader (s : State) (w : User) (c : Nat) (fault : Bool) : State × Option Nat :=
  let u := w.by_ c
  if queueAway s c fault then s.nodeReads u (s.ctx c).evnode ((s.ctx c).queueVa fault) 4
  else match s.pieces u (.home true) ((s.ctx c).queueVa fault) 16 4 with
    | (s, .inl x) => (s, some x)
    | (s, .inr _) => (s, none)

/-- A queue opens as its header says, with what it holds already. -/
def RecQueue.opened (q : RecQueue) (fault : Bool) (x : Nat) : RecQueue :=
  { q with on := true, base := BitVec.ofNat 64 (field x 128 64), log2n := field x 192 4, notify := fault && field x 196 1 = 1,
           prod := BitVec.ofNat 64 x, cons := BitVec.ofNat 64 (field x 64 64), ovf := BitVec.ofNat 32 (field x 224 32),
           failing := false }

/-- Both headers, if they are valid. -/
def State.readHeaders (s : State) (w : User) (c : Nat) : State × Option (Nat × Nat) :=
  match s.readHeader w c true with
  | (s, none) => (s, none)
  | (s, some x) =>
    match s.readHeader w c false with
    | (s, none) => (s, none)
    | (s, some y) => (s, if headerOk true x && headerOk false y then some (x, y) else none)

def State.openQueues (s : State) (c : Nat) (h : Nat × Nat) : State :=
  let y := s.ctx c
  s.setCtx c { y with faultq := y.faultq.opened true h.1, eventq := y.eventq.opened false h.2 }

/-- What context 0 was posted before its ACTIVATE (R379): the records held are posted, the others are counted in OVF. -/
def State.postEarly (s : State) : State :=
  let q := (s.ctx 0).eventq
  let n := s.dev.lost
  let posts := s.dev.early.map (fun r => ({ ctx := 0, fault := false, bits := r } : Post))
  let s := { s with dev := { s.dev with early := [], lost := 0 }, posts := posts ++ s.posts }
  if n = 0 then s
  else
    let ovf := q.ovf + BitVec.ofNat 32 n
    (s.setQueue 0 false { q with ovf := ovf, ovfDue := true }).writeOvf 0 false

/-- Clusters in the order in which they are reserved: the highest number first, and of each number die 7 first. -/
def clusterOrder : List Nat := (List.range 12).reverse.flatMap (fun g => (List.range 8).reverse.map (fun d => 12 * d + g))

/-- A cluster that no context has reserved and that holds no caravan. -/
def clusterFree (s : State) (g : Nat) : Bool :=
  !(reservedClusters s).contains g && (coresOfCluster g).all (fun k => (resident s k).isEmpty)

/-- The clusters that a context would reserve, if there are enough. -/
def clustersOf (s : State) (c : Nat) : Option (List Nat) :=
  let n := if (s.ctx c).relayc = 0 then 2 else (s.ctx c).relayc
  let l := (clusterOrder.filter (fun g => clusterFree s g)).take n
  if l.length = n then some l else none

/-- A queue descriptor that R38 rejects. -/
def queueBad (x : Nat) : Bool :=
  field x 1 3 ≠ 0 || field x 8 56 ≠ 0 || field x 320 192 ≠ 0 || field x 4 4 = 0 || vaBad (field x 64 64) 256 ||
    vaBad (field x 128 64) 8 || vaBad (field x 192 64) 8 || vaBad (field x 256 64) 128

/-- The front end takes queue q from its descriptor (R37, R38); a disabled queue's kernels keep the place of their records. -/
def State.takeQueue (s : State) (w : User) (c q : Nat) : State :=
  let old := s.queue c q
  let off : LaunchQ := { LaunchQ.zero with relay := old.relay, ksave := old.ksave }
  let u := w.by_ c
  match s.pieces u (.home true) ((s.ctx c).lqtable.toNat + 64 * q) 16 4 with
  | (s, .inr _) => (s.setLQ c q off).rejectQueue c q
  | (s, .inl x) =>
    if field x 0 1 = 0 then s.setLQ c q off
    else if queueBad x then (s.setLQ c q off).rejectQueue c q
    else match s.pieces u (.home true) (field x 192 64) 8 1 with
      | (s, .inr _) => (s.setLQ c q off).rejectQueue c q
      | (s, .inl n) =>
        s.setLQ c q { off with on := true, base := BitVec.ofNat 64 (field x 64 64), log2n := field x 4 4,
                               prodVa := BitVec.ofNat 64 (field x 128 64), consVa := BitVec.ofNat 64 (field x 192 64),
                               ksave := BitVec.ofNat 64 (field x 256 64), cons := n, prod := n }

def State.takeQueues (s : State) (w : User) (c : Nat) : State := (List.range 8).foldl (fun s q => s.takeQueue w c q) s

/-! ## Taking a context's units off the cores (R26, R27) -/

/-- Tiles, names and parties of a context on a core. -/
def tilesOf (s : State) (k c : Nat) : List (Nat × Tile) := (s.core k).tiles.filter (fun t => t.2.defined && t.2.ctx = c)
def partiesOf (s : State) (k c : Nat) : List (Nat × Party) := (s.core k).parties.filter (fun p => p.2.st != .free && p.2.ctx = c)
def znamesOf (s : State) (k c : Nat) : List ZName :=
  (s.core k).znames.filter (fun z => (s.party z.pcore z.pent).st != .free && (s.party z.pcore z.pent).ctx = c)

/-- Its private lines on a core (R74). -/
def isPrivate (s : State) (c : Nat) (l : Line) : Bool := l.priv && l.asid = (s.ctx c).asid

/-- Private lines are written back, as at SAVING (R74). -/
def State.writePrivate (s : State) (c : Nat) : State :=
  s.cores.foldl (fun s kc => s.cleanL1All kc.1 (fun l => isPrivate s c l)) s

/-- A park that belongs to a unit of the context, rather than to a request of another node. -/
def Park.ofUnit (p : Park) (c : Nat) : Bool :=
  p.ctx = c && match p.what with
    | .incoming _ => false
    | .marker _ _ => false
    | _ => true

/-- Nothing of a context is resident any more. -/
def State.strip (s : State) (c : Nat) : State :=
  let gone := s.cvs.filter (fun p => p.2.ctx = c)
  let s := { s with cores := s.cores.map (fun (kc : Nat × Core) =>
    (kc.1, { kc.2 with
      l1 := kc.2.l1.filter (fun l => !isPrivate s c l),
      tiles := kc.2.tiles.filter (fun t => !(t.2.defined && t.2.ctx = c)),
      parties := kc.2.parties.filter (fun p => !(p.2.st != PartyState.free && p.2.ctx = c)),
      znames := kc.2.znames.filter (fun z => !(znamesOf s kc.1 c).contains z),
      fifo := kc.2.fifo.filter (fun e => match e with
        | .marker n => !gone.any (fun p => p.1 = 16 * kc.1 + n)
        | _ => true),
      accq := kc.2.accq.filter (fun w => !gone.any (fun p => p.1 = 16 * kc.1 + w.slot)) })) }
  let s := s.dropAsked (fun n => gone.any (fun p => n = asker (p.1 / 16) (p.1 % 16)))
  { s with cvs := s.cvs.filter (fun p => p.2.ctx ≠ c), ops := s.ops.filter (fun o => o.ctx ≠ c || o.core = State.devCore),
           parks := s.parks.filter (fun p => !p.ofUnit c),
           dies := s.dies.map (fun (d : Nat × Die) => (d.1, { d.2 with bins := d.2.bins.filter (fun b => b.2.ctx ≠ c) })) }

/-- Enter RESETTING (R27): every unit is killed, its channels are lost, its kernels, queues and communicators go. -/
def State.enterResetting (s : State) (c : Nat) (why : ResetCause) : State :=
  let s := (s.strip c).loseChannels c
  let y := s.ctx c
  let s := s.setCtx c { y with st := .resetting, cause := why, timers := false, restoring := false, csrws := [], queues := [],
                               kernels := [], image := SaveImage.zero }
  let asid := y.asid
  { s with fab := { s.fab with comms := s.fab.comms.filter (fun p => p.1 / 64 ≠ c) },
           parks := s.parks.filter (fun p => p.ctx ≠ c),
           ops := s.ops.filter (fun o => !(o.ctx = c && (match o.kind with
             | .gang _ => true
             | .dev _ r _ => r.act = .rd
             | _ => false))),
           cores := s.cores.map (fun kc => (kc.1, { kc.2 with touched := kc.2.touched.filter (fun t => t.1 ≠ asid) })) }

/-- Enter SAVING (R26): channels are lost and the front end pauses the context's communicators. -/
def State.enterSaving (s : State) (c : Nat) : State := ((s.setSt c .saving).loseChannels c).pauseComms c

/-! ## The save image (R29 to R31) -/

/-- State codes of R30; a caravan that waits for its exit is BLOCKED (R65, R77). -/
def CvState.code : CvState → Nat
  | .blocked => 1
  | .finishing => 1
  | .parked => 2
  | .trapped => 3
  | .sleeping => 4
  | _ => 0

/-- Pending tokens of a caravan. -/
def tokensOf (s : State) (k slot : Nat) : Nat :=
  (List.range 8).foldl (fun a t => if s.tokenPending k slot false t then a + 2 ^ t else a) 0

def countersOf (s : State) (k slot : Nat) : Nat :=
  [Cls.LD, Cls.ST, Cls.CP, Cls.MX, Cls.CL, Cls.BX].foldr (fun c a => s.counter k slot false c + 2 ^ 6 * a) 0

/-- n pieces of w bits as a number. -/
def packBits (w n : Nat) (f : Nat → Nat) : Nat := (List.range n).foldr (fun i a => f i % 2 ^ w + 2 ^ w * a) 0

/-- A CARAVAN section as a number (R30, R74). -/
def caravanImage (s : State) (key : Nat) (c : Caravan) : Nat :=
  let k := key / 16
  let slot := key % 16
  let party := match c.party with
    | some (pk, pe) => (s.party pk pe).key.toNat
    | none => 0
  (c.pc.toNat % 2 ^ 57 + 2 ^ 60 * slot) + at_ 0x8 c.ordinal.toNat + at_ 0xC (c.width + 2 ^ 16 * c.nregs) + at_ 0x10 c.flags.toNat +
    at_ 0x14 (tokensOf s k slot + 2 ^ 8 * c.st.code + 2 ^ 11 * c.depth) + at_ 0x18 c.progress.toNat + at_ 0x20 (countersOf s k slot) +
    at_ 0x28 party + at_ 0x30 (packBits 8 16 (fun i => c.staged.getD i 0)) + at_ 0x40 (maskBytes c.mask) + at_ 0xC4 c.staged.length +
    at_ 0x100 (stackImage c.stack) + at_ 0x1300 (packBits 64 64 (fun i => (sget 0 c.sregs i).toNat)) +
    at_ 0x1500 (packBits 1024 48 (fun i => (sget (0 : Mask) c.preds i).toNat)) + at_ 0x2D00 c.trap.image +
    at_ 0x4000 (packBits 32 (c.width * c.nregs) (fun i => (sget 0 c.win (1024 * (i / c.width) + i % c.width)).toNat))

/-- Bytes of a CARAVAN section. -/
def caravanBytes (c : Caravan) : Nat := 0x4000 + 4 * c.width * c.nregs

/-- Items one after another, each its bytes and its value as a number: how many bytes, and their number. -/
def catBytes (l : List (Nat × Nat)) : Nat × Nat := l.foldr (fun p a => (p.1 + a.1, p.2 + 2 ^ (8 * p.1) * a.2)) (0, 0)

/-- A TILES section: a core's entries, in the order of their numbers, then the bytes of every tile that is not EMPTY (R29, R85). -/
def tileItems (s : State) (k : Nat) (ts : List (Nat × Tile)) : List (Nat × Nat) :=
  ts.map (fun t => (16, t.2.word)) ++
    (ts.filter (fun t => t.2.st != .empty)).map (fun t => (t.2.bytes, s.coreLoad k (256 * t.2.base) t.2.bytes))

/-- A PARTIES section: a core's entries, in the order of their numbers, then the scratch of each (R29, R75). -/
def partyItems (s : State) (k : Nat) (ps : List (Nat × Party)) : List (Nat × Nat) :=
  ps.map (fun p => (16, partyWord p.2)) ++
    ps.map (fun p => (256 * p.2.scrSize, s.coreLoad k (256 * p.2.scrBase) (256 * p.2.scrSize)))

/-- The binding of granule i of a name (R289). -/
def ZName.binding (z : ZName) (i : Nat) : Nat :=
  z.z + 2 ^ 8 * i + 2 ^ 13 * placeOfCore z.pcore + 2 ^ 16 * z.pent + 2 ^ 64 * z.hdr.toNat

/-- A GRANULES section: the bindings of a core's granules, name by name, then the 16 KiB of each (R29, R289). -/
def granItems (s : State) (k : Nat) (zs : List ZName) : List (Nat × Nat) :=
  zs.flatMap (fun z => (List.range z.grans.length).map (fun i => (16, z.binding i))) ++
    zs.flatMap (fun z => z.grans.map (fun g => (16384, mload s.mem (Flat.accum k (16384 * g)) 16384)))

/-- A section of an image: type, core, length, and its bytes as a number where the spec gives their layout. -/
structure Section where
  typ  : Nat
  core : Nat
  len  : Nat
  body : Option Nat
  deriving Repr

/-- A section of laid-out items, if there are any. -/
def itemSection (typ core : Nat) (l : List (Nat × Nat)) : List Section :=
  if l.isEmpty then [] else [{ typ := typ, core := core, len := (catBytes l).1, body := some (catBytes l).2 }]

/-- A context's caravans, with each written register of the operand buffer in its window (R26). -/
def cvsOf (s : State) (c : Nat) : List (Nat × Caravan) :=
  (s.cvs.filter (fun p => p.2.ctx = c && p.2.st != .absent)).map (fun p => (p.1, p.2.flushStaged))

/-- The sections of a context's image: its caravans first (log 17). -/
def sectionsOf (s : State) (c : Nat) : List Section :=
  let vs := cvsOf s c
  let other (t k n : Nat) : List Section := if n = 0 then [] else [{ typ := t, core := k, len := Config.sectionBytes t n, body := none }]
  let copies := (s.ops.filter (fun o => o.ctx = c && o.cls = .CP)).length
  let items := s.dies.foldl (fun a d => a + (d.2.bins.filter (fun b => b.2.ctx = c)).foldl (fun a b => a + b.2.items.length) 0) 0
  vs.map (fun p => { typ := 1, core := p.1 / 16, len := caravanBytes p.2, body := some (caravanImage s p.1 p.2) }) ++
    (vs.filter (fun p => p.2.slice.st != .none)).flatMap (fun p => other 2 (p.1 / 16) 1) ++
    s.cores.flatMap (fun kc => itemSection 3 kc.1 (tileItems s kc.1 (tilesOf s kc.1 c))) ++
    vs.flatMap (fun p => other 4 (p.1 / 16) p.2.nq) ++
    s.cores.flatMap (fun kc => itemSection 5 kc.1 (granItems s kc.1 (znamesOf s kc.1 c))) ++
    s.cores.flatMap (fun kc => itemSection 6 kc.1 (partyItems s kc.1 (partiesOf s kc.1 c))) ++ other 7 0x3FF copies ++
    other 8 0x3FF (s.parks.filter (fun p => p.ofUnit c)).length ++ other 9 0x3FF items ++
    (s.fab.comms.filter (fun p => p.1 / 64 = c)).flatMap (fun p => other 10 0x3FF (1 + p.2.insts.length))

/-- Offsets of sections that follow offset o, and the end of the last. -/
def layOut (o : Nat) : List Section → List (Section × Nat) × Nat
  | [] => ([], o)
  | x :: r =>
    let a := alignUp 256 o
    let (l, e) := layOut (a + x.len) r
    ((x, a) :: l, e)

def imageLayout (s : State) (c : Nat) : List (Section × Nat) × Nat :=
  let l := sectionsOf s c
  layOut (64 + 16 * l.length) l

/-- Bytes that a save would need now (R31). -/
def saveSize (s : State) (c : Nat) : Nat := (imageLayout s c).2

/-- Header and section descriptors as a number. -/
def imageHead (s : State) (c : Nat) : Nat :=
  let (l, n) := imageLayout s c
  0x56414D53 + 2 ^ 32 * 1 + 2 ^ 40 * c + 2 ^ 48 * (s.ctx c).asid.toNat + 2 ^ 80 * (cvsOf s c).length + 2 ^ 96 * l.length +
    2 ^ 128 * n + 2 ^ 192 * Config.deviceId.toNat +
    2 ^ 512 * packBits 128 l.length (fun i => match l[i]? with
      | some (x, o) => x.typ + 2 ^ 8 * x.core + 2 ^ 32 * x.len + 2 ^ 64 * o
      | none => 0)

/-- Write free values over a section whose layout the manual does not give. -/
def State.freeBytes (s : State) (c va : Nat) : Nat → State × Bool
  | 0 => (s, true)
  | n + 1 =>
    let (w, s) := s.fresh
    match s.devWrite c va 8 w.toNat with
    | (s, true) => s.freeBytes c (va + 8) n
    | r => r

/-- Write the sections in order. -/
def State.writeSections (s : State) (c base : Nat) : List (Section × Nat) → State × Bool
  | [] => (s, true)
  | (x, o) :: r =>
    match (match x.body with
      | some image => s.devWrites c (base + o) 16 (x.len / 16) image
      | none => s.freeBytes c (base + o) ((x.len + 7) / 8)) with
    | (s, true) => s.writeSections c base r
    | f => f

/-- Write the image at SAVEVA; false when a write fails or SAVELEN is exceeded. -/
def State.writeImage (s : State) (c : Nat) : State × Bool :=
  let y := s.ctx c
  let (l, n) := imageLayout s c
  if n > y.savelen.toNat then (s, false)
  else
    match s.devWrites c y.saveva.toNat 16 (4 + l.length) (imageHead s c) with
    | (s, true) => s.writeSections c y.saveva.toNat l
    | f => f

/-- A kernel save record (R56). -/
def kernelRecord (k : Kernel) : Nat :=
  handleOf k.kid + 2 ^ 64 * (match k.st with
    | .admitted => 1
    | .running => 2
    | .quiescent => 3
    | .retired => 4) +
    at_ 16 (packBits 96 8 (fun d =>
      let t := sget Share.none k.shares d
      t.p + 2 ^ 32 * t.cursor + 2 ^ 64 * t.limit))

/-- Kernels of queue q that are in flight, in order. -/
def kernelsOf (s : State) (c q : Nat) : List Kernel := (s.ctx c).kernels.filter (fun k => k.kid.q = q)

/-- The kernel save area of queue q: eight records, unused ones zero; of a disabled queue too, where it has kernels. -/
def State.writeKernels (s : State) (c q : Nat) : State × Bool :=
  let x := s.queue c q
  let ks := kernelsOf s c q
  if !x.on && ks.isEmpty then (s, true)
  else
    s.devWrites c x.ksave.toNat 16 64 (packBits 1024 8 (fun i => match ks[i]? with
      | some k => kernelRecord k
      | none => 0))

def State.writeAllKernels (s : State) (c : Nat) : State × Bool :=
  (List.range 8).foldl (fun (a : State × Bool) q => if a.2 then a.1.writeKernels c q else a) (s, true)

/-- Cells of memory in n bytes from a on. -/
def mrange (m : Memory) (a n : Nat) : Memory := m.filter (fun p => a ≤ p.1 && p.1 < a + n)

/-- The device's record of what it saves. -/
def takeImage (s : State) (c : Nat) : SaveImage :=
  let vs := cvsOf s c
  let store := vs.flatMap (fun p => mrange s.mem (Flat.core (p.1 / 16) p.2.rbase) (p.2.csbase + p.2.cslen - p.2.rbase))
  let scratch := s.cores.flatMap (fun kc => (partiesOf s kc.1 c).flatMap (fun p =>
    mrange s.mem (Flat.core kc.1 (256 * p.2.scrBase)) (256 * p.2.scrSize)))
  let grans := s.cores.flatMap (fun kc => (znamesOf s kc.1 c).flatMap (fun z => z.grans.flatMap (fun g =>
    mrange s.mem (Flat.accum kc.1 (16384 * g)) 16384)))
  let put (m cells : Memory) : Memory := cells.foldl (fun m p => mset m p.1 p.2) m
  { caravans := vs, ops := s.ops.filter (fun o => o.ctx = c && o.core ≠ State.devCore && o.cls != .fetch), parks := s.parks.filter (fun p => p.ofUnit c),
    tiles := (s.cores.map (fun kc => (kc.1, tilesOf s kc.1 c))).filter (fun p => !p.2.isEmpty),
    znames := (s.cores.map (fun kc => (kc.1, znamesOf s kc.1 c))).filter (fun p => !p.2.isEmpty),
    parties := (s.cores.map (fun kc => (kc.1, partiesOf s kc.1 c))).filter (fun p => !p.2.isEmpty),
    l1sizes := ((vs.map (fun p => p.1 / 16)).eraseDups).map (fun k => (k, (s.core k).l1size)),
    bytes := put (put (put [] store) scratch) grans,
    bins := (s.dies.map (fun d => (d.1, d.2.bins.filter (fun b => b.2.ctx = c)))).filter (fun p => !p.2.isEmpty),
    length := saveSize s c }

/-! ## SAVING ends (R23, R26) -/

/-- An operation of a context that is being saved may be recorded as it stands: a copy at a boundary of 256 bytes; a matrix instruction
that has stopped, or one that always completes and cannot begin (R26, R303, R304). -/
def opAtRest (s : State) (o : Op) : Bool :=
  o.done || (o.todo.isEmpty && o.remote.isEmpty && (!o.held.isEmpty || match o.kind with
    | .copy c => c.atUnit s o
    | .matrix m => m.stopped || (!m.kind.stops && (if m.started then !m.rounds.isEmpty else !mxMayStart s o))
    | .coll _ _ _ _ => true
    | _ => false))

/-- A caravan at an instruction boundary: no release, joined access or invalidation of its own is on the way. -/
def Caravan.atBoundary (c : Caravan) : Bool := c.stall = .none || c.stall = .csrw

/-- The pause of an endpoint has come to its end for this context: the query is decided, and the relay caravans that it concerns have
acknowledged, but for those that a fault holds (R26, R160). -/
def pauseAtRest (s : State) (x : Comm) : Bool :=
  (x.st != .queried || !x.own) &&
    (x.st != .pausing || x.unacked.all (fun m =>
      let v := (s.cv m.1 m.2).st
      v = .parked || v = .finishing || v = .absent))

/-- Everything that R26 awaits has ended. -/
def saveReady (s : State) (c : Nat) : Bool :=
  s.ops.all (fun o => o.ctx ≠ c || o.cls = .fetch || (match o.kind.asked with
    | some (_, r, _) => r.lane = 0
    | none => o.core = State.devCore || opAtRest s o)) &&
    s.cvs.all (fun p => p.2.ctx ≠ c || p.2.atBoundary) &&
    s.fab.comms.all (fun p => p.1 / 64 ≠ c || pauseAtRest s p.2) &&
    (s.ctx c).queues.all (fun q => !q.2.on || !q.2.consDue || q.2.waiting) &&
    (s.ctx c).kernels.all (fun k => k.st != .quiescent)

/-- Steals on their way arrive, and the CSRWs of the context complete. -/
def State.settleContext (s : State) (c : Nat) : State :=
  let s := (s.ctx c).csrws.foldl (fun s _ => s.csrwDone c) s
  let y := s.ctx c
  s.setCtx c { y with kernels := y.kernels.map (fun k =>
    { k with shares := k.replies.foldl (fun a p => sset Share.none a p.1 p.2) k.shares, replies := [] }) }

/-- The attempt to save: the state after every write, and whether all of them were made. -/
def State.trySave (s : State) (c : Nat) : State × Bool :=
  match s.writeImage c with
  | (s, true) => s.writeAllKernels c
  | f => f

/-- The image is written: SAVED and PREEMPT_DONE; a failed write leads to RESETTING. -/
def State.save (s : State) (c : Nat) : State :=
  let s := (s.settleContext c).writePrivate c
  let image := takeImage s c
  (s.whole (fun s => match s.trySave c with
    | (s, false) => if s.want = .nothing then s.enterResetting c .saveFault else s
    | (s, true) =>
      let s := s.strip c
      let y := s.ctx c
      (s.setCtx c { y with st := .saved, relayClusters := [], timers := false, image := image }).ctxEvent [c] 0x0001 0x0001
        image.length c)).1

def execSaved (c : Nat) (s : State) : Outcome State Fault Refusal :=
  .next (if (s.ctx c).st = .saving && saveReady s c then s.save c else s)

def execSaveFault (c : Nat) (s : State) : Outcome State Fault Refusal :=
  .next <|
    if (s.ctx c).st = .saving then
      match ((s.settleContext c).writePrivate c).trySave c with
      | (t, false) => if t.want = .nothing then t.enterResetting c .saveFault else s
      | _ => s
    else s

/-- A context with a caravan or a slice on some core. -/
def holdsUnits (s : State) (c : Nat) : Bool := s.cvs.any (fun p => p.2.ctx = c && p.2.st != .absent)

def execDrained (c : Nat) (s : State) : Outcome State Fault Refusal :=
  .next (if (s.ctx c).st = .draining && !holdsUnits s c then s.enterSaving c else s)

def execD1Expires (c : Nat) (s : State) : Outcome State Fault Refusal :=
  .next (if (s.ctx c).st = .draining then s.enterSaving c else s)

def execD2Expires (c : Nat) (s : State) : Outcome State Fault Refusal :=
  .next (if (s.ctx c).st = .draining || (s.ctx c).st = .saving then s.enterResetting c .d2 else s)

def ResetCause.code : ResetCause → Nat
  | .requested => 0
  | .d2 => 1
  | .saveFault => 2

def execResetDone (c : Nat) (s : State) : Outcome State Fault Refusal :=
  .next (if (s.ctx c).st = .resetting then
    (s.setSt c .dead).ctxEvent [c, 0] 0x0001 0x0003 (s.ctx c).cause.code c else s)

/-! ## RESTORE (R28) -/

/-- The image header in memory names this device; its unassigned bits are not looked at (R29; log 107). -/
def imageOk (x : Nat) : Bool := field x 0 32 = 0x56414D53 && field x 32 8 = 1 && field x 192 64 = Config.deviceId.toNat

/-- A core has what its saved caravans need together, at the places that they had (R28). -/
def roomFor (s : State) (k : Nat) (vs : List (Nat × Caravan)) (l1 : Nat) : Bool :=
  let rs := resident s k
  let sum (f : Caravan → Nat) : Nat := vs.foldl (fun a p => a + f p.2) 0
  vs.all (fun p => (s.cv k (p.1 % 16)).st = .absent) && rs.foldl (fun a n => a + (s.cv k n).width) 0 + sum (·.width) ≤ 16384 &&
    (rs.isEmpty || (s.core k).l1size = l1) && bufferUsed s k 16 + sum (fun c => 4 * c.width * max 2 c.staged.length) ≤ 131072 &&
    vs.all (fun p => (takenRanges s k).all (fun t => p.2.csbase + p.2.cslen ≤ t.1 || t.2 ≤ p.2.rbase))

/-- Every core named in an image has what its records need. -/
def coresAvailable (s : State) (i : SaveImage) : Bool :=
  ((i.caravans.map (fun p => p.1 / 16)).eraseDups).all (fun k =>
    roomFor s k (i.caravans.filter (fun p => p.1 / 16 = k)) (sget 0 i.l1sizes k)) &&
    i.tiles.all (fun p => p.2.all (fun t => !(s.tile p.1 t.1).defined)) &&
    i.parties.all (fun p => p.2.all (fun e => (s.party p.1 e.1).st = .free)) &&
    i.znames.all (fun p => p.2.foldl (fun a z => a + z.grans.length) 0 ≤ (freeGranules s p.1).length)

/-- The clusters that a RESTORE reserves: those to which saved relay caravans return, then by the order of ACTIVATE; the other caravans
return to none of these, nor to any that another context has reserved since (R23, R28, R156; log 104). -/
def restoreClusters (s : State) (c : Nat) (i : SaveImage) : Option (List Nat) :=
  let n := if (s.ctx c).relayc = 0 then 2 else (s.ctx c).relayc
  let of (relay : Bool) : List Nat := ((i.caravans.filter (fun p => p.2.relay = relay)).map (fun p => p.1 / 16 / 8)).eraseDups
  let more := clusterOrder.filter (fun g => clusterFree s g && !(of true).contains g && !(of false).contains g)
  let l := of true ++ more.take (n - (of true).length)
  if (of true).all (fun g => clusterFree s g) && (of false).all (fun g => !(reservedClusters s).contains g) && l.length = n then some l
  else none

/-- Bind the granules of a saved name again, to free granules, with their bytes. -/
def State.bindSaved (s : State) (k : Nat) (bytes : Memory) (z : ZName) : State :=
  let gs := (freeGranules s k).take z.grans.length
  let c := s.core k
  let s := s.setCore k { c with znames := c.znames ++ [{ z with grans := gs }] }
  { s with mem := (z.grans.zip gs).foldl (fun m p =>
      (mrange bytes (Flat.accum k (16384 * p.1)) 16384).foldl (fun m x =>
        mset m (Flat.accum k (16384 * p.2) + (x.1 - Flat.accum k (16384 * p.1))) x.2) (mzero m (Flat.accum k (16384 * p.2)) 16384)) s.mem }

/-! ### Reading an image back (R28, R29) -/

/-- A tile from its entry (R85). -/
def Tile.ofWord (x : Nat) : Tile :=
  { defined := field x 7 1 = 1,
    st := match field x 0 2 with
      | 0 => .empty
      | 1 => .filling
      | 2 => .ready
      | _ => .draining,
    err := field x 5 1 = 1, freep := field x 6 1 = 1, base := field x 40 14, fmt := field x 54 4, pitch := field x 58 11,
    rows := field x 69 9, cols := field x 78 10,
    owner := if field x 95 1 = 1 then some (field x 92 3, field x 88 4) else none, ctx := field x 96 8, pend := field x 104 24 }

/-- A party from its entry; who its members are is the device's record (R75). -/
def Party.ofWord (p : Party) (x : Nat) : Party :=
  { p with st := match field x 0 2 with
             | 0 => .free
             | 1 => .forming
             | _ => .formed,
           cores := BitVec.ofNat 8 (field x 8 8), joined := field x 16 8, expect := field x 24 8, scrSize := field x 32 16,
           scrBase := field x 48 16, key := BitVec.ofNat 64 (field x 64 64) }

/-- A name from the binding of its first granule, on core k (R289). -/
def ZName.ofBinding (z : ZName) (k x : Nat) : ZName :=
  { z with z := field x 0 6, pcore := 8 * (k / 8) + field x 13 3, pent := field x 16 4, hdr := BitVec.ofNat 64 (field x 64 64) }

/-- The section descriptors of the image in memory: type, core, length, offset. -/
def State.readDescs (s : State) (c base : Nat) : State × List (Nat × Nat × Nat × Nat) :=
  match s.devRead c (base + 8) 8 with
  | (s, none) => (s, [])
  | (s, some n) =>
    match s.devReads c (base + 64) 16 (field n 32 32) with
    | (s, none) => (s, [])
    | (s, some x) => (s, (List.range (field n 32 32)).map (fun i =>
        let d := field x (128 * i) 128
        (field d 0 8, field d 8 10, field d 32 32, field d 64 64)))

/-- Laid-out items from an address on, each in pieces of 16 bytes: none where one cannot be read. -/
def State.readItems (s : State) (c va : Nat) : List Nat → State × Option (List Nat)
  | [] => (s, some [])
  | n :: r =>
    match s.devReads c va 16 (n / 16) with
    | (s, none) => (s, none)
    | (s, some x) => match s.readItems c (va + n) r with
      | (s, some l) => (s, some (x :: l))
      | f => f

/-- The items of a core's section of a type, where the image in memory has it with the length that was written. -/
def State.readSection (s : State) (c base : Nat) (ds : List (Nat × Nat × Nat × Nat)) (typ k : Nat) (lens : List Nat) :
    State × Option (List Nat) :=
  match ds.find? (fun d => d.1 = typ && d.2.1 = k && d.2.2.1 = lens.foldl (· + ·) 0) with
  | some d => s.readItems c (base + d.2.2.2) lens
  | none => (s, none)

/-- Tiles of core k come back: the record's, with what their section in memory says. -/
def State.loadTiles (s : State) (c base : Nat) (ds : List (Nat × Nat × Nat × Nat)) (k : Nat) (ts : List (Nat × Tile)) : State :=
  let full := ts.filter (fun t => t.2.st != .empty)
  let s := ts.foldl (fun s t => s.setTile k t.1 t.2) s
  match s.readSection c base ds 3 k (ts.map (fun _ => 16) ++ full.map (fun t => t.2.bytes)) with
  | (s, none) => s
  | (s, some l) =>
    let s := (ts.zip l).foldl (fun s p => s.setTile k p.1.1 (Tile.ofWord p.2)) s
    (full.zip (l.drop ts.length)).foldl (fun s p => s.coreStore k (256 * p.1.2.base) p.1.2.bytes p.2) s

/-- Parties of core k come back, with their scratch. -/
def State.loadParties (s : State) (c base : Nat) (ds : List (Nat × Nat × Nat × Nat)) (k : Nat) (ps : List (Nat × Party)) : State :=
  let s := ps.foldl (fun s p => s.setParty k p.1 p.2) s
  match s.readSection c base ds 6 k (ps.map (fun _ => 16) ++ ps.map (fun p => 256 * p.2.scrSize)) with
  | (s, none) => s
  | (s, some l) =>
    let s := (ps.zip l).foldl (fun s p => s.setParty k p.1.1 (p.1.2.ofWord p.2)) s
    (ps.zip (l.drop ps.length)).foldl (fun s p => s.coreStore k (256 * p.1.2.scrBase) (256 * p.1.2.scrSize) p.2) s

/-- Names of core k are bound again in their order; `bs`: their bindings and their granules' bytes, as far as the section has been
read. -/
def State.bindAll (s : State) (k : Nat) (bytes : Memory) : List ZName → List Nat → List Nat → State
  | [], _, _ => s
  | z :: r, bs, xs =>
    let n := z.grans.length
    let gs := (freeGranules s k).take n
    let s := s.bindSaved k bytes (match bs with
      | b :: _ => z.ofBinding k b
      | [] => z)
    let s := (gs.zip xs).foldl (fun s p => { s with mem := mstore s.mem (Flat.accum k (16384 * p.1)) 16384 p.2 }) s
    s.bindAll k bytes r (bs.drop n) (xs.drop n)

def State.loadGrans (s : State) (c base : Nat) (ds : List (Nat × Nat × Nat × Nat)) (k : Nat) (bytes : Memory) (zs : List ZName) : State :=
  let n := zs.foldl (fun a z => a + z.grans.length) 0
  match s.readSection c base ds 5 k (List.replicate n 16 ++ List.replicate n 16384) with
  | (s, none) => s.bindAll k bytes zs [] []
  | (s, some l) => s.bindAll k bytes zs (l.take n) (l.drop n)

/-- Reading back a trap record (R340, R341). -/
def TrapRec.ofImage (x : Nat) : TrapRec :=
  let npc := field x 37 6
  let dmask : Mask := BitVec.ofNat 1024 (field x (8 * 0x100) 1024)
  { summary := BitVec.ofNat 8 x, ccause := BitVec.ofNat 8 (field x 8 8), code := BitVec.ofNat 16 (field x 16 16),
    depth := field x 32 5, npc := npc, taken := field x 43 1 = 1, twhy := BitVec.ofNat 4 (field x 44 4),
    scause := BitVec.ofNat 8 (field x 48 8), rpc := BitVec.ofNat 64 (field x 64 64), cpc := BitVec.ofNat 64 (field x 128 64),
    spc := BitVec.ofNat 64 (field x 192 64), tmask := BitVec.ofNat 1024 (field x (8 * 0x40) 1024), dmask := dmask,
    table := (List.range npc).map (fun e =>
      (BitVec.ofNat 64 (field x (8 * (0x1C0 + 16 * e)) 64), BitVec.ofNat 64 (field x (8 * (0x1C8 + 16 * e)) 64))),
    laneBytes := (List.range 1024).foldl (fun a L => sset 0 a L (BitVec.ofNat 8 (field x (8 * (0x3C0 + L)) 8))) [],
    laneVas := (List.range 1024).foldl (fun a L => sset 0 a L (BitVec.ofNat 16 (field x (8 * (0x7C0 + 2 * L)) 16))) [] }

/-- A saved caravan as its CARAVAN section in memory has it (R30); what the section does not hold is the device's record's. -/
def Caravan.ofImage (c : Caravan) (x : Nat) : Caravan :=
  let depth := field x (8 * 0x14 + 11) 5
  let staged := (List.range (min 16 (field x (8 * 0xC4) 5))).map (fun i => field x (8 * (0x30 + i)) 8)
  let d : Caravan := { c with
    pc := BitVec.ofNat 64 (field x 0 57), flags := BitVec.ofNat 7 (field x (8 * 0x10) 7), depth := depth,
    progress := BitVec.ofNat 64 (field x (8 * 0x18) 64), mask := BitVec.ofNat 1024 (field x (8 * 0x40) 1024) &&& c.exist,
    stack := (List.range (2 * depth)).map (fun i =>
      { pc := BitVec.ofNat 64 (field x (8 * (0x100 + 144 * i)) 64), mask := BitVec.ofNat 1024 (field x (8 * (0x110 + 144 * i)) 1024) }),
    sregs := (List.range 64).foldl (fun a i => sset 0 a i (BitVec.ofNat 64 (field x (8 * (0x1300 + 8 * i)) 64))) [],
    preds := (List.range 48).foldl (fun a i => sset 0 a i (BitVec.ofNat 1024 (field x (8 * (0x1500 + 128 * i)) 1024))) [],
    trap := TrapRec.ofImage (x / 2 ^ (8 * 0x2D00)),
    win := (List.range (c.width * c.nregs)).foldl (fun a i =>
      sset 0 a (1024 * (i / c.width) + i % c.width) (BitVec.ofNat 32 (field x (8 * (0x4000 + 4 * i)) 32))) [] }
  d.stage staged

/-- Read the CARAVAN sections of an image back, in their order; one that cannot be read stays as recorded. -/
def State.readCaravans (s : State) (c base : Nat) : List (Nat × Nat × Nat × Nat) → List (Nat × Caravan) → State × List (Nat × Caravan)
  | _, [] => (s, [])
  | [], l => (s, l)
  | d :: ds, (key, v) :: r =>
    let (s, w) := match s.devReads c (base + d.2.2.2) 16 (caravanBytes v / 16) with
      | (s, some x) => (s, v.ofImage x)
      | (s, none) => (s, v)
    let (s, l) := s.readCaravans c base ds r
    (s, (key, w) :: l)

/-- A BLOCKED unit re-executes its instruction, and a SLEEPING one's rest is discarded (R65, R235). -/
def Caravan.unblocked (c : Caravan) : Caravan :=
  let c := if c.st = .blocked || c.st = .sleeping then { c with st := c.runState, wait := .none, sleep := 0 } else c
  { c with stall := .none, slice := if c.slice.st = .blocked then { c.slice with st := .running, wait := .none } else c.slice }

/-- Saved spawn bins come back; where no bin of the die is free, as a partial caravan (R53; log 105). -/
def State.loadBins (s : State) (d : Nat) (bs : List (Nat × Bin)) : State :=
  bs.foldl (fun s b =>
    match freeBin s d with
    | some j => s.setDie d { s.die d with bins := sset Bin.zero (s.die d).bins j b.2 }
    | none => (s.setDie d { s.die d with bins := sput (s.die d).bins 64 b.2 }).launchBin d 64) s

/-- Put the units of an image back on their cores, halted until the context is ACTIVE. -/
def State.loadUnits (s : State) (c : Nat) (i : SaveImage) : State :=
  let base := (s.ctx c).saveva.toNat
  let (s, ds) := s.readDescs c base
  let (s, vs) := s.readCaravans c base (ds.filter (fun d => d.1 = 1)) i.caravans
  let s := vs.foldl (fun s p => s.setCv (p.1 / 16) (p.1 % 16) p.2.unblocked) s
  -- operations of caravans that had left
  let s := i.ops.foldl (fun s o =>
    if o.cslot ≥ State.leftSlot 0 then s.setCv o.core o.cslot { Caravan.blank with ctx := c } else s) s
  let s := i.l1sizes.foldl (fun s p => s.setCore p.1 { s.core p.1 with l1size := p.2 }) s
  let m := vs.foldl (fun m p => mzero m (Flat.core (p.1 / 16) p.2.rbase) (p.2.csbase + p.2.cslen - p.2.rbase)) s.mem
  let m : Memory := i.bytes.foldl (fun (m : Memory) p => if p.1 < Flat.accum 0 0 then mset m p.1 p.2 else m) m
  let s := { s with mem := m }
  let s := i.tiles.foldl (fun s p => s.loadTiles c base ds p.1 p.2) s
  let s := i.parties.foldl (fun s p => s.loadParties c base ds p.1 p.2) s
  let s := i.znames.foldl (fun s p => s.loadGrans c base ds p.1 i.bytes p.2) s
  let s := i.bins.foldl (fun s p => s.loadBins p.1 p.2) s
  { s with ops := s.ops ++ i.ops }

/-- The kernel save records are read back; sent and recv start at zero (R56). -/
def State.readKernels (s : State) (c q : Nat) : State :=
  ((kernelsOf s c q).zipIdx).foldl (fun s p =>
    let (s, r) := s.devReads c ((s.queue c q).ksave.toNat + 128 * p.2) 16 8
    let shares := match r with
      | some x =>
        if field x 0 64 ≠ handleOf p.1.kid then p.1.shares
        else (List.range 8).foldl (fun a d =>
          sset Share.none a d { p := field x (128 + 96 * d) 32, cursor := field x (160 + 96 * d) 32,
                                limit := field x (192 + 96 * d) 32 }) []
      | none => p.1.shares
    let k : Kernel := { p.1 with sent := [], recv := [], wave1 := none, shares := shares }
    s.setKernel { k with adverts := k.advertised }) s

/-- A restore finishes: ACTIVE; the queues are read, communicators go on, bins that were filled launch, parked instructions are executed
again (R28). -/
def execRestoreComplete (c : Nat) (s : State) : Outcome State Fault Refusal :=
  .next <|
    let y := s.ctx c
    if !(y.st = .saved && y.restoring) then s
    else
      (s.whole (fun s =>
        let s := s.setCtx c { y with st := .active, restoring := false, image := SaveImage.zero }
        let s := (List.range 8).foldl (fun s q => s.readKernels c q) (s.takeQueues (User.device c) c)
        let s := { s with fab := { s.fab with comms := s.fab.comms.map (fun (p : Nat × Comm) =>
          if p.1 / 64 = c then (p.1, { p.2 with read := false }) else p) } }
        if s.want != .nothing then s
        else
          let s := y.image.parks.foldl (fun (s : State) p => s.releasePark p) ((s.resumeComms c).launchFull c)
          (s.retryQueues c).ctxEvent [c] 0x0001 0x0002 0 c)).1

/-! ## The operations (R23) -/

def State.opCreate (s : State) (w : User) (c arg : Nat) : State × CtxStatus :=
  if (s.ctx c).st != .free then (s, .badState)
  else match s.readDesc w arg with
    | (s, none) => (s, .badDescriptor)
    | (s, some x) =>
      if descBad x then (s, .badDescriptor)
      else if !baseFree s x then (s, .noResource)
      else (s.setCtx c (Context.ofDesc x), .ok)

/-- MODIFY; that of context 0 comes from the command window alone (R379). -/
def State.opModify (s : State) (w : User) (c arg : Nat) (window : Bool) : State × CtxStatus :=
  let y := s.ctx c
  if c = 0 && !window then (s, .denied)
  else if !(y.st = .created || y.st = .saved) then (s, .badState)
  else match s.readDesc w arg with
    | (s, none) => (s, .badDescriptor)
    | (s, some x) =>
      let y := s.ctx c
      if descBad x then (s, .badDescriptor)
      else if c = 0 then if y.sameBase x then (s.setCtx c (y.reloadAll x), .ok) else (s, .badDescriptor)
      else if y.sameRest x then (s.setCtx c (y.reload x), .ok) else (s, .badDescriptor)

def State.opActivate (s : State) (w : User) (c : Nat) : State × CtxStatus :=
  if (s.ctx c).st != .created then (s, .badState)
  else match s.readHeaders w c with
    | (s, none) => (s, .badDescriptor)
    | (s, some h) =>
      match clustersOf s c with
      | none => (s, .noResource)
      | some gs =>
        let y := s.ctx c
        let s := (s.setCtx c { y with st := .active, relayClusters := gs }).openQueues c h
        let s := { s with fab := { s.fab with comms := s.fab.comms.map (fun (p : Nat × Comm) =>
          if p.1 / 64 = c then (p.1, { p.2 with read := false }) else p) } }
        let s := s.takeQueues w c
        if s.want != .nothing then (s, .ok)
        else
          let s := s.retryQueues c
          (if c = 0 then s.postEarly else s, .ok)

def State.opPreempt (s : State) (c arg : Nat) : State × CtxStatus :=
  if c = 0 then (s, .denied)
  else if (s.ctx c).st != .active then (s, .badState)
  else
    let s := s.setCtx c { s.ctx c with st := .draining, timers := true }
    (if field arg 0 1 = 1 then s.enterSaving c else s, .accepted)

def State.opReset (s : State) (c : Nat) : State × CtxStatus :=
  let st := (s.ctx c).st
  if c = 0 then (s, .denied)
  else if st = .active || st = .draining || st = .saving || st = .saved then (s.enterResetting c .requested, .accepted)
  else (s, .badState)

/-- DESTROY releases the id, empties its key slots (R373). -/
def State.opDestroy (s : State) (c : Nat) : State × CtxStatus :=
  let y := s.ctx c
  if c = 0 then (s, .denied)
  else if !(y.st = .created || y.st = .dead) then (s, .badState)
  else
    let keys := s.dev.keys.map (fun p =>
      if y.kbase ≤ p.1 && p.1 < y.kbase + y.kcount then (p.1, { p.2 with full := false, key := 0 }) else p)
    let s := { s.setCtx c Context.free with dev := { s.dev with keys := keys } }
    ({ s with fab := { s.fab with acl := s.fab.acl.filter (fun p => p.1 ≠ c), comms := s.fab.comms.filter (fun p => p.1 / 64 ≠ c) } }, .ok)

/-- RESTORE. While one is in progress the cores are taken: BUSY (log 104). A header that cannot be read is a bad descriptor (log 107). -/
def State.opRestore (s : State) (w : User) (c : Nat) : State × CtxStatus :=
  let y := s.ctx c
  if y.st != .saved then (s, .badState)
  else match s.pieces (w.by_ c) (.home true) y.saveva.toNat 16 4 with
    | (s, .inr _) => (s, .badDescriptor)
    | (s, .inl x) =>
      if !imageOk x then (s, .badDescriptor)
      else match s.readHeaders w c with
        | (s, none) => (s, .badDescriptor)
        | (s, some h) =>
          match restoreClusters s c y.image, coresAvailable s y.image && !y.restoring with
          | some gs, true =>
            let z := s.ctx c
            (((s.setCtx c { z with restoring := true, relayClusters := gs }).openQueues c h).loadUnits c y.image, .accepted)
          | _, _ => (s, .busy)

def State.opQuery (s : State) (c : Nat) : State × CtxStatus := (s, if (s.ctx c).st = .free then .badState else .ok)

/-- The status word (R33). -/
def statusWord (s : State) (c : Nat) (st : CtxStatus) (extra : Nat) : W64 :=
  BitVec.ofNat 64 (st.code + 2 ^ 8 * (s.ctx c).st.code + 2 ^ 16 * extra)

/-- A context operation: the state after it and its status word; that of BAD_ID names no state (R33; log 107). -/
def State.ctxop (s : State) (w : User) (op : CtxOp) (c arg : Nat) (window : Bool) : State × W64 :=
  if c > 255 then (s, BitVec.ofNat 64 CtxStatus.badId.code)
  else
    let (t, st) := match op with
      | .create => s.opCreate w c arg
      | .activate => s.opActivate w c
      | .preempt => s.opPreempt c arg
      | .restore => s.opRestore w c
      | .reset => s.opReset c
      | .destroy => s.opDestroy c
      | .query => s.opQuery c
      | .modify => s.opModify w c arg window
    (t, statusWord t c st (if op = .query && st = .ok then (saveSize t c + 4095) / 4096 else 0))

/-- CTXOP of the issuing caravan (R33, R34): the word to s[d], unless the caravan has been killed. -/
def State.ctxopBy (s : State) (f : Fields) (op : CtxOp) : State :=
  s.withRelease 4 (fun s => s.orAway (fun s =>
    let (t, w) := s.ctxop (s.user devOp) op (s.sreg f.a.sreg).toNat (s.sreg f.b.sreg).toNat false
    if t.me.st = .absent then t else (t.setS f.d.sreg w).advance))

def execCtxopCreate (f : Fields) (s : State) : Outcome State Fault Refusal :=
  issue (.ctxopCreate f) f true true (fun s => s.ctxopBy f .create) s
def execCtxopActivate (f : Fields) (s : State) : Outcome State Fault Refusal :=
  issue (.ctxopActivate f) f true true (fun s => s.ctxopBy f .activate) s
def execCtxopPreempt (f : Fields) (s : State) : Outcome State Fault Refusal :=
  issue (.ctxopPreempt f) f true true (fun s => s.ctxopBy f .preempt) s
def execCtxopRestore (f : Fields) (s : State) : Outcome State Fault Refusal :=
  issue (.ctxopRestore f) f true true (fun s => s.ctxopBy f .restore) s
def execCtxopReset (f : Fields) (s : State) : Outcome State Fault Refusal :=
  issue (.ctxopReset f) f true true (fun s => s.ctxopBy f .reset) s
def execCtxopDestroy (f : Fields) (s : State) : Outcome State Fault Refusal :=
  issue (.ctxopDestroy f) f true true (fun s => s.ctxopBy f .destroy) s
def execCtxopQuery (f : Fields) (s : State) : Outcome State Fault Refusal :=
  issue (.ctxopQuery f) f true true (fun s => s.ctxopBy f .query) s
def execCtxopModify (f : Fields) (s : State) : Outcome State Fault Refusal :=
  issue (.ctxopModify f) f true true (fun s => s.ctxopBy f .modify) s

/-! ## Context commands (R35) -/

def ctxOpOf (n : Nat) : Option CtxOp :=
  match n with
  | 0 => some .create
  | 1 => some .activate
  | 2 => some .preempt
  | 3 => some .restore
  | 4 => some .reset
  | 5 => some .destroy
  | 6 => some .query
  | 7 => some .modify
  | _ => none

/-- The answer to a host's command: its status word at the VA that the command gives, where that is a VA of an aligned word; else none
(log 107). -/
def State.answerCommand (s : State) (u : User) (cmd : BitVec 256) (w : W64) : State :=
  let va := field cmd.toNat 128 64
  if vaBad va 8 then s else (s.askChecked u (.home true) (BitVec.ofNat 64 va) 8 (.wr (w.setWidth 128))).1

/-- A host's command, where context 0 admits it: the operation in context 0, then the answer. A reserved operation, or a reserved field,
is a bad descriptor (log 107). -/
def State.serveCommand (s : State) (id : Nat) (node : BitVec 16) (sctx : BitVec 8) (cmd : BitVec 256) : State :=
  match s.admits 0 node sctx .wr with
  | (s, false) => s
  | (s, true) =>
    let x := cmd.toNat
    let c := field x 8 8
    let u := remoteUser 0 id
    let (s, w) := match ctxOpOf (field x 0 4) with
      | some op =>
        if field x 4 4 ≠ 0 || field x 16 48 ≠ 0 || field x 192 64 ≠ 0 then (s, statusWord s c .badDescriptor 0)
        else s.ctxop u op c (field x 64 64) true
      | none => (s, statusWord s c .badDescriptor 0)
    s.answerCommand u cmd w

def execContextCommand (node : BitVec 16) (sctx : BitVec 8) (cmd : BitVec 256) (s : State) : Outcome State Fault Refusal :=
  .next <|
    let (id, s) := s.waitId
    s.serveWaiting (.command id node sctx cmd) (fun s => s.serveCommand id node sctx cmd)

end Sys2Proof.Machine
end

