-- ==== Sys2Proof/Machine/CoreEvents.lean ====
section
/-! DEFINITION. What happens to caravans between their instructions: an illegal word (R221), the issue choice (R66, R235), what waits at
channels (R134), waits that end (R65, R77, R78), exits (R65), releases (R197), evictions (R128, R197), held records (R112). -/

namespace Sys2Proof.Machine

open Host (Outcome)

/-- A word that is no instruction: ILLEGAL_ENCODING, even under a never guard, and its hints do not act (R221). -/
def execIllegalWord (_ : BitVec 96) (s : State) : Outcome State Fault Refusal :=
  .next <|
    let t := s.raiseCv .illegalEncoding
    if s.cur.slice then t else t.settle s.cur.core s.cur.slot

/-! ## The issue choice -/

def execPriorityPromotion (core slot : Nat) (s : State) : Outcome State Fault Refusal :=
  .next (s.setCv core slot (s.cv core slot).promote)

def execYieldExpires (core slot : Nat) (s : State) : Outcome State Fault Refusal :=
  .next (s.setCv core slot { s.cv core slot with yielding := false })

def execSleepEnd (core slot : Nat) (s : State) : Outcome State Fault Refusal :=
  .next <|
    let c := s.cv core slot
    if c.st != .sleeping then s
    else (s.setCv core slot { c with st := c.runState, sleep := 0 }).settle core slot

/-! ## What waits at a channel (R134) -/

/-- Try again what has come over the fabric and waits. -/
def State.serveWait (s : State) (w : Waiting) : State :=
  match w with
  | .request id r => s.serveWaiting w (fun s => s.serveRequest id r)
  | .block id port b => s.serveWaiting w (fun s => s.serveBlock id port b)
  | .marker id m wrote => s.serveMarker id m wrote
  | .command id node sctx cmd => s.serveWaiting w (fun s => s.serveCommand id node sctx cmd)
  | .doorbell _ node sctx x => s.serveWaiting w (fun s => s.serveDoorbell node sctx x)

/-- Lanes of an operation that may be served now: not those with a request that waits for another node. -/
def Op.ready (o : Op) : List Req := byLane (o.todo.filter (fun r => !o.remote.any (fun q => q.lane = r.lane)))

/-- An outstanding operation goes on: its requests are made, or leave for their node, or its command reaches its channel. -/
def State.goOp (s : State) (o : Op) : State :=
  match o.kind with
  | .bank ch _ _ => if o.todo.isEmpty then s.queueCommand o ch else s.serveOp o o.ready
  | .remote _ _ _ _ _ _ => if o.todo.isEmpty then s else s.remoteSend o.id
  | .sendTile _ _ _ _ _ _ _ _ false _ => s.blkSend o.id
  | .rred _ _ _ _ _ _ _ _ _ _ _ false => s.rredSend o.id
  | _ => if o.ready.isEmpty then s else s.serveOp o o.ready

/-- What waits under a number is tried again: an operation's requests, what has come over the fabric, or, for the device's own, all
that has come and the records (R112, R134). -/
def execChannelRequest (op : Nat) (s : State) : Outcome State Fault Refusal :=
  .next <|
    if op = devOp then
      let s := s.fab.waits.foldl (fun s w => s.serveWait w) s
      s.ctxs.foldl (fun s p => [true, false].foldl (fun s b =>
        (s.postWaiting p.1 b (((s.ctx p.1).queue b).waiting.length + 1)).writeOvf p.1 b) s) s
    else match s.fab.waits.find? (fun w => w.id = op) with
      | some w => s.serveWait w
      | none => match s.op op with
        | some o => s.goOp o
        | none => s

/-! ## Waits -/

/-- A tile that its table no longer defines for the caravan's context ends a wait on it: the instruction then raises. -/
def tileGone (s : State) (c : Caravan) (k t : Nat) : Bool := !(s.tile k t).defined || (s.tile k t).ctx ≠ c.ctx

/-- The ring of a launch queue has room, or the words that say so cannot be read. -/
def launchRoom (s : State) (q : LaunchQ) : Bool :=
  match (s.pieces s.launchUser (.home true) q.consVa.toNat 8 1).2, (s.pieces s.launchUser (.home true) q.prodVa.toNat 8 1).2 with
  | .inl cons, .inl idx => (idx + 2 ^ 64 - cons) % 2 ^ 64 < 2 ^ q.log2n
  | _, _ => true

/-- The channels at which the device's own accesses wait serve them now. -/
def devServed (s : State) : Bool := s.chans.all (fun kc => !kc.2.waits.contains devOp || chanServes kc.2 devOp)

/-- What a caravan has asked other nodes has been answered, and the channels serve it: its instruction may be issued again. -/
def askedDone (s : State) (k slot : Nat) : Bool :=
  devServed s && s.ops.all (fun o => match o.kind.asked with
    | some (_, r, _) => r.lane ≠ asker k slot || o.remote.isEmpty
    | none => true)

/-- The relay ring has room, or the words that say so are not to be had at once. -/
def relayRoom (s : State) (c : Nat) : Bool :=
  match (s.relayWords c).2 with
  | some (p, n) => (p + 2 ^ 64 - n) % 2 ^ 64 < 256
  | none => true

/-- What an agent waits for has come about (R64, R93). Grants of granules and departures have events of their own. -/
def State.waitOver (s : State) (a : Agent) : Wait → Bool :=
  let c := s.cv a.core a.slot
  fun
  | .none => true
  | .barrier b p => match c.party with
    | none => true
    | some (pk, pe) => Bar.phase (barrierOf s pk pe b) ≠ p
  | .waitc ld st cp mx cl bx => s.waitcMet a.core a.slot a.slice (.waitc ld st cp mx cl bx)
  | .tileReady k t => tileGone s c k t || ((s.tile k t).st != .filling && (s.tile k t).st != .draining)
  | .tileFree t => tileGone s c a.core t || (s.tile a.core t).st != .draining
  | .tileHeld k t => tileGone s c k t || !tileHeld s k t
  | .tileState t x => tileGone s c a.core t || (s.tile a.core t).code = x
  | .join => (s.ctx c.ctx).st != .draining
  | .accalloc _ _ => false
  | .accfree z => match c.party with
    | none => true
    | some p => !zInUse s a.core p z
  | .spawnBin e n => match s.kernel c.kid with
    | none => true
    | some k => !spawnWaits s (dieOfCore a.core) c.kid (k.spawn.getD e 0) n
  | .slot k inst => !slotBusy (s.comm c.ctx k) inst || (s.comm c.ctx k).st = .broken
  | .relayRing => relayRoom s c.ctx
  | .launchRing q =>
    let x := sget LaunchQ.zero (s.ctx c.ctx).queues q
    !x.on || launchRoom { s with cur := a } x
  | .queueSlot q =>
    let x := c.queues.getD q (OpQueue.fresh true)
    x.closed || x.ents.length < c.qdepth
  | .grant k inst n => (gangAnswer (s.comm c.ctx k) inst n).isSome || (s.comm c.ctx k).st = .broken
  | .commands ch => !commandsDue s a.core a.slot ch
  | .leave => false
  | .release => !{ s with cur := a }.memPending && devServed s && !s.ops.any (fun o => o.ctx = c.ctx && o.kind = .wback)
  | .acquire => !{ s with cur := a }.readPending
  | .away => askedDone s a.core a.slot

/-- A caravan goes on: BARWAIT and WAITC are then complete; any other instruction is issued again and completes. -/
def State.goOn (s : State) (k slot : Nat) : State :=
  let c := s.cv k slot
  match c.wait with
  | .barrier _ _ => s.wakeBarrier k slot
  | .waitc _ _ _ _ _ _ =>
    (s.setCv k slot { c with st := c.runState, wait := .none, pc := c.pc + 12 }).settle k slot
  | _ => (s.setCv k slot { c with st := c.runState, wait := .none }).settle k slot

/-- A slice goes on. -/
def Caravan.sliceGoesOn (c : Caravan) : Caravan :=
  let pc := match c.slice.wait with
    | .waitc _ _ _ _ _ _ => c.slice.pc + 12
    | _ => c.slice.pc
  { c with slice := { c.slice with st := .running, wait := .none, pc := pc } }

def execWaitSatisfied (core slot : Nat) (s : State) : Outcome State Fault Refusal :=
  .next <|
    let c := s.cv core slot
    if c.st = .blocked && s.waitOver { core := core, slot := slot, slice := false } c.wait then s.goOn core slot
    else if c.slice.st = .blocked && s.waitOver { core := core, slot := slot, slice := true } c.slice.wait then
      s.setCv core slot c.sliceGoesOn
    else if c.stall = .record && askedDone s core slot then s.writeTrapRecord core slot
    else s

/-- R77 steps 1 and 2: LEAVE completes. -/
def leaveReady (s : State) (k slot : Nat) : Bool :=
  (s.cv k slot).st = .blocked && (s.cv k slot).wait = .leave && s.enginesQuiet k slot

def execPartyDeparture (core slot : Nat) (s : State) : Outcome State Fault Refusal :=
  .next <|
    let c := s.cv core slot
    if leaveReady s core slot then
      ((s.setCv core slot { c with st := c.runState, wait := .none, pc := c.pc + 12 }).leaveParty core slot).settle core slot
    else s

/-- A party's request is decided at once where the party holds granules on the core; else the first in line is, where its granules are
free (R78): the request, and whether it succeeds. -/
def accReady (s : State) (k : Nat) : Option (AccWait × Bool) :=
  let fits (w : AccWait) : Bool := w.n ≤ (freeGranules s k).length
  let holds (w : AccWait) : Bool := match (s.cv k w.slot).party with
    | some p => holdsGranules s k p
    | none => true
  match (s.core k).accq.find? holds with
  | some w => some (w, fits w)
  | none => match (s.core k).accq with
    | [] => none
    | w :: _ => if fits w then some (w, true) else none

def execAccallocGrant (core : Nat) (s : State) : Outcome State Fault Refusal :=
  .next <|
    match accReady s core with
    | none => s
    | some (w, ok) =>
      let x := s.core core
      let s := s.setCore core { x with accq := x.accq.erase w }
      let c := s.cv core w.slot
      let run := s.setCv core w.slot { c with st := c.runState, wait := .none }
      match c.party with
      | none => run
      | some p =>
        if (zName s core p w.z).isSome then run
        else
          let s := (if ok then s.bindGranules core p w.z w.n else s).answerP core w.slot w.pd ok
          let c := s.cv core w.slot
          (s.setCv core w.slot { c with st := c.runState, wait := .none, pc := c.pc + 12 }).settle core w.slot

/-! ## Exit (R65, R77, R95, R234) -/

/-- A finished caravan may leave: CP, MX and CL of the caravan and of its slice are zero, and the slice's loads have completed. -/
def exitReady (s : State) (k slot : Nat) : Bool :=
  (s.cv k slot).st = .finishing &&
    s.ops.all (fun o => !(o.core = k && o.cslot = slot) || match o.cls with
      | .CP => false
      | .MX => false
      | .CL => false
      | .LD => !o.slice
      | _ => true)

/-- A line of a caravan's private region (R74). -/
def ofRegion (s : State) (k slot : Nat) (l : Line) : Bool :=
  let x := s.ctx (s.cv k slot).ctx
  let base := (x.privarea.toNat + 2 ^ 22 * (16 * k + slot)) % 2 ^ 64
  l.priv && l.asid = x.asid && base ≤ 128 * l.tag && 128 * l.tag < base + 2 ^ 22

/-- What a caravan that leaves has still to do goes on under its slot's other number: its stores and commands are performed, what its loads
return is discarded (R65, R234; log 70). -/
def State.leaveOps (s : State) (k slot : Nat) : State :=
  let mine (o : Op) : Bool := o.core = k && o.cslot = slot
  let to_ := State.leftSlot slot
  let s := (s.ops.filter mine).foldl (fun s o => match o.kind with
    | .tst t => if o.done then s else s.landTst o t
    | _ => s) s
  let ops := (s.ops.filter (fun o => !(mine o && (o.done || o.cls = .fetch || (match o.kind with
    | .tst _ => true
    | _ => false))))).map (fun o => if mine o then { o with cslot := to_ } else o)
  let parks := (s.parks.filter (fun p => !(p.srckind < 2 && p.core = k && p.cslot = slot) || (match p.what with
    | .lanes _ _ => true
    | _ => false))).map (fun p => if p.srckind < 2 && p.core = k && p.cslot = slot then { p with cslot := to_ } else p)
  let c := s.cv k slot
  let old := s.cv k to_
  let stub : Caravan := { Caravan.blank with ctx := c.ctx, kid := c.kid, marks := old.marks ++ c.marks,
                                             follows := old.follows ++ c.follows, marked := old.marked ++ c.marked }
  let live := !stub.marked.isEmpty || ops.any (fun o => o.core = k && o.cslot = to_)
  { s.setCv k to_ (if live then stub else Caravan.blank) with
      ops := ops, parks := parks,
      veils := s.veils.map (fun v => if v.core = k && v.slot = slot then { v with slot := to_ } else v) }

/-- A relay caravan that leaves has no part in a collective any more (R161; log 100). -/
def Comm.without (x : Comm) (k slot : Nat) : Comm :=
  let y := { x with users := x.users.filter (fun u => u.2 ≠ (k, slot)), acks := x.acks.filter (fun a => a ≠ (k, slot)) }
  { y with st := if y.st = .pausing && y.unacked.isEmpty then CommState.paused else y.st }

/-- The caravan leaves its party, its private lines are dropped, its storage is free. -/
def State.leaveCore (s : State) (k slot : Nat) : State :=
  let c := s.cv k slot
  let x := s.core k
  let base := (s.ctx c.ctx).privarea.toNat + 2 ^ 22 * (16 * k + slot)
  let asid := (s.ctx c.ctx).asid
  let s := s.setCore k { x with l1 := x.l1.filter (fun l => !ofRegion s k slot l),
                                touched := x.touched.filter (fun t => !(t.1 = asid && base % 2 ^ 64 ≤ 128 * t.2 &&
                                  128 * t.2 < base % 2 ^ 64 + 2 ^ 22)),
                                fifo := x.fifo.filter (fun e => e != FifoEnt.marker slot),
                                accq := x.accq.filter (fun w => w.slot ≠ slot) }
  let s := ((s.leaveParty k slot).leaveOps k slot).dropAsked (fun n => n = asker k slot)
  let y := s.ctx c.ctx
  let s := s.setCtx c.ctx { y with csrws := y.csrws.map (fun w =>
    if w.2.2 = (k, slot) then (w.1, w.2.1, k, State.leftSlot slot) else w) }
  let comms : List (Nat × Comm) := s.fab.comms.map (fun p => if p.1 / 64 = c.ctx then (p.1, p.2.without k slot) else p)
  { s with fab := { s.fab with comms := comms } }.setCv k slot Caravan.blank

def execCaravanExit (core slot : Nat) (s : State) : Outcome State Fault Refusal :=
  .next (if exitReady s core slot then s.leaveCore core slot else s)

/-! ## Releases and evictions (R196, R197, R279) -/

/-- The entries ahead of a caravan's marker are written back; at SYSTEM scope, what that leaves for other nodes is sent, and acknowledged;
then its release is complete. -/
def State.releaseDone (s : State) (k slot : Nat) : State :=
  let flush (scope : Nat) : State :=
    let t := if (s.core k).fifo.contains (FifoEnt.marker slot) then s.drainFifo k (some slot) else s
    if scope = 5 then t.flushFabric (t.cv k slot).ctx else t
  let ready (t : State) (scope : Nat) (go : State → State) : State :=
    if scope = 5 && fabricPending t (t.cv k slot).ctx then t
    else (go (t.setCv k slot { t.cv k slot with stall := .none }))
  let a : Agent := { core := k, slot := slot, slice := false }
  match (s.cv k slot).stall with
  | .release scope acq => ready (flush scope) scope (fun s => if acq then s.asAgent a (fun s => s.acquire scope none) else s)
  | .releaseStore scope va x w =>
    ready (flush scope) scope (fun s =>
      (s.asAgent a (fun s => s.joinedStore (s.pc - 12) (joinedReq s.lowLane va w scope (.wr (x.setWidth 128))))).settle k slot)
  | _ => s

def execReleaseComplete (core slot : Nat) (s : State) : Outcome State Fault Refusal := .next (s.releaseDone core slot)

/-- A line is evicted from a cache: it is written back, and leaves where what it holds dirty has been taken (R12, R128, R197). -/
def execLineEviction (cache : CacheId) (asid : BitVec 16) (line : Nat) (s : State) : Outcome State Fault Refusal :=
  .next <|
    match cache with
    | .l1 k => (s.cleanL1 k asid line).dropL1 k asid line
    | .l2 d => s.flushL2 d (fun l => l.asid = asid && l.tag = line) true
    | .msc ch => ((s.chan ch).msc.filter (fun l => l.asid = asid && l.tag = line)).foldl (fun s l => s.mscOut ch l) s

/-! ## Held records (R112) -/

def execHeldRecordRetry (c : Nat) (cons : Option (BitVec 64)) (s : State) : Outcome State Fault Refusal :=
  .next <|
    let s := match cons with
      | some x => if queueAway s c false then s.setQueue c false { (s.ctx c).eventq with cons := x } else s
      | none => s
    s.retryQueues c

end Sys2Proof.Machine
end

