-- ==== Sys2Proof/Machine/BringUp.lean ====
section
/-! DEFINITION. Device reset and bring-up (R376, R377, R379), power (R371), attestation and keys (R374, R375, R380). -/

namespace Sys2Proof.Machine

open Host (Outcome)

/-! ## Device reset (R377) -/

/-- The machine after a device reset: what reset leaves, with the fuses and the configuration store (R376, R380). What has
been sent stays sent, and the inputs still to come stay to come. -/
def State.resetDevice (s : State) : State :=
  let r := State.reset
  let keys := s.dev.keys.map (fun (p : Nat × KeySlot) => (p.1, { p.2 with full := false, key := 0 }))
  { r with dev := { r.dev with fuse := s.dev.fuse, store := s.dev.store, keys := keys }, fab := { r.fab with out := s.fab.out },
           agenda := s.agenda, clock := s.clock, freeCtr := s.freeCtr }

def execDeviceReset (s : State) : Outcome State Fault Refusal := .next s.resetDevice

/-! ## The steps of bring-up (R377) -/

/-- Step n is complete, and the device is not in FAILSAFE. -/
def State.atStep (s : State) (n : Nat) : Bool := s.dev.step = n && !s.dev.failsafe

def State.toStep (s : State) (n : Nat) : State := { s with dev := { s.dev with step := n } }

/-- Step 1 (R376): `valid`: every image's signature verifies; `counter`: the least of their rollback counters. -/
def execBoot (valid : Bool) (counter : Nat) (s : State) : Outcome State Fault Refusal :=
  .next <|
    if !s.atStep 0 then s
    else if valid && s.dev.fuse ≤ counter then s.toStep 1
    else { s with dev := { s.dev with failsafe := true } }

/-- Step 2: every DRAM sector holds zero stored bytes and zero side-band bits. -/
def execRepairStep (s : State) : Outcome State Fault Refusal :=
  .next <|
    if !s.atStep 1 then s
    else { s.toStep 2 with mem := s.mem.filter (fun p => !Flat.isDram p.1), sectors := [] }

/-- Step 3: the pinned capacities come into use (R380). -/
def execMapStep (s : State) : Outcome State Fault Refusal :=
  .next <|
    if !s.atStep 2 then s
    else (List.range 8).foldl (fun s d => s.setDie d { s.die d with pinned := sget 0 s.dev.store d }) (s.toStep 3)

/-- Step 4. -/
def execMeasure (s : State) : Outcome State Fault Refusal :=
  .next <|
    if !s.atStep 3 then s
    else { s with dev := { s.dev with step := 4, measured := some s.freeCtr }, freeCtr := s.freeCtr + 1 }

/-- A port with DIS = 0 begins to train (R146). -/
def State.train (s : State) (p : Nat) : State :=
  let x := s.port p
  if x.st = .down && !x.dis then s.setPort p { x with st := .training, attempts := 0 } else s

/-- Step 5 begins: the ports train; in FAILSAFE port 0 alone (R376). -/
def execLinks (s : State) : Outcome State Fault Refusal :=
  .next <|
    if s.dev.failsafe then s.train 0
    else if s.dev.step = 4 then (List.range 36).foldl (fun s p => s.train p) s
    else s

/-- Step 5 ends: the fabric manager assigns NODEID (R147). -/
def execNodeidAssigned (id : BitVec 16) (s : State) : Outcome State Fault Refusal :=
  .next <|
    if s.dev.failsafe || s.dev.step < 4 || s.fab.ports.all (fun p => p.2.st = .down) || id = 0 || id = 0xFFFF then s
    else { s with dev := { s.dev with nodeid := id, step := if s.dev.step = 4 then 5 else s.dev.step } }

/-- Context 0 as its built-in descriptor gives it (R379). -/
def Context.builtin : Context := { Context.free with st := .created, priv := true, kcount := 1 }

/-- Step 6: key slot 0, the zeroed root, context 0, zeroed CONST tables, BRINGUP_DONE (R377, R379). -/
def execSystemStep (s : State) : Outcome State Fault Refusal :=
  .next <|
    if !s.atStep 5 then s
    else
      let g := (s.keySlot 0).gen + 1
      let key : KeySlot := { full := true, gen := g, key := Config.bootKey g }
      let s := { s with dev := { s.dev with keys := sset KeySlot.empty s.dev.keys 0 key },
                        chans := s.chans.map (fun (c : Nat × Channel) => (c.1, { c.2 with const := [] })) }
      let s := (s.setCtx 0 Context.builtin).devWrites 0 (tableVa 0 0) 16 256 0
      (s.1.toStep 6).event [0] 0x6000 0x62 s.1.dev.nodeid.toNat

/-! ## Power (R371) -/

/-- Every die's clock becomes what f gives it; a change posts POWER_LIMIT with the new clock. -/
def State.reclock (s : State) (f : Nat → Nat) : State :=
  let old := (s.die 0).mhz
  if f old = old then s
  else
    ((List.range 8).foldl (fun s d => s.setDie d { s.die d with mhz := f (s.die d).mhz }) s).event [0] 0x6000 0x60 (f old)

def slower (x : Nat) : Nat := max 1500 (x - 100)
def faster (x : Nat) : Nat := min 3000 (x + 100)

def execPowerWindow (watts : Nat) (s : State) : Outcome State Fault Refusal :=
  .next (if watts > 2400 then s.reclock slower else if watts < 2250 then s.reclock faster else s)

def execThermalLimit (s : State) : Outcome State Fault Refusal := .next (s.reclock slower)

def execThermalShutdown (s : State) : Outcome State Fault Refusal := .next s.resetDevice

/-! ## SPDM (R374) -/

/-- Answered from step 5 onwards, and in FAILSAFE (R376, R377). -/
def spdmAnswers (s : State) : Bool := s.dev.failsafe || 4 ≤ s.dev.step

def unexpectedRequest : Nat := 4
def invalidRequest : Nat := 1

def State.setSpdm (s : State) (x : Spdm) : State := { s with dev := { s.dev with spdm := x } }

/-- An answer of the response code given; what it carries is free. -/
def State.spdmAnswer (s : State) (code : Nat) : State :=
  { s.send (.spdmOk code (Config.spdmData s.freeCtr)) with freeCtr := s.freeCtr + 1 }

/-- A request in the order of SPDM 1.3: `ok` of the responder's state, else UnexpectedRequest. -/
def State.spdm (s : State) (ok : Spdm → Bool) (go : State → State) : State :=
  if !spdmAnswers s then s
  else if ok s.dev.spdm then go s
  else s.send (.spdmError unexpectedRequest)

/-- GET_VERSION begins anew: an open session ends. -/
def Spdm.anew : Spdm :=
  { versioned := true, capable := false, negotiated := false, exchanged := false, session := false, measured := 0 }

def execGetVersion (s : State) : Outcome State Fault Refusal :=
  .next (s.spdm (fun _ => true) (fun s => (s.setSpdm Spdm.anew).spdmAnswer 0x04))

def execGetCapabilities (s : State) : Outcome State Fault Refusal :=
  .next (s.spdm (fun x => x.versioned) (fun s => (s.setSpdm { s.dev.spdm with capable := true }).spdmAnswer 0x61))

def execNegotiateAlgorithms (s : State) : Outcome State Fault Refusal :=
  .next (s.spdm (fun x => x.capable) (fun s => (s.setSpdm { s.dev.spdm with negotiated := true }).spdmAnswer 0x63))

def execGetDigests (s : State) : Outcome State Fault Refusal :=
  .next (s.spdm (fun x => x.negotiated) (fun s => s.spdmAnswer 0x01))

def execGetCertificate (s : State) : Outcome State Fault Refusal :=
  .next (s.spdm (fun x => x.negotiated) (fun s => s.spdmAnswer 0x02))

def execChallenge (s : State) : Outcome State Fault Refusal :=
  .next (s.spdm (fun x => x.negotiated) (fun s => s.spdmAnswer 0x03))

/-- The digest of one item; inside a session the requester has then completed that index (R375). -/
def execGetMeasurements (index : Nat) (s : State) : Outcome State Fault Refusal :=
  .next (s.spdm (fun x => x.negotiated) (fun s =>
    if index = 0 || index > 6 then s.send (.spdmError invalidRequest)
    else match s.dev.measured with
      | none => s.send (.spdmError unexpectedRequest)
      | some n =>
        let x := s.dev.spdm
        let s := if x.session then s.setSpdm { x with measured := x.measured ||| (1#6 <<< (index - 1)) } else s
        s.send (.spdmOk 0x60 (Config.measurement n index))))

def execKeyExchange (s : State) : Outcome State Fault Refusal :=
  .next (s.spdm (fun x => x.negotiated) (fun s => (s.setSpdm { s.dev.spdm with exchanged := true }).spdmAnswer 0x64))

/-- The session is open; nothing has been measured within it. -/
def execFinish (s : State) : Outcome State Fault Refusal :=
  .next (s.spdm (fun x => x.exchanged) (fun s =>
    (s.setSpdm { s.dev.spdm with exchanged := false, session := true, measured := 0 }).spdmAnswer 0x65))

def execEndSession (s : State) : Outcome State Fault Refusal :=
  .next (s.spdm (fun x => x.session) (fun s =>
    (s.setSpdm { s.dev.spdm with session := false, measured := 0 }).spdmAnswer 0x6C))

/-! ## Vendor-defined requests (R375, R379, R380) -/

/-- A session within which GET_MEASUREMENTS has been completed for indices 1 to 6 (R375). -/
def Spdm.trusted (x : Spdm) : Bool := x.session && x.measured = BitVec.allOnes 6

def State.vendorOk (s : State) (data : BitVec 512) : State := s.send (.spdmOk 0x7E data)

/-- LOAD_KEY; slot 0 is the device's own (R379). -/
def execLoadKey (slot : Nat) (key : BitVec 512) (s : State) : Outcome State Fault Refusal :=
  .next (s.spdm (fun x => x.trusted && slot ≠ 0) (fun s =>
    if slot ≥ 4096 then s.send (.spdmError invalidRequest)
    else
      let k : KeySlot := { full := true, gen := (s.keySlot slot).gen + 1, key := key }
      let s := { s with dev := { s.dev with keys := sset KeySlot.empty s.dev.keys slot k } }
      (s.event [0] 0x6000 0x61 slot).vendorOk 0))

/-- ADMIT_HOST: at most four nodes. -/
def execAdmitHost (node : BitVec 16) (s : State) : Outcome State Fault Refusal :=
  .next (s.spdm Spdm.trusted (fun s =>
    if s.dev.admitted.contains node then s.vendorOk 0
    else if s.dev.admitted.length ≥ 4 then s.send (.spdmError invalidRequest)
    else { s with dev := { s.dev with admitted := s.dev.admitted ++ [node] } }.vendorOk 0))

/-- GET_BRINGUP: the step reached. -/
def execGetBringup (s : State) : Outcome State Fault Refusal :=
  .next (s.spdm (fun _ => true) (fun s => s.vendorOk (BitVec.ofNat 512 s.dev.step)))

/-- SET_PINNED: for each die of the mask, a capacity of 0 to 16 units of 4 MiB. -/
def execSetPinned (dies : BitVec 8) (caps : BitVec 40) (s : State) : Outcome State Fault Refusal :=
  .next (s.spdm Spdm.trusted (fun s =>
    let ds := (List.range 8).filter (fun d => dies.getLsbD d)
    let cap (d : Nat) : Nat := field caps.toNat (5 * d) 5
    if ds.any (fun d => cap d > 16) then s.send (.spdmError invalidRequest)
    else { s with dev := { s.dev with store := ds.foldl (fun m d => sset 0 m d (cap d)) s.dev.store } }.vendorOk 0))

end Sys2Proof.Machine
end

