-- ==== Sys2Proof/Machine/Integer.lean ====
section
/-! DEFINITION. Integer vector instructions, class 0x1 (R239 to R242). -/

namespace Sys2Proof.Machine

open Host (Outcome)

/-! ## Values -/

/-- A 32-bit value as I32 (signed) or U32. -/
def asInt (sx : Bool) (x : W32) : Int := if sx then x.toInt else x.toNat

/-- Saturate to I32 or U32, with SAT (R241). -/
def satW32 (sx : Bool) (x : Int) : W32 × Flag :=
  let (v, fl) := satInt (if sx then 8 else 9) x
  (BitVec.ofInt 32 v, fl)

/-- Type I32 of the type subfield. -/
def isI32 (f : Fields) : Bool := f.type = 8

/-- Compare by cmp code of ISET (R239). -/
def cmpInt (code : Nat) (a b : Int) : Bool :=
  match code with
  | 0 => a = b
  | 1 => a ≠ b
  | 2 => a < b
  | 3 => a ≤ b
  | 4 => a > b
  | _ => a ≥ b

def addSat (sat sx : Bool) (a b : W32) : W32 × Flag := if sat then satW32 sx (asInt sx a + asInt sx b) else (a + b, 0)
def subSat (sat sx : Bool) (a b : W32) : W32 × Flag := if sat then satW32 sx (asInt sx a - asInt sx b) else (a - b, 0)
def absSat (sat : Bool) (a : W32) : W32 × Flag :=
  if sat then satW32 true a.toInt.natAbs else (BitVec.ofNat 32 a.toInt.natAbs, 0)
def mulHigh (sx : Bool) (a b : W32) : W32 := ((BitVec.ofInt 64 (asInt sx a * asInt sx b)) >>> 32).setWidth 32
def shiftL (a b : W32) : W32 := if b.toNat ≥ 32 then 0 else a <<< b.toNat
def shiftR (a b : W32) : W32 := if b.toNat ≥ 32 then 0 else a >>> b.toNat
def shiftA (a b : W32) : W32 := a.sshiftRight (min b.toNat 31)

/-- Bit i is tab[4·d0[i] + 2·a[i] + b[i]] (R239). -/
def truthTable (tab : Nat) (d0 a b : W32) : W32 :=
  BitVec.ofNat 32 ((List.range 32).foldr (fun i acc =>
    field tab (4 * (if d0.getLsbD i then 1 else 0) + 2 * (if a.getLsbD i then 1 else 0) + (if b.getLsbD i then 1 else 0)) 1 +
      2 * acc) 0)

/-- BFE (R240). -/
def bitExtract (sx : Bool) (a b : W32) : W32 :=
  let pos := min (field b.toNat 0 8) 32
  let len := min (field b.toNat 8 8) 32
  let v := (List.range len).foldr (fun i acc =>
    (if pos + i ≤ 31 then (if a.getLsbD (pos + i) then 1 else 0) else if sx && a.msb then 1 else 0) + 2 * acc) 0
  if len = 0 then 0 else if sx then BitVec.ofInt 32 (signed len v) else BitVec.ofNat 32 v

/-- BFI (R240). -/
def bitInsert (d0 a b : W32) : W32 :=
  let pos := min (field b.toNat 0 8) 32
  let len := min (field b.toNat 8 8) 32
  BitVec.ofNat 32 ((List.range 32).foldr (fun i acc =>
    (if pos ≤ i && i < pos + len then (if a.getLsbD (i - pos) then 1 else 0) else if d0.getLsbD i then 1 else 0) + 2 * acc) 0)

/-- Byte k of PRMT (R240). -/
def permByte (d0 a b : W32) (k : Nat) : Nat :=
  let sel := field d0.toNat (4 * k) 3
  let byte := field (a.toNat + 2 ^ 32 * b.toNat) (8 * sel) 8
  if field d0.toNat (4 * k + 3) 1 = 1 then (if byte ≥ 128 then 0xFF else 0) else byte

def permute (d0 a b : W32) : W32 :=
  BitVec.ofNat 32 (permByte d0 a b 0 + 2 ^ 8 * permByte d0 a b 1 + 2 ^ 16 * permByte d0 a b 2 + 2 ^ 24 * permByte d0 a b 3)

def popCount32 (a : W32) : W32 := BitVec.ofNat 32 ((List.range 32).filter (fun i => a.getLsbD i)).length
def leadingZeros (a : W32) : W32 := BitVec.ofNat 32 (32 - digits a.toNat)
def reverseBits (a : W32) : W32 :=
  BitVec.ofNat 32 ((List.range 32).foldr (fun i acc => (if a.getLsbD (31 - i) then 1 else 0) + 2 * acc) 0)

/-! ## Shapes -/

/-- d := g d0 a b in each lane that takes part; `zero`: immediates are read by imm_u. -/
def State.alu (s : State) (f : Fields) (zero : Bool) (g : W32 → W32 → W32 → W32) : State :=
  (s.putV f (fun L => g (s.me.reg f.d.vreg L) (s.src32 .int zero f.a L) (s.src32 .int zero f.b L))).advance

/-- The same with flags (R167). -/
def State.aluF (s : State) (f : Fields) (g : W32 → W32 → W32 × Flag) : State :=
  let v := fun L => g (s.src32 .int false f.a L) (s.src32 .int false f.b L)
  ((s.putV f (fun L => (v L).1)).raise (lanesFlags s.me.width (s.part f) (fun L => (v L).2))).advance

/-- Add or subtract with the carry predicate of MOD 5:0, which takes the carry out (R239, R242). -/
def State.aluC (s : State) (f : Fields) (g : W32 → W32 → Nat → W32 × Bool) : State :=
  let n := modBits f.m 0 6
  let v := fun L => g (s.src32 .int false f.a L) (s.src32 .int false f.b L) (if (s.me.pred n).getLsbD L then 1 else 0)
  ((s.putV f (fun L => (v L).1)).putP n f (fun L => (v L).2)).advance

/-- d := g d0 a b on register pairs. -/
def State.alu64 (s : State) (f : Fields) (g : W64 → Nat → W64) : State :=
  (s.putV64 f (fun L => g (s.me.reg64 f.d.vreg L) L)).advance

/-! ## Instructions -/

def execIadd (f : Fields) (s : State) : Outcome State Fault Refusal :=
  issue (.iadd f) f false false (fun s => s.aluF f (addSat (modBits f.m 9 1 = 1) (isI32 f))) s

def execIsub (f : Fields) (s : State) : Outcome State Fault Refusal :=
  issue (.isub f) f false false (fun s => s.aluF f (subSat (modBits f.m 9 1 = 1) (isI32 f))) s

def execImul (f : Fields) (s : State) : Outcome State Fault Refusal :=
  issue (.imul f) f false false (fun s => s.alu f false (fun _ a b => a * b)) s

def execImulh (f : Fields) (s : State) : Outcome State Fault Refusal :=
  issue (.imulh f) f false false (fun s => s.alu f false (fun _ a b => mulHigh (isI32 f) a b)) s

def execImad (f : Fields) (s : State) : Outcome State Fault Refusal :=
  issue (.imad f) f false false (fun s => s.alu f false (fun d a b => a * b + d)) s

def execImin (f : Fields) (s : State) : Outcome State Fault Refusal :=
  issue (.imin f) f false false
    (fun s => s.alu f false (fun _ a b => if asInt (isI32 f) b < asInt (isI32 f) a then b else a)) s

def execImax (f : Fields) (s : State) : Outcome State Fault Refusal :=
  issue (.imax f) f false false
    (fun s => s.alu f false (fun _ a b => if asInt (isI32 f) b > asInt (isI32 f) a then b else a)) s

def execIabs (f : Fields) (s : State) : Outcome State Fault Refusal :=
  issue (.iabs f) f false false (fun s => s.aluF f (fun a _ => absSat (modBits f.m 9 1 = 1) a)) s

def execIaddc (f : Fields) (s : State) : Outcome State Fault Refusal :=
  issue (.iaddc f) f false false
    (fun s => s.aluC f (fun a b c => (a + b + BitVec.ofNat 32 c, decide (a.toNat + b.toNat + c ≥ 2 ^ 32)))) s

def execIsubb (f : Fields) (s : State) : Outcome State Fault Refusal :=
  issue (.isubb f) f false false
    (fun s => s.aluC f (fun a b c => (a - b - BitVec.ofNat 32 c, decide (a.toNat < b.toNat + c)))) s

def execShl (f : Fields) (s : State) : Outcome State Fault Refusal :=
  issue (.shl f) f false false (fun s => s.alu f true (fun _ a b => shiftL a b)) s

def execShr (f : Fields) (s : State) : Outcome State Fault Refusal :=
  issue (.shr f) f false false (fun s => s.alu f true (fun _ a b => shiftR a b)) s

def execSar (f : Fields) (s : State) : Outcome State Fault Refusal :=
  issue (.sar f) f false false (fun s => s.alu f true (fun _ a b => shiftA a b)) s

def execRotl (f : Fields) (s : State) : Outcome State Fault Refusal :=
  issue (.rotl f) f false false (fun s => s.alu f true (fun _ a b => a.rotateLeft (b.toNat % 32))) s

def execAndI (f : Fields) (s : State) : Outcome State Fault Refusal :=
  issue (.andI f) f false false (fun s => s.alu f true (fun _ a b => a &&& b)) s

def execOrI (f : Fields) (s : State) : Outcome State Fault Refusal :=
  issue (.orI f) f false false (fun s => s.alu f true (fun _ a b => a ||| b)) s

def execXorI (f : Fields) (s : State) : Outcome State Fault Refusal :=
  issue (.xorI f) f false false (fun s => s.alu f true (fun _ a b => a ^^^ b)) s

def execAndn (f : Fields) (s : State) : Outcome State Fault Refusal :=
  issue (.andn f) f false false (fun s => s.alu f true (fun _ a b => a &&& ~~~b)) s

def execNotI (f : Fields) (s : State) : Outcome State Fault Refusal :=
  issue (.notI f) f false false (fun s => s.alu f true (fun _ a _ => ~~~a)) s

def execTtab (f : Fields) (s : State) : Outcome State Fault Refusal :=
  issue (.ttab f) f false false (fun s => s.alu f true (truthTable (modBits f.m 0 8))) s

def execBfe (f : Fields) (s : State) : Outcome State Fault Refusal :=
  issue (.bfe f) f false false (fun s => s.alu f true (fun _ a b => bitExtract (isI32 f) a b)) s

def execBfi (f : Fields) (s : State) : Outcome State Fault Refusal :=
  issue (.bfi f) f false false (fun s => s.alu f true bitInsert) s

def execPopc (f : Fields) (s : State) : Outcome State Fault Refusal :=
  issue (.popc f) f false false (fun s => s.alu f true (fun _ a _ => popCount32 a)) s

def execClz (f : Fields) (s : State) : Outcome State Fault Refusal :=
  issue (.clz f) f false false (fun s => s.alu f true (fun _ a _ => leadingZeros a)) s

def execBrev (f : Fields) (s : State) : Outcome State Fault Refusal :=
  issue (.brev f) f false false (fun s => s.alu f true (fun _ a _ => reverseBits a)) s

def execPrmt (f : Fields) (s : State) : Outcome State Fault Refusal :=
  issue (.prmt f) f false false (fun s => s.alu f true permute) s

def execIset (f : Fields) (s : State) : Outcome State Fault Refusal :=
  issue (.iset f) f false false
    (fun s => (s.putP f.d.pnum f (fun L =>
      cmpInt (modBits f.m 6 3) (asInt (isI32 f) (s.src32 .int false f.a L)) (asInt (isI32 f) (s.src32 .int false f.b L)))).advance) s

def execIadd64 (f : Fields) (s : State) : Outcome State Fault Refusal :=
  issue (.iadd64 f) f false false (fun s => s.alu64 f (fun _ L => s.src64 false f.a L + s.src64 false f.b L)) s

def execImad64 (f : Fields) (s : State) : Outcome State Fault Refusal :=
  issue (.imad64 f) f false false
    (fun s => s.alu64 f (fun d L =>
      BitVec.ofInt 64 (asInt (isI32 f) (s.src32 .int false f.a L) * asInt (isI32 f) (s.src32 .int false f.b L)) + d)) s

def execSel (f : Fields) (s : State) : Outcome State Fault Refusal :=
  issue (.sel f) f false false
    (fun s => (s.putV f (fun L =>
      if (s.me.pred (modBits f.m 0 6)).getLsbD L then s.src32 .int false f.a L else s.src32 .int false f.b L)).advance) s

def execMov (f : Fields) (s : State) : Outcome State Fault Refusal :=
  issue (.mov f) f false false
    (fun s => if f.m = 0 then (s.putV f (fun L => s.src32 .int false f.a L)).advance
      else (s.putV64 f (fun L => s.src64 false f.a L)).advance) s

def execMovi (f : Fields) (s : State) : Outcome State Fault Refusal :=
  issue (.movi f) f false false (fun s => (s.putV f (fun _ => imm32 f.a f.b)).advance) s

end Sys2Proof.Machine
end

