-- ==== Sys2Proof/Machine/Lane.lean ====
section
/-! DEFINITION. Lane and predicate instructions, class 0x3 (R243 to R245). -/

namespace Sys2Proof.Machine

open Host (Outcome)

/-- Word w of a mask as a number of 32 bits. -/
def maskWordOf (m : Mask) (w : Nat) : W32 := (m >>> (32 * w)).setWidth 32

/-- The lanes below W of a set whose predicate is true. -/
def State.partP (s : State) (f : Fields) (o : Operand) : Mask := s.part f &&& maskWhere s.me.width (s.srcP o)

/-- PLOP: p_d := tab[4·p_d0 + 2·p_a + p_b]. -/
def plopAt (tab : Nat) (d a b : Bool) : Bool :=
  field tab (4 * d.toNat + 2 * a.toNat + b.toNat) 1 = 1

/-- Operators of REDUX and SCAN (R243). -/
def redApply (op : Nat) (sx : Bool) (x y : W32) : W32 :=
  match op with
  | 0 => x + y
  | 1 => if asInt sx y < asInt sx x then y else x
  | 2 => if asInt sx y > asInt sx x then y else x
  | 3 => x &&& y
  | 4 => x ||| y
  | _ => x ^^^ y
where asInt (sx : Bool) (x : W32) : Int := if sx then x.toInt else x.toNat

/-- Their identities (R244). -/
def redIdentity (op : Nat) (sx : Bool) : W32 :=
  match op with
  | 1 => if sx then 0x7FFFFFFF else 0xFFFFFFFF
  | 2 => if sx then 0x80000000 else 0
  | 3 => 0xFFFFFFFF
  | _ => 0

/-- Lanes of a list in lane L's word, or all of them. -/
def sameWord (word : Bool) (L : Nat) (ls : List Nat) : List Nat :=
  if word then ls.filter (fun j => j / 32 = L / 32) else ls

/-- Combine a value over lanes, ascending (R244). -/
def redOver (op : Nat) (sx : Bool) (v : Nat → W32) (ls : List Nat) : W32 :=
  ls.foldl (fun a j => redApply op sx a (v j)) (redIdentity op sx)

/-- SHFL's source lane (R245). -/
def shflLane (mode seg W L n : Nat) : Nat :=
  let g := if seg = 6 then W else min (2 ^ seg) W
  let s0 := L - L % g
  match mode with
  | 0 => if n ≥ g then L else s0 + n
  | 1 => if L < s0 + n then L else L - n
  | 2 => if L + n ≥ s0 + g then L else L + n
  | _ => let x := L ^^^ n; if s0 ≤ x && x < s0 + g then x else L

/-- The lanes of Part in lane L's word that satisfy p, as a word. -/
def wordWhere (part : List Nat) (L : Nat) (p : Nat → Bool) : W32 :=
  BitVec.ofNat 32 (((sameWord true L part).filter p).foldl (fun a j => a + 2 ^ (j % 32)) 0)

def execPlop (f : Fields) (s : State) : Outcome State Fault Refusal :=
  issue (.plop f) f false false
    (fun s => (s.putP f.d.pnum f (fun L => plopAt (modBits f.m 0 8) (s.srcP f.d L) (s.srcP f.a L) (s.srcP f.b L))).advance) s

def execPmov (f : Fields) (s : State) : Outcome State Fault Refusal :=
  issue (.pmov f) f false false
    (fun s =>
      let t := match f.d, f.a with
        | .pred n, .pred _ => s.putP n.toNat f (s.srcP f.a)
        | .pred n, a => s.putP n.toNat f (fun L => s.src32 .int true a L ≠ 0)
        | _, a => s.putV f (fun L => if s.srcP a L then 1 else 0)
      t.advance) s

def execBallot (f : Fields) (s : State) : Outcome State Fault Refusal :=
  issue (.ballot f) f false false
    (fun s => (s.putV f (fun L => maskWordOf (s.partP f f.a) (L / 32))).advance) s

def execVote (f : Fields) (s : State) : Outcome State Fault Refusal :=
  issue (.vote f) f false false
    (fun s =>
      let ls := lanesBelow s.me.width (s.part f)
      let p := s.srcP f.a
      let out := match modBits f.m 0 2 with
        | 0 => ls.any p
        | 1 => ls.all p
        | _ => ls.all p || ls.all (fun L => !p L)
      (s.putP f.d.pnum f (fun _ => out)).advance) s

def execLaneid (f : Fields) (s : State) : Outcome State Fault Refusal :=
  issue (.laneid f) f false false
    (fun s => (s.putV f (fun L => BitVec.ofNat 32 (match modBits f.m 0 2 with
      | 0 => L
      | 1 => L % 32
      | _ => L / 32))).advance) s

def execShfl (f : Fields) (s : State) : Outcome State Fault Refusal :=
  issue (.shfl f) f false false
    (fun s => (s.putV f (fun L =>
      s.src32 .int false f.a
        (shflLane (modBits f.m 0 2) (modBits f.m 2 3) s.me.width L (s.src32 .int true f.b L).toNat))).advance) s

def execRedux (f : Fields) (s : State) : Outcome State Fault Refusal :=
  issue (.redux f) f false false
    (fun s =>
      let ls := lanesBelow s.me.width (s.part f)
      (s.putV f (fun L => redOver (modBits f.m 6 3) (f.type = 8) (s.src32 .int false f.a)
        (sameWord (modBits f.m 9 1 = 1) L ls))).advance) s

def execScan (f : Fields) (s : State) : Outcome State Fault Refusal :=
  issue (.scan f) f false false
    (fun s =>
      let ls := lanesBelow s.me.width (s.part f)
      (s.putV f (fun L => redOver (modBits f.m 6 3) (f.type = 8) (s.src32 .int false f.a)
        ((sameWord (modBits f.m 9 1 = 1) L ls).filter (fun j => if modBits f.m 0 1 = 1 then j < L else j ≤ L)))).advance) s

def execMatchLanes (f : Fields) (s : State) : Outcome State Fault Refusal :=
  issue (.matchLanes f) f false false
    (fun s =>
      let ls := lanesBelow s.me.width (s.part f)
      (s.putV f (fun L => wordWhere ls L (fun j =>
        if f.m = 0 then s.src32 .int true f.a j = s.src32 .int true f.a L
        else s.src64 true f.a j = s.src64 true f.a L))).advance) s

def execFirstLane (f : Fields) (s : State) : Outcome State Fault Refusal :=
  issue (.firstLane f) f false false
    (fun s =>
      let yes := s.partP f f.a
      let x := if yes = 0 then 0xFFFFFFFF else BitVec.ofNat 32 (lowest s.me.width yes)
      (s.putV f (fun _ => x)).advance) s

end Sys2Proof.Machine
end

