-- ==== Sys2Proof/Machine/Dispatch.lean ====
section
/-! DEFINITION. The dispatch: one arm for each constructor of Instr, each one direct call of its meaning. -/

namespace Sys2Proof.Machine

def exec (i : Instr) (s : State) : Host.Outcome State Fault Refusal :=
  match i with
  | .nop f => Sys2Proof.Machine.execNop f s
  | .bra f => Sys2Proof.Machine.execBra f s
  | .brx f => Sys2Proof.Machine.execBrx f s
  | .brany f => Sys2Proof.Machine.execBrany f s
  | .brall f => Sys2Proof.Machine.execBrall f s
  | .call f => Sys2Proof.Machine.execCall f s
  | .ret f => Sys2Proof.Machine.execRet f s
  | .reconv f => Sys2Proof.Machine.execReconv f s
  | .exitI f => Sys2Proof.Machine.execExitI f s
  | .yield f => Sys2Proof.Machine.execYield f s
  | .sleep f => Sys2Proof.Machine.execSleep f s
  | .trap f => Sys2Proof.Machine.execTrap f s
  | .brk f => Sys2Proof.Machine.execBrk f s
  | .mskget f => Sys2Proof.Machine.execMskget f s
  | .mskset f => Sys2Proof.Machine.execMskset f s
  | .iadd f => Sys2Proof.Machine.execIadd f s
  | .isub f => Sys2Proof.Machine.execIsub f s
  | .imul f => Sys2Proof.Machine.execImul f s
  | .imulh f => Sys2Proof.Machine.execImulh f s
  | .imad f => Sys2Proof.Machine.execImad f s
  | .imin f => Sys2Proof.Machine.execImin f s
  | .imax f => Sys2Proof.Machine.execImax f s
  | .iabs f => Sys2Proof.Machine.execIabs f s
  | .iaddc f => Sys2Proof.Machine.execIaddc f s
  | .isubb f => Sys2Proof.Machine.execIsubb f s
  | .shl f => Sys2Proof.Machine.execShl f s
  | .shr f => Sys2Proof.Machine.execShr f s
  | .sar f => Sys2Proof.Machine.execSar f s
  | .rotl f => Sys2Proof.Machine.execRotl f s
  | .andI f => Sys2Proof.Machine.execAndI f s
  | .orI f => Sys2Proof.Machine.execOrI f s
  | .xorI f => Sys2Proof.Machine.execXorI f s
  | .andn f => Sys2Proof.Machine.execAndn f s
  | .notI f => Sys2Proof.Machine.execNotI f s
  | .ttab f => Sys2Proof.Machine.execTtab f s
  | .bfe f => Sys2Proof.Machine.execBfe f s
  | .bfi f => Sys2Proof.Machine.execBfi f s
  | .popc f => Sys2Proof.Machine.execPopc f s
  | .clz f => Sys2Proof.Machine.execClz f s
  | .brev f => Sys2Proof.Machine.execBrev f s
  | .prmt f => Sys2Proof.Machine.execPrmt f s
  | .iset f => Sys2Proof.Machine.execIset f s
  | .iadd64 f => Sys2Proof.Machine.execIadd64 f s
  | .imad64 f => Sys2Proof.Machine.execImad64 f s
  | .sel f => Sys2Proof.Machine.execSel f s
  | .mov f => Sys2Proof.Machine.execMov f s
  | .movi f => Sys2Proof.Machine.execMovi f s
  | .fadd f => Sys2Proof.Machine.execFadd f s
  | .fmul f => Sys2Proof.Machine.execFmul f s
  | .ffma f => Sys2Proof.Machine.execFfma f s
  | .fmin f => Sys2Proof.Machine.execFmin f s
  | .fmax f => Sys2Proof.Machine.execFmax f s
  | .fset f => Sys2Proof.Machine.execFset f s
  | .frcp f => Sys2Proof.Machine.execFrcp f s
  | .frsq f => Sys2Proof.Machine.execFrsq f s
  | .fsqrt f => Sys2Proof.Machine.execFsqrt f s
  | .fex2 f => Sys2Proof.Machine.execFex2 f s
  | .flg2 f => Sys2Proof.Machine.execFlg2 f s
  | .frnd f => Sys2Proof.Machine.execFrnd f s
  | .fscl f => Sys2Proof.Machine.execFscl f s
  | .fclass f => Sys2Proof.Machine.execFclass f s
  | .dadd f => Sys2Proof.Machine.execDadd f s
  | .dmul f => Sys2Proof.Machine.execDmul f s
  | .dfma f => Sys2Proof.Machine.execDfma f s
  | .dmin f => Sys2Proof.Machine.execDmin f s
  | .dmax f => Sys2Proof.Machine.execDmax f s
  | .dset f => Sys2Proof.Machine.execDset f s
  | .pkadd f => Sys2Proof.Machine.execPkadd f s
  | .pkmul f => Sys2Proof.Machine.execPkmul f s
  | .pkfma f => Sys2Proof.Machine.execPkfma f s
  | .pkset f => Sys2Proof.Machine.execPkset f s
  | .cvt f => Sys2Proof.Machine.execCvt f s
  | .cvtsi f => Sys2Proof.Machine.execCvtsi f s
  | .cvtdx f => Sys2Proof.Machine.execCvtdx f s
  | .plop f => Sys2Proof.Machine.execPlop f s
  | .pmov f => Sys2Proof.Machine.execPmov f s
  | .ballot f => Sys2Proof.Machine.execBallot f s
  | .vote f => Sys2Proof.Machine.execVote f s
  | .laneid f => Sys2Proof.Machine.execLaneid f s
  | .shfl f => Sys2Proof.Machine.execShfl f s
  | .redux f => Sys2Proof.Machine.execRedux f s
  | .scan f => Sys2Proof.Machine.execScan f s
  | .matchLanes f => Sys2Proof.Machine.execMatchLanes f s
  | .firstLane f => Sys2Proof.Machine.execFirstLane f s
  | .smov f => Sys2Proof.Machine.execSmov f s
  | .smovi f => Sys2Proof.Machine.execSmovi f s
  | .sadd f => Sys2Proof.Machine.execSadd f s
  | .ssub f => Sys2Proof.Machine.execSsub f s
  | .smul f => Sys2Proof.Machine.execSmul f s
  | .sand f => Sys2Proof.Machine.execSand f s
  | .sor f => Sys2Proof.Machine.execSor f s
  | .sxor f => Sys2Proof.Machine.execSxor f s
  | .sshl f => Sys2Proof.Machine.execSshl f s
  | .sshr f => Sys2Proof.Machine.execSshr f s
  | .sset f => Sys2Proof.Machine.execSset f s
  | .ssel f => Sys2Proof.Machine.execSsel f s
  | .sld f => Sys2Proof.Machine.execSld f s
  | .sst f => Sys2Proof.Machine.execSst f s
  | .s2v f => Sys2Proof.Machine.execS2v f s
  | .v2s f => Sys2Proof.Machine.execV2s f s
  | .ld f => Sys2Proof.Machine.execLd f s
  | .st f => Sys2Proof.Machine.execSt f s
  | .ldl f => Sys2Proof.Machine.execLdl f s
  | .stl f => Sys2Proof.Machine.execStl f s
  | .ldw f => Sys2Proof.Machine.execLdw f s
  | .stw f => Sys2Proof.Machine.execStw f s
  | .ldr f => Sys2Proof.Machine.execLdr f s
  | .atom f => Sys2Proof.Machine.execAtom f s
  | .red f => Sys2Proof.Machine.execRed f s
  | .cas f => Sys2Proof.Machine.execCas f s
  | .mdld f => Sys2Proof.Machine.execMdld f s
  | .mdst f => Sys2Proof.Machine.execMdst f s
  | .prf f => Sys2Proof.Machine.execPrf f s
  | .cctl f => Sys2Proof.Machine.execCctl f s
  | .ldq f => Sys2Proof.Machine.execLdq f s
  | .region f => Sys2Proof.Machine.execRegion f s
  | .fence f => Sys2Proof.Machine.execFence f s
  | .rel f => Sys2Proof.Machine.execRel f s
  | .acq f => Sys2Proof.Machine.execAcq f s
  | .waitc f => Sys2Proof.Machine.execWaitc f s
  | .mark f => Sys2Proof.Machine.execMark f s
  | .barinit f => Sys2Proof.Machine.execBarinit f s
  | .bararv f => Sys2Proof.Machine.execBararv f s
  | .barexp f => Sys2Proof.Machine.execBarexp f s
  | .barwait f => Sys2Proof.Machine.execBarwait f s
  | .bartest f => Sys2Proof.Machine.execBartest f s
  | .join f => Sys2Proof.Machine.execJoin f s
  | .leave f => Sys2Proof.Machine.execLeave f s
  | .partyq f => Sys2Proof.Machine.execPartyq f s
  | .spawn f => Sys2Proof.Machine.execSpawn f s
  | .termq f => Sys2Proof.Machine.execTermq f s
  | .accalloc f => Sys2Proof.Machine.execAccalloc f s
  | .accfree f => Sys2Proof.Machine.execAccfree f s
  | .tdef f => Sys2Proof.Machine.execTdef f s
  | .tfree f => Sys2Proof.Machine.execTfree f s
  | .tstat f => Sys2Proof.Machine.execTstat f s
  | .tld f => Sys2Proof.Machine.execTld f s
  | .tst f => Sys2Proof.Machine.execTst f s
  | .cpl f => Sys2Proof.Machine.execCpl f s
  | .cpt f => Sys2Proof.Machine.execCpt f s
  | .cpq f => Sys2Proof.Machine.execCpq f s
  | .cpo f => Sys2Proof.Machine.execCpo f s
  | .qclose f => Sys2Proof.Machine.execQclose f s
  | .qstat f => Sys2Proof.Machine.execQstat f s
  | .mma f => Sys2Proof.Machine.execMma f s
  | .mmas f => Sys2Proof.Machine.execMmas f s
  | .mmx f => Sys2Proof.Machine.execMmx f s
  | .msca f => Sys2Proof.Machine.execMsca f s
  | .msl f => Sys2Proof.Machine.execMsl f s
  | .mzero f => Sys2Proof.Machine.execMzero f s
  | .mlda f => Sys2Proof.Machine.execMlda f s
  | .mcvt f => Sys2Proof.Machine.execMcvt f s
  | .mstat f => Sys2Proof.Machine.execMstat f s
  | .coll f => Sys2Proof.Machine.execColl f s
  | .collDone f => Sys2Proof.Machine.execCollDone f s
  | .rld f => Sys2Proof.Machine.execRld f s
  | .rst f => Sys2Proof.Machine.execRst f s
  | .rstBlk f => Sys2Proof.Machine.execRstBlk f s
  | .rred f => Sys2Proof.Machine.execRred f s
  | .ratom f => Sys2Proof.Machine.execRatom f s
  | .vmask f => Sys2Proof.Machine.execVmask f s
  | .vrsc f => Sys2Proof.Machine.execVrsc f s
  | .msv f => Sys2Proof.Machine.execMsv f s
  | .gangq f => Sys2Proof.Machine.execGangq f s
  | .gangack f => Sys2Proof.Machine.execGangack f s
  | .xmodeStep1 f => Sys2Proof.Machine.execXmodeStep1 f s
  | .xmodeStep2 f => Sys2Proof.Machine.execXmodeStep2 f s
  | .xmodeStep3 f => Sys2Proof.Machine.execXmodeStep3 f s
  | .xmodeExit f => Sys2Proof.Machine.execXmodeExit f s
  | .xprog f => Sys2Proof.Machine.execXprog f s
  | .xcol f => Sys2Proof.Machine.execXcol f s
  | .xread f => Sys2Proof.Machine.execXread f s
  | .xstat f => Sys2Proof.Machine.execXstat f s
  | .xreset f => Sys2Proof.Machine.execXreset f s
  | .afor f => Sys2Proof.Machine.execAfor f s
  | .aend f => Sys2Proof.Machine.execAend f s
  | .qpush f => Sys2Proof.Machine.execQpush f s
  | .await f => Sys2Proof.Machine.execAwait f s
  | .csrr f => Sys2Proof.Machine.execCsrr f s
  | .csrw f => Sys2Proof.Machine.execCsrw f s
  | .replay f => Sys2Proof.Machine.execReplay f s
  | .tlbinv f => Sys2Proof.Machine.execTlbinv f s
  | .evpost f => Sys2Proof.Machine.execEvpost f s
  | .launch f => Sys2Proof.Machine.execLaunch f s
  | .resume f => Sys2Proof.Machine.execResume f s
  | .kill f => Sys2Proof.Machine.execKill f s
  | .ctxopCreate f => Sys2Proof.Machine.execCtxopCreate f s
  | .ctxopActivate f => Sys2Proof.Machine.execCtxopActivate f s
  | .ctxopPreempt f => Sys2Proof.Machine.execCtxopPreempt f s
  | .ctxopRestore f => Sys2Proof.Machine.execCtxopRestore f s
  | .ctxopReset f => Sys2Proof.Machine.execCtxopReset f s
  | .ctxopDestroy f => Sys2Proof.Machine.execCtxopDestroy f s
  | .ctxopQuery f => Sys2Proof.Machine.execCtxopQuery f s
  | .ctxopModify f => Sys2Proof.Machine.execCtxopModify f s
  | .energyq f => Sys2Proof.Machine.execEnergyq f s
  | .execNop => Sys2Proof.Machine.execExecNop s
  | .latch r => Sys2Proof.Machine.execLatch r s
  | .store r => Sys2Proof.Machine.execStore r s
  | .setk sel v => Sys2Proof.Machine.execSetk sel v s
  | .setm sel v => Sys2Proof.Machine.execSetm sel v s
  | .shk d n => Sys2Proof.Machine.execShk d n s
  | .cmp v => Sys2Proof.Machine.execCmp v s
  | .cmpa v => Sys2Proof.Machine.execCmpa v s
  | .cmpo v => Sys2Proof.Machine.execCmpo v s
  | .tnot v => Sys2Proof.Machine.execTnot v s
  | .wr v => Sys2Proof.Machine.execWr v s
  | .wrn v => Sys2Proof.Machine.execWrn v s
  | .tsave f => Sys2Proof.Machine.execTsave f s
  | .tload f => Sys2Proof.Machine.execTload f s
  | .tshf v d n => Sys2Proof.Machine.execTshf v d n s
  | .tcnt v j => Sys2Proof.Machine.execTcnt v j s
  | .tfst v j => Sys2Proof.Machine.execTfst v j s
  | .rdw j w => Sys2Proof.Machine.execRdw j w s
  | .rdwF j v => Sys2Proof.Machine.execRdwF j v s
  | .xout w => Sys2Proof.Machine.execXout w s
  | .xin b w => Sys2Proof.Machine.execXin b w s
  | .execRel sel => Sys2Proof.Machine.execExecRel sel s
  | .execAcq sel => Sys2Proof.Machine.execExecAcq sel s
  | .execFence sel => Sys2Proof.Machine.execExecFence sel s
  | .loop t => Sys2Proof.Machine.execLoop t s
  | .setc n => Sys2Proof.Machine.execSetc n s
  | .halt => Sys2Proof.Machine.execHalt s
  | .rtag v => Sys2Proof.Machine.execRtag v s
  | .xmodeOtherWord f => Sys2Proof.Machine.execXmodeOtherWord f s
  | .illegalWord w => Sys2Proof.Machine.execIllegalWord w s
  | .advance ch => Sys2Proof.Machine.execAdvance ch s
  | .deviceReset => Sys2Proof.Machine.execDeviceReset s
  | .boot valid counter => Sys2Proof.Machine.execBoot valid counter s
  | .repairStep => Sys2Proof.Machine.execRepairStep s
  | .mapStep => Sys2Proof.Machine.execMapStep s
  | .measure => Sys2Proof.Machine.execMeasure s
  | .links => Sys2Proof.Machine.execLinks s
  | .nodeidAssigned id => Sys2Proof.Machine.execNodeidAssigned id s
  | .systemStep => Sys2Proof.Machine.execSystemStep s
  | .drained c => Sys2Proof.Machine.execDrained c s
  | .d1Expires c => Sys2Proof.Machine.execD1Expires c s
  | .d2Expires c => Sys2Proof.Machine.execD2Expires c s
  | .saved c => Sys2Proof.Machine.execSaved c s
  | .saveFault c => Sys2Proof.Machine.execSaveFault c s
  | .restoreComplete c => Sys2Proof.Machine.execRestoreComplete c s
  | .resetDone c => Sys2Proof.Machine.execResetDone c s
  | .producerIndexObserved c q => Sys2Proof.Machine.execProducerIndexObserved c q s
  | .headRead c q => Sys2Proof.Machine.execHeadRead c q s
  | .admission c q => Sys2Proof.Machine.execAdmission c q s
  | .dependenceReread c q => Sys2Proof.Machine.execDependenceReread c q s
  | .placement die => Sys2Proof.Machine.execPlacement die s
  | .stealRequest k thief victim => Sys2Proof.Machine.execStealRequest k thief victim s
  | .stealReply k thief => Sys2Proof.Machine.execStealReply k thief s
  | .remainingCount k src dst count => Sys2Proof.Machine.execRemainingCount k src dst count s
  | .spawnBinTimeout die bin => Sys2Proof.Machine.execSpawnBinTimeout die bin s
  | .zeroNotice k die => Sys2Proof.Machine.execZeroNotice k die s
  | .quiescenceWave k => Sys2Proof.Machine.execQuiescenceWave k s
  | .completionAction k => Sys2Proof.Machine.execCompletionAction k s
  | .controlIntervalBoundary => Sys2Proof.Machine.execControlIntervalBoundary s
  | .priorityPromotion core slot => Sys2Proof.Machine.execPriorityPromotion core slot s
  | .yieldExpires core slot => Sys2Proof.Machine.execYieldExpires core slot s
  | .sleepEnd core slot => Sys2Proof.Machine.execSleepEnd core slot s
  | .waitSatisfied core slot => Sys2Proof.Machine.execWaitSatisfied core slot s
  | .caravanExit core slot => Sys2Proof.Machine.execCaravanExit core slot s
  | .partyDeparture core slot => Sys2Proof.Machine.execPartyDeparture core slot s
  | .accallocGrant core => Sys2Proof.Machine.execAccallocGrant core s
  | .copyBytesLand op => Sys2Proof.Machine.execCopyBytesLand op s
  | .copyComplete op => Sys2Proof.Machine.execCopyComplete op s
  | .sendComplete op => Sys2Proof.Machine.execSendComplete op s
  | .queueEntryVisible core slot q => Sys2Proof.Machine.execQueueEntryVisible core slot q s
  | .heldRecordRetry c cons => Sys2Proof.Machine.execHeldRecordRetry c cons s
  | .channelRequest op => Sys2Proof.Machine.execChannelRequest op s
  | .rfmBlockEnd ch bank => Sys2Proof.Machine.execRfmBlockEnd ch bank s
  | .refreshWindowBoundary ch => Sys2Proof.Machine.execRefreshWindowBoundary ch s
  | .memoryReply op => Sys2Proof.Machine.execMemoryReply op s
  | .releaseComplete core slot => Sys2Proof.Machine.execReleaseComplete core slot s
  | .lineEviction cache asid line => Sys2Proof.Machine.execLineEviction cache asid line s
  | .tlbinvComplete core slot => Sys2Proof.Machine.execTlbinvComplete core slot s
  | .contextRegisterWriteComplete c => Sys2Proof.Machine.execContextRegisterWriteComplete c s
  | .registerWrite va x => Sys2Proof.Machine.execRegisterWrite va x s
  | .replayDoorbell node sctx w => Sys2Proof.Machine.execReplayDoorbell node sctx w s
  | .extentGrant id node base size owner => Sys2Proof.Machine.execExtentGrant id node base size owner s
  | .extentOrderlyRelease id => Sys2Proof.Machine.execExtentOrderlyRelease id s
  | .extentForcedRelease id => Sys2Proof.Machine.execExtentForcedRelease id s
  | .extentWritebackDone id => Sys2Proof.Machine.execExtentWritebackDone id s
  | .armingTimeout ch => Sys2Proof.Machine.execArmingTimeout ch s
  | .exitingComplete ch => Sys2Proof.Machine.execExitingComplete ch s
  | .oboundExpires ch => Sys2Proof.Machine.execOboundExpires ch s
  | .snapshotServed ch => Sys2Proof.Machine.execSnapshotServed ch s
  | .flitCheckFail port flit => Sys2Proof.Machine.execFlitCheckFail port flit s
  | .retrainEntry port => Sys2Proof.Machine.execRetrainEntry port s
  | .trainingComplete port peer peerPort => Sys2Proof.Machine.execTrainingComplete port peer peerPort s
  | .trainingFailed port => Sys2Proof.Machine.execTrainingFailed port s
  | .retrainTimeout port => Sys2Proof.Machine.execRetrainTimeout port s
  | .lctlDisSet port => Sys2Proof.Machine.execLctlDisSet port s
  | .lctlDisClear port => Sys2Proof.Machine.execLctlDisClear port s
  | .remoteRequest r => Sys2Proof.Machine.execRemoteRequest r s
  | .remoteReply op lane out data => Sys2Proof.Machine.execRemoteReply op lane out data s
  | .parkedNotice op lane => Sys2Proof.Machine.execParkedNotice op lane s
  | .fabricTimeout op lane => Sys2Proof.Machine.execFabricTimeout op lane s
  | .peerContextReset c comm => Sys2Proof.Machine.execPeerContextReset c comm s
  | .lossyBlock port b => Sys2Proof.Machine.execLossyBlock port b s
  | .endMarker m => Sys2Proof.Machine.execEndMarker m s
  | .nodeReset node => Sys2Proof.Machine.execNodeReset node s
  | .gangQuery c comm => Sys2Proof.Machine.execGangQuery c comm s
  | .pause c comm cstar => Sys2Proof.Machine.execPause c comm cstar s
  | .gangResume c comm => Sys2Proof.Machine.execGangResume c comm s
  | .instanceDone c comm inst peer => Sys2Proof.Machine.execInstanceDone c comm inst peer s
  | .switchDecline op => Sys2Proof.Machine.execSwitchDecline op s
  | .switchAbort op => Sys2Proof.Machine.execSwitchAbort op s
  | .matrixStart op => Sys2Proof.Machine.execMatrixStart op s
  | .multicastRound die cluster mask tile => Sys2Proof.Machine.execMulticastRound die cluster mask tile s
  | .matrixStop op => Sys2Proof.Machine.execMatrixStop op s
  | .matrixComplete op => Sys2Proof.Machine.execMatrixComplete op s
  | .getVersion => Sys2Proof.Machine.execGetVersion s
  | .getCapabilities => Sys2Proof.Machine.execGetCapabilities s
  | .negotiateAlgorithms => Sys2Proof.Machine.execNegotiateAlgorithms s
  | .getDigests => Sys2Proof.Machine.execGetDigests s
  | .getCertificate => Sys2Proof.Machine.execGetCertificate s
  | .challenge => Sys2Proof.Machine.execChallenge s
  | .getMeasurements index => Sys2Proof.Machine.execGetMeasurements index s
  | .keyExchange => Sys2Proof.Machine.execKeyExchange s
  | .finish => Sys2Proof.Machine.execFinish s
  | .endSession => Sys2Proof.Machine.execEndSession s
  | .loadKey slot key => Sys2Proof.Machine.execLoadKey slot key s
  | .admitHost node => Sys2Proof.Machine.execAdmitHost node s
  | .getBringup => Sys2Proof.Machine.execGetBringup s
  | .setPinned dies caps => Sys2Proof.Machine.execSetPinned dies caps s
  | .powerWindow watts => Sys2Proof.Machine.execPowerWindow watts s
  | .thermalLimit => Sys2Proof.Machine.execThermalLimit s
  | .thermalShutdown => Sys2Proof.Machine.execThermalShutdown s
  | .contextCommand node sctx cmd => Sys2Proof.Machine.execContextCommand node sctx cmd s

end Sys2Proof.Machine
end

