-- ==== Sys2Proof/Machine/Schedule.lean ====
section
/-! DEFINITION. The steps that the device takes by itself when no agent can issue (log 1). -/

namespace Sys2Proof.Machine

open Host (Outcome)

/-- An input or a device step: a row without an encoding, other than the illegal word, which only a fetch brings. -/
def isStep (i : Instr) : Bool :=
  match i with
  | .illegalWord _ => false
  | i => (encode i).isNone

/-- The state that a meaning leaves, where it is another one as far as `sees` sees, or waits for more than before. -/
def State.try_ {β : Type} [DecidableEq β] (s : State) (sees : State → β) (f : State → Outcome State Fault Refusal) :
    Option State :=
  match f s with
  | .next t =>
    if sees t = sees s && t.nextDev = s.nextDev && t.chans.map (·.2.waits) = s.chans.map (·.2.waits) then none else some t
  | _ => none

/-- Bring-up goes on by itself, but for the images (BOOT) and the node id. -/
def State.tryBringUp (s : State) : Option State :=
  [execRepairStep, execMapStep, execMeasure, execLinks, execSystemStep].findSome? (fun f => s.try_ (fun t => (t.dev, t.fab.ports)) f)

/-- An outstanding operation goes on. -/
def State.tryOp (s : State) (o : Op) : Option State :=
  let step (f : Nat → State → Outcome State Fault Refusal) : Option State := s.try_ (fun t => (t.op o.id, t.chans.map (·.2.cmds))) (f o.id)
  let rounds := match o.mx with
    | some m => m.rounds
    | none => []
  [execMemoryReply, execChannelRequest, execSendComplete, execCopyComplete, execCopyBytesLand, execMatrixStart, execMatrixStop].findSome?
    step |>.orElse (fun _ =>
      (rounds.findSome? (fun r =>
        s.try_ (fun t => t.op o.id) (execMulticastRound (dieOfCore o.core) (clusterOfCore o.core) r.1.toNat r.2.2))).orElse (fun _ =>
          step execMatrixComplete))

/-- A wait, a release or an exit of a caravan ends. -/
def State.tryCv (s : State) (k slot : Nat) : Option State :=
  [execWaitSatisfied, execPartyDeparture, execReleaseComplete, execTlbinvComplete, execCaravanExit].findSome?
    (fun f => s.try_ (fun t => (t.cv k slot, (t.core k).fifo)) (f k slot))

/-- The front end goes on with a queue of a context. -/
def State.tryQueue (s : State) (c q : Nat) : Option State :=
  [execHeadRead, execAdmission, execDependenceReread, execProducerIndexObserved].findSome?
    (fun f => s.try_ (fun t => t.queue c q) (f c q))

/-- The dies of a kernel advertise what they have left, and steal (R51). -/
def State.trySteal (s : State) (k : Kernel) : Option State :=
  let see (t : State) : Option Kernel := t.kernel k.kid
  ((List.range 64).findSome? (fun i =>
    s.try_ see (execRemainingCount k.kid (i % 8) (i / 8) (sget Share.none k.shares (i % 8)).count))).orElse (fun _ =>
      (List.range 8).findSome? (fun d => match k.victim d with
        | some v => s.try_ see (execStealRequest k.kid d v)
        | none => none))

/-- A kernel goes on: a steal's reply arrives, its dies advertise and steal, or it ends. -/
def State.tryKernel (s : State) (k : Kernel) : Option State :=
  let see (t : State) : Option Kernel × List Park := (t.kernel k.kid, t.parks)
  match k.replies with
  | p :: _ => s.try_ see (execStealReply k.kid p.1)
  | [] => (s.trySteal k).orElse (fun _ => (s.try_ see (execQuiescenceWave k.kid)).orElse (fun _ =>
      (s.try_ see (execZeroNotice k.kid 0)).orElse (fun _ => s.try_ see (execCompletionAction k.kid))))

/-- A context goes on: its CSRWs, its queues and kernels, the end of a drain, a save, a restore or a reset, held records. -/
def State.tryCtx (s : State) (c : Nat) : Option State :=
  (s.try_ (fun t => t.ctx c) (execContextRegisterWriteComplete c)).orElse (fun _ =>
    ((List.range 8).findSome? (fun q => s.tryQueue c q)).orElse (fun _ =>
      ((s.ctx c).kernels.findSome? (fun k => s.tryKernel k)).orElse (fun _ =>
        ([execDrained, execSaved, execRestoreComplete, execResetDone].findSome? (fun f => s.try_ (fun t => (t.ctx c).st) (f c))).orElse
          (fun _ => s.try_ (fun t => ((t.ctx c).faultq.held, (t.ctx c).eventq.held)) (execHeldRecordRetry c none)))))

/-- A channel takes a command, or a block, an exit or a suspension of it ends. -/
def State.tryChan (s : State) (ch : Nat) : Option State :=
  (s.try_ (fun t => (t.chan ch, t.advOpen)) (execAdvance ch)).orElse (fun _ =>
    ([execExitingComplete, execSnapshotServed].findSome? (fun f => s.try_ (fun t => (t.chan ch).mode) (f ch))).orElse (fun _ =>
      (s.chan ch).blocked.findSome? (fun b => s.try_ (fun t => (t.chan ch).blocked) (execRfmBlockEnd ch b))))

/-- What has come over the fabric and waits goes on, and the records that wait (R112, R134). -/
def State.tryWaits (s : State) : Option State :=
  let due (q : RecQueue) : List Nat × Bool := (q.waiting, q.ovfDue)
  (s.fab.waits.findSome? (fun w => s.try_ (fun t => t.fab.waits) (execChannelRequest w.id))).orElse (fun _ =>
    s.try_ (fun t => t.ctxs.map (fun p => (due p.2.faultq, due p.2.eventq))) (execChannelRequest devOp))

/-- Endpoints that have lost their last way to a peer break (R160). -/
def State.tryRoutes (s : State) : Option State := if (lostComms s).isEmpty then none else some s.loseRoutes

/-- A SLEEP ends. -/
def State.trySleep (s : State) : Option State :=
  s.cvs.findSome? (fun p => s.try_ (fun t => t.cv (p.1 / 16) (p.1 % 16)) (execSleepEnd (p.1 / 16) (p.1 % 16)))

/-- What only time brings about, when nothing else is left to happen. -/
def State.tryTime (s : State) : Option State :=
  s.trySleep.orElse (fun _ =>
    (s.dies.findSome? (fun d => d.2.bins.findSome? (fun b =>
      s.try_ (fun t => (t.die d.1).bins) (execSpawnBinTimeout d.1 b.1)))).orElse (fun _ =>
        (s.chans.findSome? (fun c => s.try_ (fun t => (t.chan c.1).mode) (execOboundExpires c.1))).orElse (fun _ =>
          (s.ctxs.findSome? (fun p => [execD1Expires, execD2Expires].findSome? (fun f =>
            s.try_ (fun t => (t.ctx p.1).st) (f p.1)))).orElse (fun _ =>
              (s.ops.findSome? (fun o => o.remote.findSome? (fun r => s.try_ (fun t => t.ops) (execFabricTimeout o.id r.lane)))).orElse
                (fun _ => s.try_ (fun t => t.ctxs) execControlIntervalBoundary)))))

/-- The device's own steps by kind. -/
def State.kinds : List (State → Option State) :=
  [State.tryBringUp,
   State.tryRoutes,
   State.tryWaits,
   fun s => s.ops.findSome? (fun o => s.tryOp o),
   fun s => s.cvs.findSome? (fun p => s.tryCv (p.1 / 16) (p.1 % 16)),
   fun s => s.cores.findSome? (fun p => s.try_ (fun t => (t.core p.1).accq) (execAccallocGrant p.1)),
   fun s => s.ctxs.findSome? (fun p => s.tryCtx p.1),
   fun s => (List.range 8).findSome? (fun d => s.try_ (fun t => t.cvs) (execPlacement d)),
   fun s => s.chans.findSome? (fun p => s.tryChan p.1),
   fun s => s.extents.findSome? (fun p => s.try_ (fun t => t.extents) (execExtentWritebackDone p.1))]

/-- The next step of the device's own, if one is due; each kind is the first to be looked at in its turn. -/
def State.internal (s : State) : Option State :=
  let n := s.clock / 8 % State.kinds.length
  (State.kinds.drop n ++ State.kinds.take n).findSome? (fun f => f s)

/-- Now and then the device's own steps and the end of a SLEEP come before the agents' turns, so that an agent that never
waits holds nothing up. -/
def State.due (s : State) : Option State :=
  if s.clock % 256 = 0 then s.trySleep else if s.clock % 8 = 0 then s.internal else none

end Sys2Proof.Machine
end

