-- ==== Sys2Proof/Machine/Step.lean ====
section
/-! DEFINITION. One step of the machine, and the placing of an instruction for the next step. -/

namespace Sys2Proof.Machine

/-- The agent whose turn it is fetches its instruction, and the instruction is executed. -/
def State.runAgent (s : State) : Host.Outcome State Fault Refusal :=
  match s.fetch with
  | (u, none) => .next u
  | (u, some w) => exec (u.decoded w) u

/-- One step (log 1); nothing of another step's accesses is left to wait for. A record that has been made is posted before anything
else; then the executors of an open advance run, one a step; then the next turn, and with none given the turns go round, and the
device's own steps follow. -/
def step (s : State) : Host.Outcome State Fault Refusal :=
  let s := { s with clock := s.clock + 1, want := .nothing }
  match s.posts with
  | _ :: _ => .next s.postNext
  | [] =>
    match s.advOpen, s.advTodo with
    | some _, n :: r => exWordRun exec (s.exWord n) { s with bank := n, advTodo := r }
    | some ch, [] => .next (s.closeAdvance ch)
    | none, _ =>
      match s.agenda with
      | .input i :: r => if isStep i then exec i { s with agenda := r } else .next { s with agenda := r }
      | .unit k b :: r =>
        match { s with agenda := r }.takeTurn k b with
        | some t => t.runAgent
        | none => .next { s with agenda := r }
      | [] =>
        match s.due with
        | some t => .next t
        | none =>
          match s.nextTurn with
          | some t => t.runAgent
          | none =>
            match s.internal.orElse (fun _ => s.tryTime) with
            | some t => .next t
            | none => .next s

/-- s with an instruction of nbits bits where step fetches its next one (log 16). -/
def State.withFetchWord (s : State) (nbits w : Nat) : State := s.placeWord nbits w

end Sys2Proof.Machine
end

