-- ==== Sys2Proof/Safety.lean ====
section
/-! DEFINITION. The words in which claims speak of a run: when an instruction of the issuing agent gets as far as its own
effect (R211, R221), and what an effect of a usual shape leaves changed and unchanged. -/

namespace Sys2Proof.Machine

open Host (Outcome)

/-! ## When an instruction executes -/

/-- The issuing caravan runs: READY or TRAPPED, with an active lane, and no deferred trap falls due after its instruction
(R64, R337). -/
structure Running (s : State) : Prop where
  state : s.me.st = .ready ∨ s.me.st = .trapped
  lanes : s.me.mask ≠ 0
  table : s.me.pending = true → s.me.trap.npc < 32

/-- A per-lane instruction of a caravan passes every check of R221, and at least one lane takes part (R218). -/
structure LaneRuns (i : Instr) (f : Fields) (s : State) : Prop where
  caravan : s.cur.slice = false
  legal   : legal i = true
  limits  : limitsOk s i f = true
  part    : s.part f ≠ 0
  runs    : Running s

/-- An instruction that executes once for its caravan passes every check of R221, and its guard is true (R211). -/
structure OnceRuns (i : Instr) (f : Fields) (s : State) : Prop where
  caravan : s.cur.slice = false
  legal   : legal i = true
  limits  : limitsOk s i f = true
  guard   : s.caravanGuard f = true
  runs    : Running s

/-- The same of an access slice, whose guard is 63 and not negated (R94, R211). -/
structure SliceRuns (i : Instr) (f : Fields) (s : State) : Prop where
  slice  : s.cur.slice = true
  runs   : s.me.slice.st = .running
  legal  : legal i = true
  may    : sliceMay i = true
  limits : limitsOk s i f = true
  guard  : f.g.pred = 63 ∧ f.g.neg = false

/-- An instruction that either agent may issue executes. -/
def AgentRuns (i : Instr) (f : Fields) (s : State) : Prop := OnceRuns i f s ∨ SliceRuns i f s

/-- No access of the device's own is left over: none is waited for, and no used-up answer of another node is kept; so at the start of
every step. -/
structure Unasked (s : State) : Prop where
  want    : s.want = .nothing
  answers : ∀ o ∈ s.ops, o.kind.asked.isSome = true → o.done = false

/-- No MARK of the issuing caravan, nor of its party, orders anything (R207, R208). -/
def Unmarked (s : State) : Prop := s.me.marks = [] ∧ s.me.follows = [] ∧ s.me.marked = []

/-- An operation that has nothing to serve. -/
def nothingServed (s : State) (vals : List (Nat × BitVec 128)) : Served :=
  { s := s, vals := vals, causes := [], parks := [], todo := [], remote := [] }

/-! ## Frames -/

/-- Only the issuing caravan's own entry differs: memory, the other caravans, operations, cores, channels, contexts and
the fabric are as before. -/
def OnlyMe (s t : State) : Prop := t = s.setMe t.me

/-- t is s after a per-lane instruction: the registers and predicates read as given, lane by lane, `fl` is raised, the
caravan goes on at the next instruction, and nothing else of the machine differs. -/
structure LaneEffect (s t : State) (reg : Nat → Nat → W32) (pred : Nat → Nat → Bool) (fl : Flag) : Prop where
  only  : OnlyMe s t
  regs  : ∀ r L, L < 1024 → t.me.reg r L = reg r L
  preds : ∀ n L, L < 1024 → (t.me.pred n).getLsbD L = pred n L
  flags : t.me.flags = s.me.flags ||| fl
  pc    : t.me.pc = s.me.pc + 12
  rest  : { t.me with win := s.me.win, slots := s.me.slots, swr := s.me.swr, preds := s.me.preds, flags := s.me.flags,
                      pc := s.me.pc } = s.me

/-- The registers with `v` in register k of the lanes of `part`. -/
def withV (s : State) (k : Nat) (part : Mask) (v : Nat → W32) (r L : Nat) : W32 :=
  if r = k ∧ L < s.me.width ∧ part.getLsbD L = true then v L else s.me.reg r L

/-- The same of a register pair: the even register holds the low half (R168). -/
def withV64 (s : State) (k : Nat) (part : Mask) (v : Nat → W64) (r L : Nat) : W32 :=
  if r = k ∧ L < s.me.width ∧ part.getLsbD L = true then (v L).setWidth 32
  else if r = k + 1 ∧ L < s.me.width ∧ part.getLsbD L = true then ((v L) >>> 32).setWidth 32
  else s.me.reg r L

/-- The predicates as they were, and with `v` in predicate n of the lanes of `part`. -/
def predsOf (s : State) (n L : Nat) : Bool := (s.me.pred n).getLsbD L
def withP (s : State) (n : Nat) (part : Mask) (v : Nat → Bool) (m L : Nat) : Bool :=
  if m = n ∧ part.getLsbD L = true then decide (L < s.me.width) && v L else predsOf s m L

/-- t is s after an instruction of either agent that writes S register n of that agent (R93). -/
structure WroteS (s t : State) (n : Nat) (x : W64) : Prop where
  only  : OnlyMe s t
  regs  : ∀ m, t.sreg m = if m = n then x else s.sreg m
  pc    : t.pc = s.pc + 12
  rest  : if s.cur.slice then
      { t.me with slice := { t.me.slice with sregs := s.me.slice.sregs, pc := s.me.slice.pc } } = s.me
    else { t.me with sregs := s.me.sregs, pc := s.me.pc } = s.me

/-- t is s but for the PC of the issuing agent, which is x. -/
structure WentTo (s t : State) (x : W64) : Prop where
  only : OnlyMe s t
  pc   : t.pc = x
  rest : if s.cur.slice then { t.me with slice := { t.me.slice with pc := s.me.slice.pc } } = s.me
    else { t.me with pc := s.me.pc } = s.me

/-- The flags of the lanes of a set, together (R167). -/
def flagsOf (s : State) (f : Fields) (fl : Nat → Flag) : Flag := lanesFlags s.me.width (s.part f) fl

/-- The outcome is a next state that differs as a per-lane instruction leaves it. -/
def NextLanes (o : Outcome State Fault Refusal) (s : State) (reg : Nat → Nat → W32) (pred : Nat → Nat → Bool) (fl : Flag) :
    Prop := ∃ t, o = .next t ∧ LaneEffect s t reg pred fl

/-- Register d holds `v`, and its flags are raised, in the lanes that take part. -/
def NextV (o : Outcome State Fault Refusal) (s : State) (f : Fields) (v : Nat → W32 × Flag) : Prop :=
  NextLanes o s (withV s f.d.vreg (s.part f) (fun L => (v L).1)) (predsOf s) (flagsOf s f (fun L => (v L).2))

/-- The same of a register pair. -/
def NextV64 (o : Outcome State Fault Refusal) (s : State) (f : Fields) (v : Nat → W64 × Flag) : Prop :=
  NextLanes o s (withV64 s f.d.vreg (s.part f) (fun L => (v L).1)) (predsOf s) (flagsOf s f (fun L => (v L).2))

/-- The same of predicate d. -/
def NextP (o : Outcome State Fault Refusal) (s : State) (f : Fields) (v : Nat → Bool × Flag) : Prop :=
  NextLanes o s s.me.reg (withP s f.d.pnum (s.part f) (fun L => (v L).1)) (flagsOf s f (fun L => (v L).2))

/-- S register d of the issuing agent holds x. -/
def NextS (o : Outcome State Fault Refusal) (s : State) (f : Fields) (x : W64) : Prop :=
  ∃ t, o = .next t ∧ WroteS s t f.d.sreg x

/-- The issuing agent goes on at x, and nothing else differs. -/
def NextPc (o : Outcome State Fault Refusal) (s : State) (x : W64) : Prop := ∃ t, o = .next t ∧ WentTo s t x

/-- A caravan cause of the issuing agent (R335), and what R63 asks of a caravan after it. -/
def stops (s : State) (x : CvCause) : State :=
  if s.cur.slice then s.raiseCv x else (s.raiseCv x).settle s.cur.core s.cur.slot

/-- The same of an instruction that makes its accesses as one, whose used-up answers go. -/
def stopsWhole (s : State) (x : CvCause) : State := (s.raiseCv x).dropAnswers.settle s.cur.core s.cur.slot

/-- TILE_STATE of the issuing agent; `err`: the tile has ERR (R86). -/
def tileStops (s : State) (err : Bool) : State :=
  if s.cur.slice then s.raiseTile err else (s.raiseTile err).settle s.cur.core s.cur.slot

/-- The issuing agent waits; its instruction issues again when the wait is over (R64, R93). -/
def waits (s : State) (w : Wait) : State :=
  if s.cur.slice then s.setMe { s.me with slice := { s.me.slice with st := .blocked, wait := w } }
  else s.setMe { s.me with st := .blocked, wait := w }

/-- The issuing agent goes on at the next instruction. -/
def goesOn (s : State) : State :=
  if s.cur.slice then s.setMe { s.me with slice := { s.me.slice with pc := s.me.slice.pc + 12 } }
  else s.setMe { s.me with pc := s.me.pc + 12 }

/-! ## Taking a trap (R338 to R344) -/

/-- The trap record of the issuing caravan as a trap at a caravan cause fills it (R341, R344). -/
def trapFilled (s : State) (cause : CvCause) (rpc : W64) (code : BitVec 16) : TrapRec :=
  { s.me.trap with taken := true, twhy := 1, rpc := rpc, tmask := s.me.mask, depth := s.me.depth,
                   ccause := BitVec.ofNat 8 cause.code, cpc := s.pc, code := code,
                   summary := lowestCause s.me.trap.summary cause.code }

/-- The issuing caravan in its handler (R344): TRAPPED at TRAPBASE, with the lanes that were active and those deferred. -/
def inHandler (s : State) (t : TrapRec) : Caravan :=
  { s.me with trap := t, st := .trapped, mask := t.tmask ||| t.dmask, pc := s.myCtx.trapbase, wait := .none, stall := .none }

/-- The plain writes of the trap record and of the stack copy by the caravan as `s` holds it all pass (R344 step 3); nothing else
is waited for, as at the start of every step. -/
def RecordPasses (s : State) : Prop :=
  s.want = .nothing ∧
  let u : User := { ctx := s.me.ctx, core := some s.cur.core, copy := false, fetch := false, priv := false, op := devOp,
                    who := some { core := s.cur.core, slot := s.cur.slot, slice := false } }
  let va := trapSlotVa s s.cur.core s.cur.slot
  let a := s.cvWrites u va 304 s.me.trap.image
  a.2 = none ∧
    (a.1.cvWrites u (va + 0x1300) (18 * s.me.trap.depth) (stackImage (s.me.stack.take (2 * s.me.trap.depth)))).2 = none

/-! ## Instructions that leave an operation outstanding (R73, R264) -/

/-- The operation that the issuing agent's instruction leaves outstanding, served as `a` says. -/
def opFor (s : State) (f : Fields) (cls : Cls) (kind : OpKind) (a : Served) : Op :=
  { id := s.nextOp, core := s.cur.core, cslot := s.cur.slot, slice := s.cur.slice, ctx := s.me.ctx, kid := s.me.kid,
    cls := cls, tok := if f.h.setv && kind.hasDest then some f.h.setk.toNat else none, pc := s.pc, kind := kind,
    todo := a.todo, remote := a.remote, held := [], vals := a.vals, done := false }

/-- The requests `lanes` are served without a cause or a park, from state `s0`: the outcome is the next state in which the
operation is the youngest outstanding one, other nodes' requests are sent, and the issuing caravan goes on at the next
instruction, otherwise as it was in s0 but for the words of its own register window that the accesses write (R68). -/
def NextServed (o : Outcome State Fault Refusal) (s0 : State) (f : Fields) (cls : Cls) (kind : OpKind)
    (lanes : List (List Req)) : Prop :=
  let a := serve s0 (s0.user s0.nextOp) kind.zeroes [] lanes
  a.causes = [] → a.parks = [] →
    ∃ t, o = .next t ∧ a.s.cur = s0.cur ∧ { a.s.me with win := s0.me.win } = s0.me ∧
      t = ({ a.s with ops := a.s.ops ++ [opFor s0 f cls kind a], nextOp := s0.nextOp + 1 }.sendRequests s0.nextOp s0.me.ctx
        a.remote).setMe { a.s.me with pc := s0.me.pc + 12 }

/-! ## Completion -/

/-- The issuing agent has gone on at the next instruction, with the lanes, the state and the handler that it had. -/
structure WentOn (s t : State) : Prop where
  cur   : t.cur = s.cur
  pc    : t.pc = s.pc + 12
  lanes : t.me.mask = s.me.mask
  state : t.me.st = s.me.st
  slice : s.cur.slice = true → t.me.slice.st = s.me.slice.st
  taken : t.me.trap.taken = s.me.trap.taken

/-- It has left one operation of class c outstanding, under the next number (R73). -/
def LeftOp (s t : State) (c : Cls) : Prop :=
  t.nextOp = s.nextOp + 1 ∧
    ∃ o ∈ t.ops, o.id = s.nextOp ∧ o.cls = c ∧ o.agent = s.cur ∧ o.pc = s.pc ∧ o.done = false

/-- The requests of an operation of this kind, served from s, record no cause and meet no page that parks them. -/
def Passes (s : State) (kind : OpKind) (lanes : List (List Req)) : Prop :=
  let a := serve s (s.user s.nextOp) kind.zeroes [] lanes
  a.causes = [] ∧ a.parks = []

/-! ## Checks at issue (R211, R221 to R224) -/

/-- Instructions that act lane by lane, each lane under its own guard; the others execute once for their agent (R211). -/
def perLane : Instr → Bool
  | .ld _ | .st _ | .ldl _ | .stl _ | .ldw _ | .stw _ | .ldr _ | .atom _ | .red _ | .cas _ | .mdld _ | .mdst _ | .prf _
  | .cctl _ | .rld _ | .rst _ | .ratom _ | .msv _ | .vmask _ | .vrsc _ | .spawn _ | .tld _ | .tst _ => true
  | .iadd _ | .isub _ | .imul _ | .imulh _ | .imad _ | .imin _ | .imax _ | .iabs _ | .iaddc _ | .isubb _ | .shl _ | .shr _
  | .sar _ | .rotl _ | .andI _ | .orI _ | .xorI _ | .andn _ | .notI _ | .ttab _ | .bfe _ | .bfi _ | .popc _ | .clz _
  | .brev _ | .prmt _ | .iset _ | .iadd64 _ | .imad64 _ | .sel _ | .mov _ | .movi _ => true
  | .fadd _ | .fmul _ | .ffma _ | .fmin _ | .fmax _ | .fset _ | .frcp _ | .frsq _ | .fsqrt _ | .fex2 _ | .flg2 _ | .frnd _
  | .fscl _ | .fclass _ | .dadd _ | .dmul _ | .dfma _ | .dmin _ | .dmax _ | .dset _ | .pkadd _ | .pkmul _ | .pkfma _
  | .pkset _ | .cvt _ | .cvtsi _ | .cvtdx _ => true
  | .plop _ | .pmov _ | .ballot _ | .vote _ | .laneid _ | .shfl _ | .redux _ | .scan _ | .matchLanes _ | .firstLane _ => true
  | _ => false

/-- Instructions that only a privileged context may issue (R224). -/
def privileged : Instr → Bool
  | .xmodeStep1 _ | .xmodeStep2 _ | .xmodeStep3 _ | .xmodeExit _ | .xmodeOtherWord _ | .xreset _ | .replay _ | .tlbinv _ => true
  | .ctxopCreate _ | .ctxopActivate _ | .ctxopPreempt _ | .ctxopRestore _ | .ctxopReset _ | .ctxopDestroy _ | .ctxopQuery _
  | .ctxopModify _ => true
  | .csrw f => isRwp f.d.csrNum
  | .launch f => modBits f.m 9 1 = 1
  | .energyq f => f.a.immU < 8
  | _ => false

/-- The instruction passes checks 2 to 5 for the agent that issues it (R221). -/
def admitted (s : State) (i : Instr) (f : Fields) : Bool :=
  legal i && (if s.cur.slice then sliceMay i && f.g.pred = 63 else !sliceOnly i)

/-- The instruction has no effect under its guard (R211). -/
def guardedOff (s : State) (i : Instr) (f : Fields) : Bool :=
  if s.cur.slice then f.g.neg else if perLane i then s.part f = 0 else !s.caravanGuard f

end Sys2Proof.Machine
end

