-- ==== Sys2Proof/Certificates/Slice0/Obligations.lean ====
section
/-! DEFINITION. The statements about the model: each is a proposition, none is proved here. -/

open Host (Outcome)
open Sys2Proof Sys2Proof.Machine

/-! ## Integer (R239 to R242) -/

/-- The 32-bit results of the integer class in every lane that takes part, with nothing else changed but the PC
(R239, R242). The saturating forms of IADD, ISUB and IABS are `IntegerSaturates`. -/
def Obligations.IntegerLaneResults : Prop :=
  ∀ (s : State) (f : Fields),
    let a := fun L => s.src32 .int false f.a L
    let b := fun L => s.src32 .int false f.b L
    let ua := fun L => s.src32 .int true f.a L
    let ub := fun L => s.src32 .int true f.b L
    let d := fun L => s.me.reg f.d.vreg L
    (LaneRuns (.imul f) f s → NextV (exec (.imul f) s) s f (fun L => (a L * b L, 0))) ∧
    (LaneRuns (.imulh f) f s → NextV (exec (.imulh f) s) s f (fun L =>
      (if f.type = 8 then BitVec.ofInt 32 ((a L).toInt * (b L).toInt / 2 ^ 32)
        else BitVec.ofNat 32 ((a L).toNat * (b L).toNat / 2 ^ 32), 0))) ∧
    (LaneRuns (.imad f) f s → NextV (exec (.imad f) s) s f (fun L => (a L * b L + d L, 0))) ∧
    (LaneRuns (.imin f) f s → NextV (exec (.imin f) s) s f (fun L =>
      (if f.type = 8 then (if (b L).toInt < (a L).toInt then b L else a L)
        else if (b L).toNat < (a L).toNat then b L else a L, 0))) ∧
    (LaneRuns (.imax f) f s → NextV (exec (.imax f) s) s f (fun L =>
      (if f.type = 8 then (if (a L).toInt < (b L).toInt then b L else a L)
        else if (a L).toNat < (b L).toNat then b L else a L, 0))) ∧
    (LaneRuns (.shl f) f s → NextV (exec (.shl f) s) s f (fun L =>
      (if (ub L).toNat ≥ 32 then 0 else ua L <<< (ub L).toNat, 0))) ∧
    (LaneRuns (.shr f) f s → NextV (exec (.shr f) s) s f (fun L =>
      (if (ub L).toNat ≥ 32 then 0 else ua L >>> (ub L).toNat, 0))) ∧
    (LaneRuns (.sar f) f s → NextV (exec (.sar f) s) s f (fun L =>
      ((ua L).sshiftRight (min (ub L).toNat 31), 0))) ∧
    (LaneRuns (.rotl f) f s → NextV (exec (.rotl f) s) s f (fun L =>
      ((ua L).rotateLeft ((ub L).toNat % 32), 0))) ∧
    (LaneRuns (.andI f) f s → NextV (exec (.andI f) s) s f (fun L => (ua L &&& ub L, 0))) ∧
    (LaneRuns (.orI f) f s → NextV (exec (.orI f) s) s f (fun L => (ua L ||| ub L, 0))) ∧
    (LaneRuns (.xorI f) f s → NextV (exec (.xorI f) s) s f (fun L => (ua L ^^^ ub L, 0))) ∧
    (LaneRuns (.andn f) f s → NextV (exec (.andn f) s) s f (fun L => (ua L &&& ~~~(ub L), 0))) ∧
    (LaneRuns (.notI f) f s → NextV (exec (.notI f) s) s f (fun L => (~~~(ua L), 0))) ∧
    (LaneRuns (.ttab f) f s → NextV (exec (.ttab f) s) s f (fun L =>
      (truthTable (modBits f.m 0 8) (d L) (ua L) (ub L), 0))) ∧
    (LaneRuns (.bfe f) f s → NextV (exec (.bfe f) s) s f (fun L => (bitExtract (f.type = 8) (ua L) (ub L), 0))) ∧
    (LaneRuns (.bfi f) f s → NextV (exec (.bfi f) s) s f (fun L => (bitInsert (d L) (ua L) (ub L), 0))) ∧
    (LaneRuns (.popc f) f s → NextV (exec (.popc f) s) s f (fun L => (popCount32 (ua L), 0))) ∧
    (LaneRuns (.clz f) f s → NextV (exec (.clz f) s) s f (fun L => (leadingZeros (ua L), 0))) ∧
    (LaneRuns (.brev f) f s → NextV (exec (.brev f) s) s f (fun L => (reverseBits (ua L), 0))) ∧
    (LaneRuns (.prmt f) f s → NextV (exec (.prmt f) s) s f (fun L => (permute (d L) (ua L) (ub L), 0))) ∧
    (LaneRuns (.sel f) f s → NextV (exec (.sel f) s) s f (fun L =>
      (if (s.me.pred (modBits f.m 0 6)).getLsbD L then a L else b L, 0))) ∧
    (LaneRuns (.movi f) f s → NextV (exec (.movi f) s) s f (fun _ => (imm32 f.a f.b, 0))) ∧
    (LaneRuns (.mov f) f s → f.m = 0 → NextV (exec (.mov f) s) s f (fun L => (a L, 0)))

/-- IADD, ISUB and IABS: the exact result wraps, or is clamped under .SAT with FLAGS.SAT raised when the clamp changes it
(R241). -/
def Obligations.IntegerSaturates : Prop :=
  ∀ (s : State) (f : Fields),
    let val := fun (x : W32) => if f.type = 8 then x.toInt else (x.toNat : Int)
    let lo : Int := if f.type = 8 then -2 ^ 31 else 0
    let hi : Int := if f.type = 8 then 2 ^ 31 - 1 else 2 ^ 32 - 1
    let out := fun (lo hi x : Int) =>
      if modBits f.m 9 1 = 1 then (BitVec.ofInt 32 (max lo (min hi x)), if x < lo ∨ hi < x then fSAT else 0)
      else (BitVec.ofInt 32 x, (0 : Flag))
    let a := fun L => s.src32 .int false f.a L
    let b := fun L => s.src32 .int false f.b L
    (LaneRuns (.iadd f) f s → NextV (exec (.iadd f) s) s f (fun L => out lo hi (val (a L) + val (b L)))) ∧
    (LaneRuns (.isub f) f s → NextV (exec (.isub f) s) s f (fun L => out lo hi (val (a L) - val (b L)))) ∧
    (LaneRuns (.iabs f) f s → NextV (exec (.iabs f) s) s f (fun L =>
      out (-2 ^ 31) (2 ^ 31 - 1) ((a L).toInt.natAbs : Int))) ∧
    (out (-2 ^ 31) (2 ^ 31 - 1) (2 ^ 31) = if modBits f.m 9 1 = 1 then (0x7FFFFFFF, fSAT) else (0x80000000, 0)) ∧
    (∀ i ∈ [Instr.imul f, .imulh f, .imad f, .imin f, .imax f, .iaddc f, .isubb f, .shl f, .shr f, .sar f, .rotl f, .andI f, .orI f,
        .xorI f, .andn f, .notI f, .ttab f, .bfe f, .bfi f, .popc f, .clz f, .brev f, .prmt f, .iset f, .iadd64 f, .imad64 f, .sel f,
        .mov f, .movi f, .plop f, .pmov f, .ballot f, .vote f, .laneid f, .shfl f, .redux f, .scan f, .matchLanes f, .firstLane f],
      LaneRuns i f s → ∀ t, exec i s = .next t → t.me.flags = s.me.flags) ∧
    (∀ i ∈ [Instr.nop f, .bra f, .brx f, .call f, .ret f, .brany f, .brall f, .reconv f, .exitI f, .yield f, .sleep f, .trap f, .brk f,
        .mskget f, .mskset f, .smov f, .smovi f, .sadd f, .ssub f, .smul f, .sand f, .sor f, .sxor f, .sshl f, .sshr f, .sset f, .ssel f,
        .sld f, .sst f, .s2v f, .v2s f], OnceRuns i f s → ∀ t, exec i s = .next t → t.me.flags = s.me.flags)

/-- Register pairs: IADD64, IMAD64 and MOV.64 write the even register and the next, in every lane that takes part
(R168, R239). -/
def Sys2Proof.Claims.IntegerPairResults : Prop :=
  ∀ (s : State) (f : Fields),
    let a := fun L => s.src64 false f.a L
    let b := fun L => s.src64 false f.b L
    let ext := fun (x : W32) => if f.type = 8 then x.signExtend 64 else x.setWidth 64
    (LaneRuns (.iadd64 f) f s → NextV64 (exec (.iadd64 f) s) s f (fun L => (a L + b L, 0))) ∧
    (LaneRuns (.imad64 f) f s → NextV64 (exec (.imad64 f) s) s f (fun L =>
      (ext (s.src32 .int false f.a L) * ext (s.src32 .int false f.b L) + s.me.reg64 f.d.vreg L, 0))) ∧
    (LaneRuns (.mov f) f s → f.m ≠ 0 → NextV64 (exec (.mov f) s) s f (fun L => (a L, 0)))

/-- IADDC and ISUBB: the sum or difference with the carry predicate, which takes the carry or borrow out in the lanes that
take part; ISET writes its predicate there (R239, R242). -/
def Sys2Proof.Claims.IntegerCarryAndCompare : Prop :=
  ∀ (s : State) (f : Fields),
    let a := fun L => s.src32 .int false f.a L
    let b := fun L => s.src32 .int false f.b L
    let c := fun L => if (s.me.pred (modBits f.m 0 6)).getLsbD L then 1 else 0
    let next := fun (o : Outcome State Fault Refusal) (v : Nat → W32) (q : Nat → Bool) =>
      NextLanes o s (withV s f.d.vreg (s.part f) v) (withP s (modBits f.m 0 6) (s.part f) q) 0
    (LaneRuns (.iaddc f) f s → next (exec (.iaddc f) s) (fun L => a L + b L + BitVec.ofNat 32 (c L))
      (fun L => decide ((a L).toNat + (b L).toNat + c L ≥ 2 ^ 32))) ∧
    (LaneRuns (.isubb f) f s → next (exec (.isubb f) s) (fun L => a L - b L - BitVec.ofNat 32 (c L))
      (fun L => decide ((a L).toNat < (b L).toNat + c L))) ∧
    (LaneRuns (.iset f) f s → NextP (exec (.iset f) s) s f (fun L =>
      let x : Int := if f.type = 8 then (a L).toInt else (a L).toNat
      let y : Int := if f.type = 8 then (b L).toInt else (b L).toNat
      (match modBits f.m 6 3 with
        | 0 => decide (x = y)
        | 1 => decide (x ≠ y)
        | 2 => decide (x < y)
        | 3 => decide (x ≤ y)
        | 4 => decide (x > y)
        | _ => decide (x ≥ y), 0)))

/-- BFE, BFI and PRMT by their controls, TTAB by its table, POPC, CLZ and BREV, bit by bit (R239, R240). -/
def Sys2Proof.Claims.IntegerBitFunctions : Prop :=
  ∀ (a b d : W32) (tab i : Nat), i < 32 →
    let pos := min (b.toNat % 256) 32
    let len := min (b.toNat / 256 % 256) 32
    let g := fun (sx : Bool) (j : Nat) => if pos + j ≤ 31 then a.getLsbD (pos + j) else sx && a.getLsbD 31
    (∀ sx, (bitExtract sx a b).getLsbD i =
      if len = 0 then false else if i < len then g sx i else sx && g sx (len - 1)) ∧
    (bitInsert d a b).getLsbD i = (if pos ≤ i ∧ i < pos + len then a.getLsbD (i - pos) else d.getLsbD i) ∧
    (truthTable tab d a b).getLsbD i =
      tab.testBit (4 * (d.getLsbD i).toNat + 2 * (a.getLsbD i).toNat + (b.getLsbD i).toNat) ∧
    (let byte := ((b ++ a).extractLsb' (8 * (d.toNat / 2 ^ (4 * (i / 8)) % 8)) 8 : BitVec 8);
      (permute d a b).getLsbD i = if d.getLsbD (4 * (i / 8) + 3) then byte.getLsbD 7 else byte.getLsbD (i % 8)) ∧
    (popCount32 a).toNat = ((List.range 32).map (fun j => (a.getLsbD j).toNat)).sum ∧
    (reverseBits a).getLsbD i = a.getLsbD (31 - i) ∧
    (a = 0 → leadingZeros a = 32) ∧
    (a ≠ 0 → (leadingZeros a).toNat < 32 ∧ a.getLsbD (31 - (leadingZeros a).toNat) = true ∧
      (i > 31 - (leadingZeros a).toNat → a.getLsbD i = false))

/-- IntegerPairResults, IntegerCarryAndCompare and IntegerBitFunctions together. -/
def Obligations.IntegerPairAndBitResults : Prop :=
  Sys2Proof.Claims.IntegerPairResults ∧ Sys2Proof.Claims.IntegerCarryAndCompare ∧ Sys2Proof.Claims.IntegerBitFunctions

/-! ## Lanes and predicates (R243 to R245) -/

/-- The lane and predicate class: what each lane that takes part receives (R243). Cross-lane values come from the lanes that
take part and no others. -/
def Obligations.LaneResults : Prop :=
  ∀ (s : State) (f : Fields),
    let a := fun L => s.src32 .int false f.a L
    let part := fun L => decide (L < s.me.width) && (s.part f).getLsbD L
    let p := fun (o : Operand) L => (s.me.pred o.pnum).getLsbD L
    let lanes := (List.range s.me.width).filter part
    let yes := lanes.filter (p f.a)
    (LaneRuns (.plop f) f s → NextP (exec (.plop f) s) s f (fun L =>
      (decide (modBits f.m 0 8 / 2 ^ (4 * (p f.d L).toNat + 2 * (p f.a L).toNat + (p f.b L).toNat) % 2 = 1), 0))) ∧
    (LaneRuns (.pmov f) f s → f.d.isP = true → f.a.isP = true → NextP (exec (.pmov f) s) s f (fun L => (p f.a L, 0))) ∧
    (LaneRuns (.pmov f) f s → f.d.isP = true → f.a.isP = false →
      NextP (exec (.pmov f) s) s f (fun L => (decide (a L ≠ 0), 0))) ∧
    (LaneRuns (.pmov f) f s → f.d.isP = false → NextV (exec (.pmov f) s) s f (fun L => (if p f.a L then 1 else 0, 0))) ∧
    (LaneRuns (.ballot f) f s → NextV (exec (.ballot f) s) s f (fun L =>
      (BitVec.ofNat 32 ((yes.filter (fun j => j / 32 = L / 32)).map (fun j => 2 ^ (j % 32))).sum, 0))) ∧
    (LaneRuns (.vote f) f s → NextP (exec (.vote f) s) s f (fun _ =>
      (match modBits f.m 0 2 with
        | 0 => lanes.any (p f.a)
        | 1 => lanes.all (p f.a)
        | _ => lanes.all (fun j => lanes.all (fun k => p f.a j == p f.a k)), 0))) ∧
    (LaneRuns (.laneid f) f s → NextV (exec (.laneid f) s) s f (fun L =>
      (BitVec.ofNat 32 (match modBits f.m 0 2 with
        | 0 => L
        | 1 => L % 32
        | _ => L / 32), 0))) ∧
    (LaneRuns (.shfl f) f s → NextV (exec (.shfl f) s) s f (fun L =>
      (a (shflLane (modBits f.m 0 2) (modBits f.m 2 3) s.me.width L (s.src32 .int true f.b L).toNat), 0))) ∧
    (LaneRuns (.matchLanes f) f s → f.m = 0 → NextV (exec (.matchLanes f) s) s f (fun L =>
      (BitVec.ofNat 32 ((lanes.filter (fun j => j / 32 = L / 32 && a j = a L)).map (fun j => 2 ^ (j % 32))).sum, 0))) ∧
    (LaneRuns (.matchLanes f) f s → f.m ≠ 0 → NextV (exec (.matchLanes f) s) s f (fun L =>
      (BitVec.ofNat 32 ((lanes.filter (fun j => j / 32 = L / 32 && s.src64 false f.a j = s.src64 false f.a L)).map
        (fun j => 2 ^ (j % 32))).sum, 0))) ∧
    (LaneRuns (.firstLane f) f s → NextV (exec (.firstLane f) s) s f (fun _ =>
      (match yes with
        | [] => 0xFFFFFFFF
        | j :: _ => BitVec.ofNat 32 j, 0)))

/-- REDUX and SCAN combine the lanes that take part in ascending order, from the operator's identity; .EXCL leaves the
lane's own value out, .W keeps to its word (R243, R244). -/
def Sys2Proof.Claims.ReduceAndScan : Prop :=
  ∀ (s : State) (f : Fields),
    let a := fun L => s.src32 .int false f.a L
    let lanes := (List.range s.me.width).filter (fun L => (s.part f).getLsbD L)
    let sx := decide (f.type = 8)
    let val := fun (x : W32) => if f.type = 8 then x.toInt else (x.toNat : Int)
    let op := fun (x y : W32) => match modBits f.m 6 3 with
      | 0 => x + y
      | 1 => if val y < val x then y else x
      | 2 => if val x < val y then y else x
      | 3 => x &&& y
      | 4 => x ||| y
      | _ => x ^^^ y
    let one : W32 := match modBits f.m 6 3 with
      | 1 => if sx then 0x7FFFFFFF else 0xFFFFFFFF
      | 2 => if sx then 0x80000000 else 0
      | 3 => 0xFFFFFFFF
      | _ => 0
    let near := fun L => if modBits f.m 9 1 = 1 then lanes.filter (fun j => j / 32 = L / 32) else lanes
    (LaneRuns (.redux f) f s → NextV (exec (.redux f) s) s f (fun L => (((near L).map a).foldl op one, 0))) ∧
    (LaneRuns (.scan f) f s → NextV (exec (.scan f) s) s f (fun L =>
      ((((near L).filter (fun j => if modBits f.m 0 1 = 1 then decide (j < L) else decide (j ≤ L))).map a).foldl op one, 0)))

/-- The source lane of SHFL by mode, inside the segment of g lanes that starts at s0; a lane whose source lies outside it
reads itself (R245). -/
def Sys2Proof.Claims.ShuffleSourceLane : Prop :=
  ∀ (mode k W L n : Nat), mode < 4 → k ≤ 6 → (∃ w, w ≤ 5 ∧ W = 32 * 2 ^ w) → L < W →
    let g := if k = 6 then W else 2 ^ k
    let s0 := L - L % g
    let src := shflLane mode k W L n
    s0 ≤ src ∧ src < s0 + g ∧
    (mode = 0 → src = if n < g then s0 + n else L) ∧
    (mode = 1 → src = if s0 + n ≤ L then L - n else L) ∧
    (mode = 2 → src = if L + n < s0 + g then L + n else L) ∧
    (mode = 3 → src = if s0 ≤ L ^^^ n ∧ L ^^^ n < s0 + g then L ^^^ n else L)

/-- ReduceAndScan and ShuffleSourceLane together. -/
def Obligations.CrossLaneResults : Prop :=
  Sys2Proof.Claims.ReduceAndScan ∧ Sys2Proof.Claims.ShuffleSourceLane

/-! ## Scalar (R246 to R248) -/

/-- The scalar class, of a caravan or of its access slice: register d of the issuing agent takes the 64-bit result, the
agent goes on at the next instruction, and nothing else differs (R246). -/
def Obligations.ScalarResults : Prop :=
  ∀ (s : State) (f : Fields),
    let a := s.srcS false f.a
    let b := s.srcS false f.b
    let ub := s.srcS true f.b
    let d := s.sreg f.d.sreg
    (AgentRuns (.smov f) f s → NextS (exec (.smov f) s) s f a) ∧
    (AgentRuns (.smovi f) f s → NextS (exec (.smovi f) s) s f
      (match modBits f.m 8 2 with
        | 0 => (imm32 f.a f.b).signExtend 64
        | 1 => (imm32 f.a f.b).setWidth 64
        | _ => (imm32 f.a f.b) ++ d.extractLsb' 0 32)) ∧
    (AgentRuns (.sadd f) f s → NextS (exec (.sadd f) s) s f (a + b)) ∧
    (AgentRuns (.ssub f) f s → NextS (exec (.ssub f) s) s f (a - b)) ∧
    (AgentRuns (.smul f) f s → NextS (exec (.smul f) s) s f (a * b)) ∧
    (AgentRuns (.sand f) f s → NextS (exec (.sand f) s) s f (a &&& b)) ∧
    (AgentRuns (.sor f) f s → NextS (exec (.sor f) s) s f (a ||| b)) ∧
    (AgentRuns (.sxor f) f s → NextS (exec (.sxor f) s) s f (a ^^^ b)) ∧
    (AgentRuns (.sshl f) f s → NextS (exec (.sshl f) s) s f (if ub.toNat ≥ 64 then 0 else a <<< ub.toNat)) ∧
    (AgentRuns (.sshr f) f s → NextS (exec (.sshr f) s) s f
      (if modBits f.m 9 1 = 1 then (if ub.toNat ≥ 64 then (if a.msb then BitVec.allOnes 64 else 0) else a.sshiftRight ub.toNat)
        else if ub.toNat ≥ 64 then 0 else a >>> ub.toNat)) ∧
    (AgentRuns (.sset f) f s → NextS (exec (.sset f) s) s f
      (let x : Int := if f.type = 10 then a.toInt else a.toNat
       let y : Int := if f.type = 10 then b.toInt else b.toNat
       match modBits f.m 6 3 with
        | 0 => if x = y then 1 else 0
        | 1 => if x ≠ y then 1 else 0
        | 2 => if x < y then 1 else 0
        | 3 => if x ≤ y then 1 else 0
        | 4 => if x > y then 1 else 0
        | _ => if x ≥ y then 1 else 0)) ∧
    (AgentRuns (.ssel f) f s → NextS (exec (.ssel f) s) s f (if d ≠ 0 then a else b))

/-- S2V writes half of s_a to register d of every active lane; V2S writes one lane's register to s_d, a lane at or above W
raising RESOURCE (R248). -/
def Obligations.ScalarVectorMoves : Prop :=
  ∀ (s : State) (f : Fields),
    let half := fun (x : W64) => if f.m = 0 then x.extractLsb' 0 32 else x.extractLsb' 32 32
    (OnceRuns (.s2v f) f s → NextLanes (exec (.s2v f) s) s
      (withV s f.d.vreg s.me.mask (fun _ => half (s.sreg f.a.sreg))) (predsOf s) 0) ∧
    (OnceRuns (.v2s f) f s → f.m = 0 → f.b.immU < s.me.width →
      NextS (exec (.v2s f) s) s f ((s.src32 .int true f.a f.b.immU).setWidth 64)) ∧
    (∀ L, OnceRuns (.v2s f) f s → f.m ≠ 0 → L < s.me.width → s.me.mask.getLsbD L = true → (∀ j, j < L → s.me.mask.getLsbD j = false) →
      NextS (exec (.v2s f) s) s f ((s.src32 .int true f.a L).setWidth 64)) ∧
    (OnceRuns (.v2s f) f s → f.m = 0 → s.me.width ≤ f.b.immU →
      exec (.v2s f) s = .next ((s.raiseCv .resource).settle s.cur.core s.cur.slot)) ∧
    (∀ i ∈ [Instr.s2v f, .v2s f], s.cur.slice = true → exec i s = .next (s.raiseCv .illegalEncoding))

/-! ## Floating point and conversions (R163 to R176, R249 to R262) -/

/-- The FP32 class and the conversions to types of up to 32 bits: each lane that takes part receives the function's value of
its sources and raises its flags (R250, R252 to R262). The functions have statements of their own below. -/
def Sys2Proof.Claims.FloatResults : Prop :=
  ∀ (s : State) (f : Fields),
    let a := fun L => s.srcNum 6 f.a L
    let b := fun L => s.srcNum 6 f.b L
    let d := fun L => (s.me.reg f.d.vreg L).toNat
    let rm := modBits f.m 0 2
    let nan := decide (modBits f.m 9 1 = 1)
    let out := fun (r : Nat × Flag) => (BitVec.ofNat 32 r.1, r.2)
    let pk := fun (g : Nat → Nat → Nat → Nat × Flag) (L : Nat) =>
      let x := s.srcPk f.a L
      let y := s.srcPk f.b L
      let lo := g (x % 2 ^ 16) (y % 2 ^ 16) (d L % 2 ^ 16)
      let hi := g (x / 2 ^ 16) (y / 2 ^ 16) (d L / 2 ^ 16)
      out (lo.1 + 2 ^ 16 * hi.1, lo.2 ||| hi.2)
    let conv := fun L => convert rm (modBits f.m 6 4) f.type (s.srcNum (modBits f.m 6 4) f.a L)
    (LaneRuns (.fadd f) f s → NextV (exec (.fadd f) s) s f (fun L => out (fpAdd fp32 rm (a L) (b L)))) ∧
    (LaneRuns (.fmul f) f s → NextV (exec (.fmul f) s) s f (fun L => out (fpMul fp32 rm (a L) (b L)))) ∧
    (LaneRuns (.ffma f) f s → NextV (exec (.ffma f) s) s f (fun L => out (fpFma fp32 rm (a L) (b L) (d L)))) ∧
    (LaneRuns (.fmin f) f s → NextV (exec (.fmin f) s) s f (fun L => out (fpPick fp32 false nan (a L) (b L)))) ∧
    (LaneRuns (.fmax f) f s → NextV (exec (.fmax f) s) s f (fun L => out (fpPick fp32 true nan (a L) (b L)))) ∧
    (LaneRuns (.frcp f) f s → NextV (exec (.frcp f) s) s f (fun L => out (fpSpecial .rcp rm (a L)))) ∧
    (LaneRuns (.frsq f) f s → NextV (exec (.frsq f) s) s f (fun L => out (fpSpecial .rsq rm (a L)))) ∧
    (LaneRuns (.fsqrt f) f s → NextV (exec (.fsqrt f) s) s f (fun L => out (fpSpecial .sqrt rm (a L)))) ∧
    (LaneRuns (.fex2 f) f s → NextV (exec (.fex2 f) s) s f (fun L => out (fpSpecial .ex2 rm (a L)))) ∧
    (LaneRuns (.flg2 f) f s → NextV (exec (.flg2 f) s) s f (fun L => out (fpSpecial .lg2 rm (a L)))) ∧
    (LaneRuns (.fclass f) f s → NextV (exec (.fclass f) s) s f (fun L =>
      out (fpClass (fmtOf f.type) (s.srcNum f.type f.a L), 0))) ∧
    (LaneRuns (.pkadd f) f s → NextV (exec (.pkadd f) s) s f (pk (fun x y _ => fpAdd (fmtOf f.type) rm x y))) ∧
    (LaneRuns (.pkmul f) f s → NextV (exec (.pkmul f) s) s f (pk (fun x y _ => fpMul (fmtOf f.type) rm x y))) ∧
    (LaneRuns (.pkfma f) f s → NextV (exec (.pkfma f) s) s f (pk (fpFma (fmtOf f.type) rm))) ∧
    (LaneRuns (.pkset f) f s → NextV (exec (.pkset f) s) s f (pk (fun x y _ =>
      (if (fpCompare (fmtOf f.type) (modBits f.m 6 3) x y).1 then 0xFFFF else 0,
        (fpCompare (fmtOf f.type) (modBits f.m 6 3) x y).2)))) ∧
    (LaneRuns (.cvt f) f s → typeBits f.type ≠ 64 → NextV (exec (.cvt f) s) s f (fun L => out (conv L))) ∧
    (LaneRuns (.cvtsi f) f s → NextV (exec (.cvtsi f) s) s f (fun L => out (conv L))) ∧
    (LaneRuns (.cvtdx f) f s → modBits f.m 9 1 = 1 → NextV (exec (.cvtdx f) s) s f (fun L =>
      out (dxDecode f.type rm (s.src32 .int false f.a L).toNat ((s.src32 .int false f.b L).toNat % 2 ^ 16))))

/-- FP64 arithmetic, comparisons, and the conversions to 64-bit types (R250, R252 to R254, R260). -/
def Sys2Proof.Claims.DoubleAndCompareResults : Prop :=
  ∀ (s : State) (f : Fields),
    let a := fun L => s.srcNum 7 f.a L
    let b := fun L => s.srcNum 7 f.b L
    let d := fun L => (s.me.reg64 f.d.vreg L).toNat
    let rm := modBits f.m 0 2
    let nan := decide (modBits f.m 9 1 = 1)
    let out := fun (r : Nat × Flag) => (BitVec.ofNat 64 r.1, r.2)
    (LaneRuns (.dadd f) f s → NextV64 (exec (.dadd f) s) s f (fun L => out (fpAdd fp64 rm (a L) (b L)))) ∧
    (LaneRuns (.dmul f) f s → NextV64 (exec (.dmul f) s) s f (fun L => out (fpMul fp64 rm (a L) (b L)))) ∧
    (LaneRuns (.dfma f) f s → NextV64 (exec (.dfma f) s) s f (fun L => out (fpFma fp64 rm (a L) (b L) (d L)))) ∧
    (LaneRuns (.dmin f) f s → NextV64 (exec (.dmin f) s) s f (fun L => out (fpPick fp64 false nan (a L) (b L)))) ∧
    (LaneRuns (.dmax f) f s → NextV64 (exec (.dmax f) s) s f (fun L => out (fpPick fp64 true nan (a L) (b L)))) ∧
    (LaneRuns (.dset f) f s → NextP (exec (.dset f) s) s f (fun L => fpCompare fp64 (modBits f.m 6 3) (a L) (b L))) ∧
    (LaneRuns (.fset f) f s → NextP (exec (.fset f) s) s f (fun L =>
      fpCompare fp32 (modBits f.m 6 3) (s.srcNum 6 f.a L) (s.srcNum 6 f.b L))) ∧
    (LaneRuns (.cvt f) f s → typeBits f.type = 64 → NextV64 (exec (.cvt f) s) s f (fun L =>
      out (convert rm (modBits f.m 6 4) f.type (s.srcNum (modBits f.m 6 4) f.a L))))

/-- FloatResults and DoubleAndCompareResults together. -/
def Obligations.FloatingPointResults : Prop :=
  Sys2Proof.Claims.FloatResults ∧ Sys2Proof.Claims.DoubleAndCompareResults

/-- The encode form of CVTDX: the lanes that take part receive the codes of their word's block; register Vd+1 receives the
pair in lane 0 of each word that has such a lane and zeros in that word's other lanes (R262). -/
def Obligations.BlockEncode : Prop :=
  ∀ (s : State) (f : Fields), LaneRuns (.cvtdx f) f s → modBits f.m 9 1 = 0 → (∃ w, w ≤ 5 ∧ s.me.width = 32 * 2 ^ w) →
    let rm := modBits f.m 0 2
    let lanes := (List.range s.me.width).filter (fun L => (s.part f).getLsbD L)
    let block := fun L => lanes.filter (fun j => j / 32 = L / 32)
    let e0 := fun L => dxBlockExp f.type rm ((block L).map (s.srcNum 6 f.a))
    let code := fun L => dxCode f.type rm (e0 L) (s.srcNum 6 f.a L)
    NextLanes (exec (.cvtdx f) s) s
      (fun r L =>
        if r = f.d.vreg + 1 ∧ L < s.me.width ∧ block L ≠ [] then
          (if L % 32 = 0 then BitVec.ofNat 32 (dxPair f.type (e0 L)) else 0)
        else if r = f.d.vreg ∧ lanes.contains L = true then BitVec.ofNat 32 (code L).1
        else s.me.reg r L)
      (predsOf s) (flagsOf s f (fun L => (code L).2))

/-- FRND rounds to an integer value of the operand's sign; infinities and zeros stay, a NaN becomes the canonical NaN with NV
when it is signalling, and NX is raised only under .X and only when the result differs (R257). -/
def Obligations.FloatRoundsToInteger : Prop :=
  ∀ (s : State) (f : Fields), LaneRuns (.frnd f) f s →
    ∃ v, NextV (exec (.frnd f) s) s f v ∧ ∀ L,
      match decodeFp fp32 (s.srcNum 6 f.a L) with
      | .nan signalling => v L = (0x7FC00000, if signalling then fNV else 0)
      | .inf _ => v L = (BitVec.ofNat 32 (s.srcNum 6 f.a L), 0)
      | .fin neg m e => ∃ m' e', decodeFp fp32 (v L).1.toNat = .fin neg m' e' ∧
          (m' : ℚ) * 2 ^ e' = ((roundInt (modBits f.m 0 2) neg m e).1.natAbs : ℚ) ∧
          (m = 0 → v L = (BitVec.ofNat 32 (s.srcNum 6 f.a L), 0)) ∧
          (v L).2 = if modBits f.m 9 1 = 1 ∧ (m' : ℚ) * 2 ^ e' ≠ (m : ℚ) * 2 ^ e then fNX else 0

/-- FSCL rounds x · 2^n once, the product being exact however large n is; zeros and infinities stay, a NaN becomes the
canonical NaN with NV when it is signalling (R258). -/
def Obligations.FloatScales : Prop :=
  ∀ (s : State) (f : Fields), LaneRuns (.fscl f) f s →
    NextV (exec (.fscl f) s) s f (fun L =>
      let n := (s.src32 .int false f.b L).toInt
      let x := BitVec.ofNat 32 (s.srcNum 6 f.a L)
      match decodeFp fp32 (s.srcNum 6 f.a L) with
      | .nan signalling => (0x7FC00000, if signalling then fNV else 0)
      | .inf _ => (x, 0)
      | .fin neg m e => if m = 0 then (x, 0)
        else (BitVec.ofNat 32 (roundFp fp32 (modBits f.m 0 2) neg m (e + n)).1, (roundFp fp32 (modBits f.m 0 2) neg m (e + n)).2))

/-- round_fp by mode: where no overflow is raised the result is the nearest value of the format, or the nearest one in the
mode's direction, and NX is raised exactly when it differs from the exact value (R165). -/
def Sys2Proof.Claims.RoundingIsCorrect : Prop :=
  ∀ (f : Fmt) (rm : Nat) (neg : Bool) (m : Nat) (e : Int), f ∈ [fp64, fp32, fp16, bf16] → rm < 4 →
    let r := roundFp f rm neg m e
    let sg : Bool → ℚ := fun b => if b then -1 else 1
    let x : ℚ := sg neg * m * 2 ^ e
    r.2 &&& fOF = 0 →
    ∃ m' e', decodeFp f r.1 = .fin neg m' e' ∧
      let y : ℚ := sg neg * m' * 2 ^ e'
      (r.2 &&& fNX ≠ 0 ↔ y ≠ x) ∧ (rm = 1 → |y| ≤ |x|) ∧ (rm = 2 → x ≤ y) ∧ (rm = 3 → y ≤ x) ∧
      ∀ z b m'' e'', z < 2 ^ f.width → decodeFp f z = .fin b m'' e'' →
        let w : ℚ := sg b * m'' * 2 ^ e''
        (rm = 0 → |y - x| ≤ |w - x|) ∧ (rm = 1 → |w| ≤ |x| → |w| ≤ |y|) ∧ (rm = 2 → x ≤ w → y ≤ w) ∧
          (rm = 3 → w ≤ x → w ≤ y)

/-- A value that a format holds is rounded to itself, and raises nothing (R165). -/
def Sys2Proof.Claims.RoundingKeepsFormatValues : Prop :=
  ∀ (f : Fmt) (rm x : Nat) (neg : Bool) (m : Nat) (e : Int), f ∈ [fp64, fp32, fp16, bf16] → x < 2 ^ f.width →
    decodeFp f x = .fin neg m e → roundFp f rm neg m e = (x, 0)

/-- Overflow by mode and sign (R165). -/
def Sys2Proof.Claims.RoundingOverflows : Prop :=
  ∀ (f : Fmt) (rm : Nat) (neg : Bool) (m : Nat) (e : Int), f ∈ [fp64, fp32, fp16, bf16] → rm < 4 →
    let big : ℚ := (2 ^ (f.fbits + 1) - 1) * 2 ^ ((f.bias : Int) - f.fbits)
    (m : ℚ) * 2 ^ e ≥ 2 ^ ((f.bias : Int) + 1) →
    roundFp f rm neg m e =
      (if rm = 0 ∨ (rm = 2 ∧ neg = false) ∨ (rm = 3 ∧ neg = true) then f.infinity neg else f.largest neg, fOF ||| fNX) ∧
    (∃ m' e', decodeFp f (f.largest neg) = .fin neg m' e' ∧ (m' : ℚ) * 2 ^ e' = big)

/-- RoundingIsCorrect, RoundingKeepsFormatValues and RoundingOverflows together. -/
def Obligations.RoundingMeetsFormats : Prop :=
  Sys2Proof.Claims.RoundingIsCorrect ∧ Sys2Proof.Claims.RoundingKeepsFormatValues ∧ Sys2Proof.Claims.RoundingOverflows

/-- Add, multiply and fused multiply-add: NaNs, the invalid cases and infinities by the table of R252; a finite sum or product
is rounded once, from its exact value, and a zero sum of opposite signs is +0, or -0 under RDN. -/
def Sys2Proof.Claims.FloatArithmeticCases : Prop :=
  ∀ (f : Fmt) (rm a b c : Nat), f ∈ [fp64, fp32, fp16, bf16] → rm < 4 →
    let x := decodeFp f a
    let y := decodeFp f b
    let z := decodeFp f c
    let nv := fun (l : List Val) => if l.any Val.isSnan then fNV else 0
    let sg : Bool → ℚ := fun p => if p then -1 else 1
    (x.isNan ∨ y.isNan → fpAdd f rm a b = (f.nan, nv [x, y]) ∧ fpMul f rm a b = (f.nan, nv [x, y]) ∧
      fpFma f rm a b c = (f.nan, nv [x, y, z])) ∧
    (x.isInf → y.isInf → fpAdd f rm a b = (if x.neg = y.neg then (f.infinity x.neg, 0) else (f.nan, fNV))) ∧
    ((x.isInf ∧ y.isZero) ∨ (x.isZero ∧ y.isInf) → fpMul f rm a b = (f.nan, fNV) ∧
      (fpFma f rm a b c).1 = f.nan ∧ (fpFma f rm a b c).2 &&& fNV = fNV) ∧
    (∀ p m e q n k, x = .fin p m e → y = .fin q n k →
      (∃ u v, (sg p * m * 2 ^ e + sg q * n * 2 ^ k : ℚ) = (u : ℤ) * 2 ^ (v : ℤ) ∧
        fpAdd f rm a b = if u = 0 then (f.signBit (if p = q then p else decide (rm = 3)), 0)
          else roundFp f rm (decide (u < 0)) u.natAbs v) ∧
      (∃ u v, (m * 2 ^ e * (n * 2 ^ k) : ℚ) = (u : ℕ) * 2 ^ (v : ℤ) ∧ fpMul f rm a b = roundFp f rm (p != q) u v) ∧
      (∀ r l j, z = .fin r l j →
        ∃ u v, (sg (p != q) * (m * 2 ^ e * (n * 2 ^ k)) + sg r * l * 2 ^ j : ℚ) = (u : ℤ) * 2 ^ (v : ℤ) ∧
          fpFma f rm a b c = if u = 0 then (f.signBit (if (p != q) = r then r else decide (rm = 3)), 0)
            else roundFp f rm (decide (u < 0)) u.natAbs v))

/-- FMIN, FMAX and their FP64 forms order -∞ lowest and -0 below +0, and treat NaNs by the table of R253; the comparisons hold
-0 equal to +0 and raise NV by the table of R254. -/
def Sys2Proof.Claims.MinMaxAndCompare : Prop :=
  ∀ (f : Fmt) (a b : Nat), f ∈ [fp64, fp32, fp16, bf16] → a < 2 ^ f.width → b < 2 ^ f.width →
    let x := decodeFp f a
    let y := decodeFp f b
    let rank : Val → ℚ := fun v => match v with
      | .fin p m e => (if p then -1 else 1) * m * 2 ^ e
      | .inf p => (if p then -1 else 1) * 2 ^ 2000
      | .nan _ => 0
    let below := decide (rank x < rank y) || (decide (rank x = rank y) && x.neg && !y.neg)
    let above := decide (rank y < rank x) || (decide (rank x = rank y) && y.neg && !x.neg)
    let un := x.isNan || y.isNan
    let quiet := if x.isSnan || y.isSnan then fNV else 0
    let any := if un then fNV else 0
    (∀ nan, fpPick f false nan a b =
      if !un then (if above then b else a, 0)
      else (if nan || (x.isNan && y.isNan) then f.nan else if x.isNan then b else a, quiet)) ∧
    (∀ nan, fpPick f true nan a b =
      if !un then (if below then b else a, 0)
      else (if nan || (x.isNan && y.isNan) then f.nan else if x.isNan then b else a, quiet)) ∧
    fpCompare f 0 a b = (!un && decide (rank x = rank y), quiet) ∧
    fpCompare f 1 a b = (un || decide (rank x ≠ rank y), quiet) ∧
    fpCompare f 2 a b = (!un && decide (rank x < rank y), any) ∧
    fpCompare f 3 a b = (!un && decide (rank x ≤ rank y), any) ∧
    fpCompare f 4 a b = (!un && decide (rank x > rank y), any) ∧
    fpCompare f 5 a b = (!un && decide (rank x ≥ rank y), any) ∧
    fpCompare f 6 a b = (!un, quiet) ∧
    fpCompare f 7 a b = (un, quiet)

/-- FloatArithmeticCases and MinMaxAndCompare together. -/
def Obligations.FloatSpecialCases : Prop :=
  Sys2Proof.Claims.FloatArithmeticCases ∧ Sys2Proof.Claims.MinMaxAndCompare

/-! ## Control (R230 to R238) -/

/-- Instructions that only go on at the next instruction: NOP, and PRF, which may be dropped without effect (R230, R273). -/
def Sys2Proof.Claims.NopAndPrefetchOnlyAdvance : Prop :=
  ∀ (s : State) (f : Fields),
    (OnceRuns (.nop f) f s → NextPc (exec (.nop f) s) s (s.pc + 12)) ∧
    (LaneRuns (.prf f) f s → NextPc (exec (.prf f) s) s (s.pc + 12))

/-- Branches that do not diverge: BRA by its condition, BRX, RET and CALL to the address of an S register with its two low
bits taken as zero, or a relative target; CALL writes the return address. An address above 57 bits is OUT_OF_RANGE for every
active lane (R231, R232). -/
def Sys2Proof.Claims.BranchTargets : Prop :=
  ∀ (s : State) (f : Fields),
    let rel := fun (o : Operand) => s.pc + BitVec.ofInt 64 (12 * o.immS)
    let cond := fun L => (s.me.pred f.d.pnum).getLsbD L != decide (modBits f.m 0 1 = 1)
    let taken := s.condMask f.d f.m
    let x := s.sreg f.a.sreg
    let aligned := x &&& ~~~(3 : W64)
    (∀ L, L < 1024 → taken.getLsbD L = (s.me.mask.getLsbD L && cond L)) ∧
    (AgentRuns (.bra f) f s → modBits f.m 1 1 = 1 → NextPc (exec (.bra f) s) s (rel f.a)) ∧
    (OnceRuns (.bra f) f s → modBits f.m 1 1 = 0 → taken = s.me.mask → NextPc (exec (.bra f) s) s (rel f.a)) ∧
    (OnceRuns (.bra f) f s → modBits f.m 1 1 = 0 → taken = 0 → NextPc (exec (.bra f) s) s (s.pc + 12)) ∧
    (AgentRuns (.brx f) f s → aligned.toNat < 2 ^ 57 → NextPc (exec (.brx f) s) s aligned) ∧
    (OnceRuns (.ret f) f s → aligned.toNat < 2 ^ 57 → NextPc (exec (.ret f) s) s aligned) ∧
    (OnceRuns (.call f) f s → (f.a.isS = true → aligned.toNat < 2 ^ 57) →
      exec (.call f) s = .next (s.setMe { s.me with pc := if f.a.isS then aligned else rel f.a,
                                                    sregs := sset 0 s.me.sregs f.d.sreg (s.me.pc + 12) })) ∧
    (∀ i ∈ [Instr.brx f, .ret f, .call f], OnceRuns i f s → f.a.isS = true → 2 ^ 57 ≤ aligned.toNat →
      exec i s = .next ((s.raiseAll s.cur.core s.cur.slot s.pc s.pc s.me.mask .outOfRange aligned).settle s.cur.core s.cur.slot))

/-- NopAndPrefetchOnlyAdvance and BranchTargets together. -/
def Obligations.NopsAndBranchesGo : Prop :=
  Sys2Proof.Claims.NopAndPrefetchOnlyAdvance ∧ Sys2Proof.Claims.BranchTargets

/-- BRANY and BRALL branch when at least one, or every, active lane has its condition, and otherwise go on; neither pushes
anything or changes the mask (R233). -/
def Obligations.AnyAllBranch : Prop :=
  ∀ (s : State) (f : Fields),
    let c := fun L => s.me.mask.getLsbD L = true ∧ ((s.me.pred f.d.pnum).getLsbD L != decide (modBits f.m 0 1 = 1)) = true
    let go := fun (i : Instr) (yes : Prop) =>
      (yes → exec i s = .next (s.setMe { s.me with pc := s.me.pc + BitVec.ofInt 64 (12 * f.a.immS) })) ∧
      (¬yes → exec i s = .next (s.setMe { s.me with pc := s.me.pc + 12 }))
    (OnceRuns (.brany f) f s → go (.brany f) (∃ L, L < 1024 ∧ c L)) ∧
    (OnceRuns (.brall f) f s → go (.brall f) (∀ L, L < 1024 → s.me.mask.getLsbD L = true → c L))

/-- BRA on which the active lanes disagree pushes the join entry with the whole mask and the pending entry with the lanes not
taken, and goes on with the taken ones; with 16 regions open it raises RESOURCE. RECONV at a join PC switches to the pending
path, then pops the region and restores its mask; elsewhere it only goes on (R62, R231). -/
def Sys2Proof.Claims.DivergeAndReconverge : Prop :=
  ∀ (s : State) (f : Fields),
    let taken := s.condMask f.d f.m
    let c := s.me
    (OnceRuns (.bra f) f s → modBits f.m 1 1 = 0 → taken ≠ c.mask → taken ≠ 0 → c.depth < 16 → c.stack.length = 2 * c.depth →
      exec (.bra f) s = .next (s.setMe { c with
        stack := c.stack ++ [{ pc := c.pc + BitVec.ofInt 64 (12 * f.b.immS), mask := c.mask },
          { pc := c.pc + 12, mask := c.mask &&& ~~~taken }],
        depth := c.depth + 1, mask := taken, pc := c.pc + BitVec.ofInt 64 (12 * f.a.immS) })) ∧
    (OnceRuns (.bra f) f s → modBits f.m 1 1 = 0 → taken ≠ c.mask → taken ≠ 0 → 16 ≤ c.depth →
      exec (.bra f) s = .next ((s.raiseCv .resource).settle s.cur.core s.cur.slot)) ∧
    (∀ base join pend, OnceRuns (.reconv f) f s → c.stack = base ++ [join, pend] → base.length = 2 * (c.depth - 1) →
      c.floor < c.depth → join.pc = c.pc → pend.mask ≠ 0 →
      exec (.reconv f) s = .next (s.setMe { c with mask := pend.mask, pc := pend.pc,
                                                   stack := base ++ [join, { pend with mask := 0 }] })) ∧
    (∀ base join pend, OnceRuns (.reconv f) f s → c.stack = base ++ [join, pend] → base.length = 2 * (c.depth - 1) →
      c.floor < c.depth → join.pc = c.pc → pend.mask = 0 → join.mask ≠ 0 →
      exec (.reconv f) s = .next (s.setMe { c with mask := join.mask, pc := c.pc + 12, depth := c.depth - 1, stack := base })) ∧
    (OnceRuns (.reconv f) f s → (c.depth ≤ c.floor ∨ (c.entry (2 * (c.depth - 1))).pc ≠ c.pc) →
      NextPc (exec (.reconv f) s) s (s.pc + 12))

/-- Both paths of a divergent BRA, each ending with RECONV at the join, bring back the mask, the depth and the stack (R62). -/
def Sys2Proof.Claims.DivergenceRestoresMask : Prop :=
  ∀ (c : Caravan) (join next target : W64) (taken : Mask),
    c.stack.length = 2 * c.depth → c.floor ≤ c.depth → c.mask &&& ~~~taken ≠ 0 →
    let d := c.diverge join next target taken
    let e := { d with pc := join }.reconv join
    e.mask = c.mask &&& ~~~taken ∧ e.pc = next ∧ e.depth = c.depth + 1 ∧
      { e with pc := join }.reconv join = { c with pc := join + 12 }

/-- DivergeAndReconverge and DivergenceRestoresMask together. -/
def Obligations.DivergenceAndReconvergence : Prop :=
  Sys2Proof.Claims.DivergeAndReconverge ∧ Sys2Proof.Claims.DivergenceRestoresMask

/-- EXIT takes the active lanes, or the predicated ones, out of the mask and of every stack entry; when none is left the
pending path of the top region goes on, and with no region open the caravan finishes, its slice with it (log 99), or takes a
pending trap first. In an access slice it ends the slice and closes its queues (R63, R91, R234). -/
def Sys2Proof.Claims.ExitLeavesLanes : Prop :=
  ∀ (s : State) (f : Fields),
    let out := if modBits f.m 1 1 = 1 then s.condMask f.a f.m else s.me.mask
    let c := s.me
    let left := { c with mask := c.mask &&& ~~~out, stack := c.stack.map (fun e => { e with mask := e.mask &&& ~~~out }),
                         gone := c.gone ||| out, pc := c.pc + 12 }
    let ended := fun (d : Caravan) => { d with
      slice := { d.slice with st := .ended, wait := .none },
      queues := d.queues.map (fun q => if q.closed then q
        else { q with ents := q.ents.takeWhile (fun e => e.landed), closed := true, qerr := false }) }
    let ended_ := { (if c.slice.st = .none then left else ended left) with
      st := .finishing, gone := c.exist, wait := .none, stall := .none }
    (OnceRuns (.exitI f) f s → c.trap.taken = false → c.mask &&& ~~~out ≠ 0 →
      exec (.exitI f) s = .next (s.setMe left)) ∧
    (∀ base join pend, OnceRuns (.exitI f) f s → c.trap.taken = false → c.mask &&& ~~~out = 0 →
      c.stack = base ++ [join, pend] → base.length = 2 * (c.depth - 1) → 0 < c.depth → pend.mask &&& ~~~out ≠ 0 →
      exec (.exitI f) s = .next (s.setMe { left with
        mask := pend.mask &&& ~~~out, pc := pend.pc,
        stack := (base ++ [join]).map (fun e => { e with mask := e.mask &&& ~~~out }) ++ [{ pend with mask := 0 }] })) ∧
    (OnceRuns (.exitI f) f s → c.trap.taken = false → c.mask &&& ~~~out = 0 → c.depth = 0 → c.trap.dmask = 0 →
      exec (.exitI f) s = .next (s.setMe ended_)) ∧
    (OnceRuns (.exitI f) f s → c.trap.taken = false → c.mask &&& ~~~out = 0 → c.depth = 0 → c.trap.dmask ≠ 0 →
      exec (.exitI f) s = .next ((s.setMe left).takeTrap s.cur.core s.cur.slot 2 (c.pc + 12) 0 0 0)) ∧
    (OnceRuns (.exitI f) f s → c.trap.taken = true → c.mask &&& ~~~out ≠ 0 →
      exec (.exitI f) s = .next (s.setMe ({ c with pc := c.pc + 12 }.exitLanes out)) ∧
        ({ c with pc := c.pc + 12 }.exitLanes out).trap.tmask = c.trap.tmask &&& ~~~out ∧
        ({ c with pc := c.pc + 12 }.exitLanes out).trap.dmask = c.trap.dmask &&& ~~~out) ∧
    (SliceRuns (.exitI f) f s → exec (.exitI f) s = .next (s.setMe (ended c)))

/-- YIELD gives way, SLEEP sleeps for n clocks, or yields for n = 0; MSKGET reads a mask word or the summary word; MSKSET clears
bits of one and refuses to empty the mask (R235, R237). -/
def Sys2Proof.Claims.YieldSleepAndMasks : Prop :=
  ∀ (s : State) (f : Fields),
    let n := min (s.srcS true f.a).toNat (2 ^ 32 - 1)
    let c := s.me
    let kept := maskWord c.mask f.b.immU ((s.sreg f.a.sreg).extractLsb' 0 32)
    (OnceRuns (.yield f) f s → exec (.yield f) s = .next (s.setMe { c with yielding := true, pc := c.pc + 12 })) ∧
    (OnceRuns (.sleep f) f s → n = 0 → exec (.sleep f) s = .next (s.setMe { c with yielding := true, pc := c.pc + 12 })) ∧
    (OnceRuns (.sleep f) f s → n ≠ 0 →
      exec (.sleep f) s = .next (s.setMe { c with st := .sleeping, sleep := BitVec.ofNat 32 n, pc := c.pc + 12 })) ∧
    (OnceRuns (.mskget f) f s → f.a.immU < 32 → NextS (exec (.mskget f) s) s f
      ((c.mask.extractLsb' (32 * f.a.immU) 32).setWidth 64)) ∧
    (OnceRuns (.mskget f) f s → f.a.immU = 32 → ∃ x, NextS (exec (.mskget f) s) s f x ∧
      ∀ w, x.getLsbD w = (decide (w < 32) && decide (c.mask.extractLsb' (32 * w) 32 ≠ 0))) ∧
    (f.b.immU < 32 → ∀ L, kept.getLsbD L = (c.mask.getLsbD L && (decide (L / 32 ≠ f.b.immU) ||
      (s.sreg f.a.sreg).getLsbD (L % 32)))) ∧
    (OnceRuns (.mskset f) f s → kept ≠ 0 →
      exec (.mskset f) s = .next (s.setMe { c with mask := kept, pc := c.pc + 12 })) ∧
    (OnceRuns (.mskset f) f s → kept = 0 →
      exec (.mskset f) s = .next ((s.raiseCv .illegalConvergence).settle s.cur.core s.cur.slot))

/-- ExitLeavesLanes and YieldSleepAndMasks together. -/
def Obligations.LanesExitAndYield : Prop :=
  Sys2Proof.Claims.ExitLeavesLanes ∧ Sys2Proof.Claims.YieldSleepAndMasks

/-- TRAP and BRK take their cause precisely, with the code of OPA, and resume after the instruction: the caravan is TRAPPED at
TRAPBASE with its record filled, once the record's writes pass, and otherwise as it was but for the words of its own register
window that these reach (R68, R236, R339, R341, R344). -/
def Obligations.TrapAndBreakpointEnterHandler : Prop :=
  ∀ (s : State) (f : Fields),
    let enter := fun (i : Instr) (x : CvCause) (cause : BitVec 8) =>
      let r := trapFilled s x (s.pc + 12) (BitVec.ofNat 16 f.a.immU)
      OnceRuns i f s → s.me.trap.taken = false → s.myCtx.trapbase ≠ 0 → s.myCtx.privarea ≠ 0 →
        RecordPasses (s.setMe (inHandler s r)) →
        ∃ t, exec i s = .next t ∧ { t.me with win := s.me.win } = inHandler s r ∧ r.ccause = cause ∧ r.twhy = 1 ∧
          r.rpc = s.me.pc + 12 ∧ r.cpc = s.me.pc ∧ r.code.toNat = f.a.immU ∧ r.tmask = s.me.mask ∧ t.me.pc = s.myCtx.trapbase
    enter (.trap f) .software 6 ∧ enter (.brk f) .breakpoint 7

/-- Without a handler (TRAPBASE or PRIVAREA zero) a caravan cause kills every lane and posts TRAP_UNHANDLED; inside the
handler it is a double trap, which kills them too and posts TRAP_DOUBLE (R344, R346, R347). -/
def Sys2Proof.Claims.TrapsThatKill : Prop :=
  ∀ (s : State) (x : CvCause) (code : BitVec 16), s.cur.slice = false → s.me.st = .ready ∨ s.me.st = .trapped →
    let dead := fun (t : State) (typ : Nat) =>
      t.me.st = .finishing ∧ t.me.mask = 0 ∧ t.me.depth = 0 ∧ t.me.gone = s.me.exist ∧
      (∃ e, t.posts = s.posts ++ e ∧ (∀ p ∈ e, p.ctx = s.me.ctx ∧ p.fault = false ∧ p.bits % 2 ^ 16 = typ) ∧
        ((s.ctx s.me.ctx).st ≠ .free → e.length = 1)) ∧ t.mem = s.mem
    (s.me.trap.taken = false → s.myCtx.trapbase = 0 ∨ s.myCtx.privarea = 0 → dead (s.raiseCv x code) 0x50) ∧
    (s.me.trap.taken = true → dead (s.raiseCv x code) 0x51)

/-! ## Memory (R263 to R276) -/

/-- Loads and stores through addresses: each lane that takes part makes one request at base + offset, of the width and at the
place that MOD names; with no cause and no park the instruction leaves one outstanding operation and goes on (R263, R264,
R266, R269, R272). -/
def Sys2Proof.Claims.LoadsAndStoresIssue : Prop :=
  ∀ (s : State) (f : Fields),
    let w := 2 ^ modBits f.m 0 3
    let va := fun L => (match f.a with
      | .s n => s.sreg n.toNat
      | a => s.src64 false a L) + (match f.b with
      | .imm x => x.signExtend 64
      | b => (s.src32 .int false b L).signExtend 64)
    let scope := modBits f.m 6 3
    let lanes := (List.range s.me.width).filter (fun L => (s.part f).getLsbD L)
    let low := fun (L : Nat) => BitVec.ofNat 128 ((s.me.reg f.d.vreg L).toNat % 2 ^ (8 * w))
    let value := fun (L : Nat) => if w ≤ 4 then low L else if w = 8 then (s.me.reg64 f.d.vreg L).setWidth 128
      else s.me.reg64 (f.d.vreg + 2) L ++ s.me.reg64 f.d.vreg L
    let each := fun (wd : Nat) (act : Nat → Act) => lanes.map (fun L => [mkReq L (va L) wd (act L)])
    let scopeReq := fun (act : Nat → Act) => if modBits f.m 5 1 = 0 then each w act
      else (each w act).map (fun l => l.map (fun r =>
        { r with home := [1, 3, 4, 5].contains scope, sys := decide (scope = 5), strong := true }))
    let s1 := if modBits f.m 5 1 = 1 then s.setMe { s.me with relDue := false } else s
    (LaneRuns (.ld f) f s → NextServed (exec (.ld f) s) s f .LD (.loadV f.d.vreg w (modBits f.m 9 1 = 1))
      (scopeReq (fun _ => .rd))) ∧
    (LaneRuns (.st f) f s → NextServed (exec (.st f) s) s1 f .ST .store (scopeReq (fun L => .wr (value L)))) ∧
    (LaneRuns (.mdld f) f s → NextServed (exec (.mdld f) s) s f .LD (.loadV f.d.vreg 4 false)
      (each 4 (fun _ => .mdrd))) ∧
    (LaneRuns (.mdst f) f s → NextServed (exec (.mdst f) s) s f .ST .store
      (each 4 (fun L => .mdwr (s.me.reg f.d.vreg L)))) ∧
    (LaneRuns (.ldr f) f s → NextServed (exec (.ldr f) s) s f .LD (.loadR f.d.vreg w (modBits f.m 9 1 = 1) (s.part f))
      [[mkReq (lanes.headD 0) (s.sreg f.a.sreg + BitVec.ofInt 64 f.b.immS) w .rd]])

/-- Private memory and the core window: the lane's offset is checked for alignment and range before any address is looked at;
byte o of lane L's private memory lies at PRIVBASE + 4·W·(o div 4) + 4·L + o mod 4, and core c's store at WINAREA + 4 MiB·c
(R74, R267, R268). -/
def Sys2Proof.Claims.PrivateAndWindowAccesses : Prop :=
  ∀ (s : State) (f : Fields),
    let w := 2 ^ modBits f.m 0 3
    let off := fun L => (s.src32 .int true f.a L + (match f.b with
      | .imm x => x.signExtend 32
      | _ => 0)).toNat
    let lanes := (List.range s.me.width).filter (fun L => (s.part f).getLsbD L)
    let base := s.myCtx.privarea + BitVec.ofNat 64 (2 ^ 22 * (16 * s.cur.core + s.cur.slot))
    let at4 := fun (o L : Nat) => base + BitVec.ofNat 64 (4 * s.me.width * (o / 4) + 4 * L + o % 4)
    let priv := fun (L : Nat) (act : Nat → Act) =>
      if w ≤ 4 then [{ mkReq L (at4 (off L) L) w (act 0) with priv := true }]
      else (List.range (w / 4)).map (fun j =>
        { mkReq L (at4 (off L + 4 * j) L) 4 (act j) with priv := true, off := 4 * j })
    let good := ∀ L ∈ lanes, off L % w = 0 ∧ off L + w ≤ 4096 ∧ s.myCtx.privarea ≠ 0
    let win := fun (L : Nat) => s.myCtx.winarea + BitVec.ofNat 64 (2 ^ 22 * modBits f.m 6 3 + off L)
    let sx := decide (modBits f.m 9 1 = 1)
    (LaneRuns (.ldl f) f s → good → NextServed (exec (.ldl f) s) s f .LD (.loadV f.d.vreg w sx)
      (lanes.map (fun L => priv L (fun _ => .rd)))) ∧
    (LaneRuns (.stl f) f s → good → NextServed (exec (.stl f) s) s f .ST .store
      (lanes.map (fun L => priv L (fun j =>
        .wr (if w ≤ 4 then s.laneValue f.d.vreg w L else (s.laneValue f.d.vreg w L >>> (32 * j)) &&& 0xFFFFFFFF))))) ∧
    (LaneRuns (.ldw f) f s → s.myCtx.winarea ≠ 0 → NextServed (exec (.ldw f) s) s f .LD (.loadV f.d.vreg w sx)
      (lanes.map (fun L => [mkReq L (win L) w .rd]))) ∧
    (LaneRuns (.stw f) f s → s.myCtx.winarea ≠ 0 → NextServed (exec (.stw f) s) s f .ST .store
      (lanes.map (fun L => [mkReq L (win L) w (.wr (s.laneValue f.d.vreg w L))])))

/-- SLD and SST make one plain access, as the lowest active lane's, for a caravan or for its access slice (R247). -/
def Sys2Proof.Claims.ScalarAccesses : Prop :=
  ∀ (s : State) (f : Fields),
    let w := 2 ^ modBits f.m 6 3
    let va := s.sreg f.a.sreg + BitVec.ofInt 64 f.b.immS
    let next := fun (i : Instr) (cls : Cls) (kind : OpKind) (act : Act) =>
      let r := mkReq (lowest s.me.width s.me.mask) va w act
      let p := s.perform (s.user s.nextOp) r
      AgentRuns i f s → ∀ x, p.2 = .ok x →
        ∃ t, exec i s = .next t ∧
          WentTo { p.1 with nextOp := s.nextOp + 1, ops := p.1.ops ++ [opFor s f cls kind
            (nothingServed s [(r.lane, BitVec.ofNat 128 x)])] }
            t (s.pc + 12)
    next (.sld f) .LD (.loadS f.d.sreg w (modBits f.m 9 1 = 1) s.cur.slice) .rd ∧
    next (.sst f) .ST .storeS (.wr ((s.sreg f.d.sreg).setWidth 128))

/-- LoadsAndStoresIssue, PrivateAndWindowAccesses and ScalarAccesses together. -/
def Obligations.LoadsAndStoresOfLanes : Prop :=
  Sys2Proof.Claims.LoadsAndStoresIssue ∧ Sys2Proof.Claims.PrivateAndWindowAccesses ∧ Sys2Proof.Claims.ScalarAccesses

/-- ATOM, RED and CAS at relaxed order make one read-modify-write request per lane, in the type and at the scope that MOD names,
and are the released write of the fences before them (R187, R194, R270, R271). -/
def Sys2Proof.Claims.AtomicsIssue : Prop :=
  ∀ (s : State) (f : Fields),
    let t := modBits f.m 0 2
    let w := if t ≥ 2 then 8 else 4
    let scope := modBits f.m 5 3
    let lanes := (List.range s.me.width).filter (fun L => (s.part f).getLsbD L)
    let va := fun L => match f.a with
      | .s n => s.sreg n.toNat
      | a => s.src64 false a L
    let x := fun L => if t ≥ 2 then s.src64 (t = 3) f.b L else (s.src32 .int (t = 1) f.b L).setWidth 64
    let old := fun L => if t ≥ 2 then s.me.reg64 f.d.vreg L else (s.me.reg f.d.vreg L).setWidth 64
    let each := fun (act : Nat → Act) => lanes.map (fun L => [{ mkReq L (va L) w (act L) with
      home := [1, 3, 4, 5].contains scope, sys := decide (scope = 5), strong := true }])
    let s1 := s.setMe { s.me with relDue := false }
    modBits f.m 8 2 = 0 →
    (LaneRuns (.atom f) f s → NextServed (exec (.atom f) s) s1 f .LD (.loadV f.d.vreg w false)
      (each (fun L => .rmw (modBits f.m 2 3) t (x L) none))) ∧
    (LaneRuns (.red f) f s → NextServed (exec (.red f) s) s1 f .ST .store
      (each (fun L => .rmw (modBits f.m 2 3) t (x L) none))) ∧
    (LaneRuns (.cas f) f s → NextServed (exec (.cas f) s) s1 f .LD (.loadV f.d.vreg w false)
      (each (fun L => .rmw 6 t (x L) (some (old L)))))

/-- ATOM, RED and CAS with a release wait while an own load has not returned or an own store is not performed, at SYSTEM scope
until the node has acknowledged what is written to it, and else are preceded by the release at their scope; one with an acquire, performed in every lane at its issue, is followed by the acquire (R196, R202, R271). -/
def Sys2Proof.Claims.AtomicOrders : Prop :=
  ∀ (s : State) (f : Fields),
    let t := modBits f.m 0 2
    let w := if t ≥ 2 then 8 else 4
    let scope := modBits f.m 5 3
    let x := fun L => if t ≥ 2 then s.src64 (t = 3) f.b L else (s.src32 .int (t = 1) f.b L).setWidth 64
    let old := fun L => if t ≥ 2 then s.me.reg64 f.d.vreg L else (s.me.reg f.d.vreg L).setWidth 64
    let order := fun (i : Instr) (cls : Cls) (kind : OpKind) (act : Nat → Act) =>
      let lanes := ((List.range s.me.width).filter (fun L => (s.part f).getLsbD L)).map
        (fun L => [mkStrong L (s.laneBase f L) w scope (act L)])
      let r := s.release scope none
      let left := scope = 5 ∧ fabricPending r s.me.ctx = true
      let ready := fun (u : State) => u.setMe { s.me with relDue := false }
      LaneRuns i f s →
        (modBits f.m 8 2 ≥ 2 → s.memPending = true →
          exec i s = .next (s.setMe { s.me with st := .blocked, wait := .release })) ∧
        (modBits f.m 8 2 ≥ 2 → s.memPending = false → left →
          exec i s = .next (r.setMe { s.me with st := .blocked, wait := .release })) ∧
        (modBits f.m 8 2 = 2 → s.memPending = false → ¬left → NextServed (exec i s) (ready r) f cls kind lanes) ∧
        (modBits f.m 8 2 = 1 ∨ (modBits f.m 8 2 = 3 ∧ s.memPending = false ∧ ¬left) → s.op s.nextOp = none →
          let s0 := ready (if modBits f.m 8 2 = 3 then r else s)
          let a := serve s0 (s0.user s0.nextOp) true [] lanes
          a.causes = [] → a.parks = [] → a.todo = [] → a.remote = [] →
          exec i s = .next ((({ a.s with ops := a.s.ops ++ [opFor s0 f cls kind a], nextOp := s0.nextOp + 1 }).setMe
            { a.s.me with pc := s.me.pc + 12 }).acquire scope none))
    order (.atom f) .LD (.loadV f.d.vreg w false) (fun L => .rmw (modBits f.m 2 3) t (x L) none) ∧
    order (.red f) .ST .store (fun L => .rmw (modBits f.m 2 3) t (x L) none) ∧
    order (.cas f) .LD (.loadV f.d.vreg w false) (fun L => .rmw 6 t (x L) (some (old L)))

/-- The value that an atomic stores, by its op and type (R270): wrapping addition, minimum and maximum by sign, the bitwise
operations, exchange. -/
def Sys2Proof.Claims.AtomicValues : Prop :=
  ∀ (a b : W32) (c d : W64),
    atomicOp 0 0 a.toNat b.toNat = (a + b).toNat ∧ atomicOp 0 2 c.toNat d.toNat = (c + d).toNat ∧
    atomicOp 1 0 a.toNat b.toNat = (if a.toInt < b.toInt then a else b).toNat ∧
    atomicOp 1 1 a.toNat b.toNat = min a.toNat b.toNat ∧
    atomicOp 1 2 c.toNat d.toNat = (if c.toInt < d.toInt then c else d).toNat ∧
    atomicOp 1 3 c.toNat d.toNat = min c.toNat d.toNat ∧
    atomicOp 2 0 a.toNat b.toNat = (if a.toInt < b.toInt then b else a).toNat ∧
    atomicOp 2 1 a.toNat b.toNat = max a.toNat b.toNat ∧
    atomicOp 2 2 c.toNat d.toNat = (if c.toInt < d.toInt then d else c).toNat ∧
    atomicOp 2 3 c.toNat d.toNat = max c.toNat d.toNat ∧
    (∀ t, t < 4 → let n := if t ≥ 2 then 64 else 32
      ∀ x y, x < 2 ^ n → y < 2 ^ n →
        atomicOp 3 t x y = x &&& y ∧ atomicOp 4 t x y = x ||| y ∧ atomicOp 5 t x y = x ^^^ y ∧ atomicOp 6 t x y = y)

/-- AtomicsIssue, AtomicOrders and AtomicValues together. -/
def Obligations.AtomicsAndTheirOrder : Prop :=
  Sys2Proof.Claims.AtomicsIssue ∧ Sys2Proof.Claims.AtomicOrders ∧ Sys2Proof.Claims.AtomicValues

/-- A lane cause is recorded at its instruction's PC: the lane leaves the mask and every stack entry and is deferred, its byte
and VA name the PC-table entry, and the summary is the lowest cause recorded; the PC table takes a PC once (R337). -/
def Sys2Proof.Claims.LaneCauseIsRecorded : Prop :=
  ∀ (c : Caravan) (pc : W64) (L : Nat) (x : LaneCause) (va : W64), L < 1024 → c.trap.npc = c.trap.table.length →
    c.trap.npc < 32 →
    let va0 := if x = .queueClosed ∨ x = .queueFaulted ∨ x = .executorFault then 0 else va
    let d := c.recordLane pc L x va
    let e := (d.trap.table.map (·.1)).idxOf pc
    (∀ M, d.mask.getLsbD M = (c.mask.getLsbD M && decide (M ≠ L))) ∧
    (∀ M, M < 1024 → d.trap.dmask.getLsbD M = (c.trap.dmask.getLsbD M || decide (M = L))) ∧
    (∀ i M, (d.entry i).mask.getLsbD M = ((c.entry i).mask.getLsbD M && decide (M ≠ L))) ∧
    (if pc ∈ c.trap.table.map (·.1) then d.trap.table = c.trap.table else d.trap.table = c.trap.table ++ [(pc, va0)]) ∧
    d.trap.npc = d.trap.table.length ∧ e < d.trap.npc ∧
    (∀ M, sget 0 d.trap.laneBytes M = if M = L then BitVec.ofNat 8 (8 * e + (x.code - 16)) else sget 0 c.trap.laneBytes M) ∧
    (∀ M, sget 0 d.trap.laneVas M = if M = L then va0.setWidth 16 else sget 0 c.trap.laneVas M) ∧
    d.trap.summary = (if c.trap.summary = 0 ∨ x.code < c.trap.summary.toNat then BitVec.ofNat 8 x.code else c.trap.summary) ∧
    d.pc = c.pc ∧ d.st = c.st ∧ d.trap.taken = c.trap.taken

/-- TrapsThatKill and LaneCauseIsRecorded together. -/
def Obligations.FatalTrapsAndLaneFaults : Prop :=
  Sys2Proof.Claims.TrapsThatKill ∧ Sys2Proof.Claims.LaneCauseIsRecorded

/-- REGION copies what was written of the staged registers back and stages the named ones; as an instruction reads them,
registers keep their values (R70, R71, R276). -/
def Sys2Proof.Claims.RegionKeepsRegisters : Prop :=
  ∀ (s : State) (f : Fields), OnceRuns (.region f) f s →
    ∃ t, exec (.region f) s = .next t ∧ OnlyMe s t ∧ t.me.pc = s.me.pc + 12 ∧
      (∀ r L, L < s.me.width → L < 1024 →
        (s.me.staged.contains r = true → (sget 0 s.me.swr r).getLsbD L = false →
          sget 0 s.me.slots (1024 * r + L) = sget 0 s.me.win (1024 * r + L)) →
        t.me.reg r L = s.me.reg r L) ∧
      (∃ n, t.me.staged = (f.d.rangeRegs ++ f.a.rangeRegs ++ f.b.rangeRegs).take n ∧ 2 ≤ n) ∧
      { t.me with win := s.me.win, slots := s.me.slots, swr := s.me.swr, staged := s.me.staged, pc := s.me.pc } = s.me

/-- LDQ reserves the next slot of its queue and leaves one outstanding operation; with the queue full it waits, and with the
queue closed it reads nothing, and is counted and retires in its turn (R73, R90, R91, R275). CCTL of addresses within 57 bits counts one store and goes on (R274). -/
def Sys2Proof.Claims.QueueLoadsAndCacheControl : Prop :=
  ∀ (s : State) (f : Fields),
    let q := s.queueOf f.d.qNum
    let w := 2 ^ modBits f.m 0 3
    let base := s.sreg f.a.sreg + BitVec.ofInt 64 f.b.immS
    let a := serve s (s.user s.nextOp) false [] ((List.range s.me.width).map (fun L =>
      [mkReq L (base + BitVec.ofNat 64 (w * L)) w .rd]))
    let kind : OpKind := .ldq f.d.qNum q.nextSeq w (modBits f.m 9 1 = 1)
    (SliceRuns (.ldq f) f s → q.closed = true → s.op s.nextOp = none →
      exec (.ldq f) s = .next ({ s with
        ops := State.retired (s.ops ++ [{ opFor s f .LD kind (nothingServed s []) with done := true }]), nextOp := s.nextOp + 1 }.setMe
          { s.me with slice := { s.me.slice with pc := s.me.slice.pc + 12 } })) ∧
    (SliceRuns (.ldq f) f s → q.closed = false → s.me.qdepth ≤ q.ents.length →
      exec (.ldq f) s = .next (s.setMe { s.me with slice :=
        { s.me.slice with st := .blocked, wait := .queueSlot f.d.qNum } })) ∧
    (SliceRuns (.ldq f) f s → q.closed = false → q.ents.length < s.me.qdepth → f.d.qNum < s.me.queues.length →
      a.causes = [] → a.parks = [] →
      ∃ t, exec (.ldq f) s = .next t ∧ t.pc = s.pc + 12 ∧ t.nextOp = s.nextOp + 1 ∧
        t.ops = a.s.ops ++ [opFor s f .LD kind a] ∧
        t.queueOf f.d.qNum = { q with ents := q.ents ++ [{ seq := q.nextSeq, landed := false }],
                                      nextSeq := q.nextSeq + 1 }) ∧
    (LaneRuns (.cctl f) f s →
      let lanes := (List.range s.me.width).filter (fun L => (s.part f).getLsbD L)
      (∀ L ∈ lanes, (s.laneVa f L).toNat < 2 ^ 57) →
      ∃ t, exec (.cctl f) s = .next t ∧ t.me = { s.me with pc := s.me.pc + 12 } ∧ t.nextOp = s.nextOp + 1 ∧
        ∃ ops, t.ops = ops ++ [opFor s f .ST .store (nothingServed s [])])

/-- RegionKeepsRegisters and QueueLoadsAndCacheControl together. -/
def Obligations.RegionsQueueLoadsCaches : Prop :=
  Sys2Proof.Claims.RegionKeepsRegisters ∧ Sys2Proof.Claims.QueueLoadsAndCacheControl

/-! ## Ordering, barriers, parties, spawn, granules (R277 to R286) -/

/-- FENCE, REL and ACQ without a joined access: a release waits for the caravan's own accesses, and an acquire for its own loads
(log 106); a release then puts its marker behind the dirty lines and holds the caravan until it completes; at the scopes that
drain nothing it is complete at once, at a deep scope once its channel has taken every line. An acquire follows, or is performed
at once; at CARAVAN scope the window's slots are returned first (R71, R195 to R197, R201, R278, R279). -/
def Sys2Proof.Claims.FencesOrder : Prop :=
  ∀ (s : State) (f : Fields),
    let scope := modBits f.m 6 3
    let kind := modBits f.m 0 2
    let drains := decide (scope = 1 ∨ scope = 3 ∨ scope = 4 ∨ scope = 5)
    let c := s.me
    let c1 := if scope = 0 then c.returnSlots else c
    let k := s.core s.cur.core
    let goes := fun (i : Instr) (rel acq : Bool) (x : Operand) =>
      let deep := deepScope s c.ctx s.cur.core (decide (scope = 7)) (s.sreg x.sreg)
      OnceRuns i f s →
        (rel = true → scope < 6 ∨ deep.isSome = true → s.memPending = true →
          exec i s = .next (s.setMe { c1 with st := .blocked, wait := .release })) ∧
        (rel = false → acq = true → scope < 6 ∨ deep.isSome = true → s.readPending = true →
          exec i s = .next (s.setMe { c1 with st := .blocked, wait := .acquire })) ∧
        (rel = true → s.memPending = false → drains = true →
          exec i s = .next ((s.setCore s.cur.core { k with fifo := k.fifo.filter (fun e => e ≠ .marker s.cur.slot) ++
            [.marker s.cur.slot] }).setMe { c with stall := .release scope acq, pc := c.pc + 12,
                                                   relDue := if scope = 4 ∨ scope = 5 then true else c.relDue })) ∧
        (rel = true → s.memPending = false → scope = 0 ∨ scope = 2 →
          exec i s = .next (s.setMe { c1 with pc := c.pc + 12 })) ∧
        (rel = false → acq = true → s.readPending = false → scope < 6 →
          exec i s = .next ((s.acquire scope none).setMe { c1 with pc := c.pc + 12 })) ∧
        (scope ≥ 6 → deep = none → exec i s = .next ((s.raiseCv .resource).settle s.cur.core s.cur.slot)) ∧
        (∀ d, scope ≥ 6 → deep = some d → rel = true → s.memPending = false →
          let r := s.release scope (some d)
          (deepLeft r (some d) = true → exec i s = .next (r.setMe { c with st := .blocked, wait := .release })) ∧
          (deepLeft r (some d) = false → exec i s =
            .next ((if acq then r.acquire scope (some d) else r).setMe { c with pc := c.pc + 12 }))) ∧
        (∀ d, scope ≥ 6 → deep = some d → rel = false → acq = true → s.readPending = false →
          exec i s = .next ((s.acquire scope (some d)).setMe { c with pc := c.pc + 12 }))
    goes (.fence f) (kind ≠ 1) (kind ≠ 2) f.a ∧
    (modBits f.m 9 1 = 0 → goes (.rel f) true false f.b ∧ goes (.acq f) false true f.b)

/-- REL.W performs its release and then its store, ACQ.W its load and then its acquire; where the joined access has to wait, the
caravan issues nothing further until it is made (R194, R279). -/
def Sys2Proof.Claims.JoinedReleaseAndAcquire : Prop :=
  ∀ (s : State) (f : Fields), modBits f.m 9 1 = 1 →
    let scope := modBits f.m 6 3
    let w := 2 ^ modBits f.m 0 2
    let va := s.sreg f.a.sreg
    let c := if scope = 0 then s.me.returnSlots else s.me
    let s1 := if scope = 0 then s.setMe c else s
    let k := s.core s.cur.core
    let drains := decide (scope = 1 ∨ scope = 3 ∨ scope = 4 ∨ scope = 5)
    let req := fun (act : Act) => { mkStrong (lowest c.width c.mask) va w scope act with deep := decide (scope ≥ 6) }
    let deep := fun (d : Option (Nat × Option Nat)) =>
      if scope < 6 then d = none else d ≠ none ∧ deepScope s c.ctx s.cur.core (decide (scope = 7)) (s.sreg f.b.sreg) = d
    let store := req (.wr ((s.sreg f.d.sreg).setWidth 128))
    let wr := s1.perform (s.user s.nextOp) store
    let passes := (∀ x, wr.2 ≠ .cause x) ∧ ∀ x, wr.2 ≠ .park x
    let away := fun (r : Res) => r = .busy ∨ r = .remote ∨ r = .fill
    let rd := s1.perform (s.user s.nextOp) (req .rd)
    (OnceRuns (.rel f) f s → scope < 6 → s.memPending = true →
      exec (.rel f) s = .next (s.setMe { c with st := .blocked, wait := .release })) ∧
    (OnceRuns (.rel f) f s → s.memPending = false → drains = true → passes →
      exec (.rel f) s = .next ((s.setCore s.cur.core { k with fifo := k.fifo.filter (fun e => e ≠ .marker s.cur.slot) ++
        [.marker s.cur.slot] }).setMe
          { c with stall := .releaseStore scope va (s.sreg f.d.sreg) w, relDue := false, pc := c.pc + 12 })) ∧
    (∀ d, OnceRuns (.rel f) f s → s.memPending = false → drains = false → deep d → passes →
      let r := (s.setMe { c with relDue := false }).release scope d
      let last := (r.setMe { c with relDue := false, pc := c.pc + 12 }).perform (s.user s.nextOp) store
      (deepLeft r d = true → exec (.rel f) s = .next ((s1.release scope d).setMe { c with st := .blocked, wait := .release })) ∧
      (∀ y, deepLeft r d = false → last.2 = .ok y → exec (.rel f) s = .next last.1) ∧
      (deepLeft r d = false → away last.2 → ∃ t, exec (.rel f) s = .next t ∧
        t.me = { c with relDue := false, pc := c.pc + 12, stall := .acquireOp s.nextOp 0 0 })) ∧
    (∀ x d, OnceRuns (.acq f) f s → deep d → rd.2 = .ok x →
      let y : W64 := if modBits f.m 2 1 = 1 then BitVec.ofInt 64 (signed (8 * w) x) else BitVec.ofNat 64 x
      exec (.acq f) s = .next (((rd.1.setMe { c with sregs := sset 0 c.sregs f.d.sreg y }).acquire scope d).setMe
        { c with sregs := sset 0 c.sregs f.d.sreg y, pc := c.pc + 12 })) ∧
    (∀ d, OnceRuns (.acq f) f s → deep d → away rd.2 → ∃ t, exec (.acq f) s = .next t ∧
      t.me = { c with pc := c.pc + 12, stall := .acquireOp s.nextOp scope (if scope ≥ 6 then s.sreg f.b.sreg else 0) })

/-- FencesOrder and JoinedReleaseAndAcquire together. -/
def Obligations.ReleasesAndAcquires : Prop :=
  Sys2Proof.Claims.FencesOrder ∧ Sys2Proof.Claims.JoinedReleaseAndAcquire

/-- WAITC waits until each counter is at or below its threshold, 63 placing no wait; a pending trap is taken instead of a wait;
an access slice reads its own counters (R65, R73, R220, R280). -/
def Sys2Proof.Claims.WaitcWaitsForCounters : Prop :=
  ∀ (s : State) (f : Fields),
    let bits := fun (o : Operand) (lo : Nat) => match o with
      | .raw x => x.toNat / 2 ^ lo % 64
      | _ => 0
    let count := fun (c : Cls) => (s.ops.filter (fun o => o.core = s.cur.core ∧ o.cslot = s.cur.slot ∧ o.slice = s.cur.slice ∧
      o.cls = c)).length
    let met := ∀ p ∈ [(Cls.LD, bits f.a 0), (Cls.ST, bits f.a 6), (Cls.CP, bits f.b 0), (Cls.MX, bits f.b 6), (Cls.CL, bits f.d 0),
      (Cls.BX, bits f.d 6)], p.2 = 63 ∨ count p.1 ≤ p.2
    let w := Wait.waitc (bits f.a 0) (bits f.a 6) (bits f.b 0) (bits f.b 6) (bits f.d 0) (bits f.d 6)
    (AgentRuns (.waitc f) f s → met → NextPc (exec (.waitc f) s) s (s.pc + 12)) ∧
    (OnceRuns (.waitc f) f s → ¬met → s.me.pending = false →
      exec (.waitc f) s = .next (s.setMe { s.me with st := .blocked, wait := w })) ∧
    (OnceRuns (.waitc f) f s → ¬met → s.me.pending = true →
      exec (.waitc f) s = .next ((s.takeTrap s.cur.core s.cur.slot 4 s.pc 0 0 0).settle s.cur.core s.cur.slot)) ∧
    (SliceRuns (.waitc f) f s → ¬met →
      exec (.waitc f) s = .next (s.setMe { s.me with slice := { s.me.slice with st := .blocked, wait := w } }))

/-- MARK completes at issue: the operations from the next number on follow those before it, whoever they go to (R207, R281).
MARK.PARTY is also noted for the party; when every member has one that is not answered, the oldest of each is: from then on what each
issued after it follows what the others issued before theirs (R208). -/
def Sys2Proof.Claims.MarksHoldOperations : Prop :=
  ∀ (s : State) (f : Fields),
    let c := { s.me with marks := liveMarks s s.cur.core s.cur.slot ++ [s.nextOp],
                         follows := liveFollows s s.cur.core s.cur.slot, pc := s.me.pc + 12 }
    (OnceRuns (.mark f) f s → modBits f.m 9 1 = 0 ∨ s.me.party = none → exec (.mark f) s = .next (s.setMe c)) ∧
    (∀ pk pe, OnceRuns (.mark f) f s → modBits f.m 9 1 = 1 → s.me.party = some (pk, pe) →
      let made := (s.party pk pe).made
      let held := s.setMe { c with marked := c.marked ++ [(pk, pe, made, s.nextOp)] }
      let all := markers held pk pe
      let first := fun (m : Nat × Nat) => (marksFor held pk pe m).headD 0
      ((∃ m ∈ all, marksFor held pk pe m = []) → exec (.mark f) s = .next held) ∧
      ((∀ m ∈ all, marksFor held pk pe m ≠ []) → all.Nodup →
        (∀ m ∈ all, ∀ n ∈ all, 16 * m.1 + m.2 = 16 * n.1 + n.2 → m = n) →
        (∃ m ∈ (s.party pk pe).members, (marksFor held pk pe m).length = 1) →
        ∃ t, exec (.mark f) s = .next t ∧ t.mem = s.mem ∧ t.ops = s.ops ∧ ∀ m ∈ all, t.cv m.1 m.2 = { held.cv m.1 m.2 with
          marked := (held.cv m.1 m.2).marked.erase (pk, pe, made, first m),
          follows := (held.cv m.1 m.2).follows ++
            (all.filter (fun n => n ≠ m)).map (fun n => (first m, n.1, n.2 % 16, first n)) }))

/-- WaitcWaitsForCounters and MarksHoldOperations together. -/
def Obligations.CountersAndMarks : Prop :=
  Sys2Proof.Claims.WaitcWaitsForCounters ∧ Sys2Proof.Claims.MarksHoldOperations

/-- A barrier's record is 16 bytes at its place in the party's scratch. BARINIT writes INIT and PENDING n, with the members
counted under .M; BAREXP adds to BYTESDUE; BARARV is one arrival of no bytes behind a release at PARTY scope (R80, R81, R282). -/
def Sys2Proof.Claims.BarrierOperations : Prop :=
  ∀ (s : State) (f : Fields) (pk pe : Nat), s.me.party = some (pk, pe) → s.cur.slice = false →
    let p := s.party pk pe
    let b := f.a.immU
    let at_ := Flat.core pk (256 * p.scrBase + 16 * b)
    let x := mload s.mem at_ 16
    let n := (s.srcS true f.b).toNat + (if modBits f.m 9 1 = 1 then p.joined else 0)
    let go := s.setMe { s.me with pc := s.me.pc + 12 }
    let made := 2 ^ 48 * n + 2 ^ 32 * n + (if modBits f.m 9 1 = 1 then 8 else 0)
    16 * b + 16 ≤ 256 * p.scrSize →
    (OnceRuns (.barinit f) f s → Bar.init x = 0 ∨ (Bar.pend x = Bar.init x ∧ Bar.due x = 0) → 0 < n → n ≤ 65535 →
      exec (.barinit f) s = .next { go with mem := mstore s.mem at_ 16 made }) ∧
    (OnceRuns (.barexp f) f s → Bar.init x ≠ 0 →
      exec (.barexp f) s = .next ((go.putBarrier pk pe b (Bar.addDue x (s.srcS true f.b).toInt)).settle s.cur.core s.cur.slot)) ∧
    (OnceRuns (.bararv f) f s → s.memPending = true →
      exec (.bararv f) s = .next (s.setMe { s.me with st := .blocked, wait := .release })) ∧
    (OnceRuns (.bararv f) f s → s.memPending = false →
      let r := s.release 1 none
      exec (.bararv f) s =
        .next (((r.setMe { s.me with pc := s.me.pc + 12 }).arrive pk pe b 0).settle s.cur.core s.cur.slot))

/-- An arrival takes one from PENDING and its bytes from BYTESDUE; when both reach zero the phase flips and PENDING is INIT
again, and the members that wait for it go on; without a pending arrival it sets ERR (R81, R83). -/
def Sys2Proof.Claims.BarrierArrival : Prop :=
  ∀ (s : State) (pk pe b n : Nat),
    let p := s.party pk pe
    let at_ := Flat.core pk (256 * p.scrBase + 16 * b)
    let x := mload s.mem at_ 16
    let y := fun (t : State) => mload t.mem at_ 16
    let t := s.arrive pk pe b n
    let left := Bar.due x - n
    let waits := fun (m : Nat × Nat) => (s.cv m.1 m.2).st = .blocked ∧ (s.cv m.1 m.2).wait = .barrier b (Bar.phase x)
    p.st ≠ .free → 16 * b + 16 ≤ 256 * p.scrSize → -2 ^ 47 ≤ left →
    ((∀ m ∈ p.members, ¬waits m) →
    (Bar.init x ≠ 0 → 0 < Bar.pend x → (Bar.pend x ≠ 1 ∨ left ≠ 0 ∨ Bar.err x = true) →
      Bar.pend (y t) = Bar.pend x - 1 ∧ Bar.due (y t) = left ∧ Bar.init (y t) = Bar.init x ∧ Bar.phase (y t) = Bar.phase x ∧
        Bar.err (y t) = Bar.err x ∧ Bar.members (y t) = Bar.members x) ∧
    (Bar.init x ≠ 0 → Bar.pend x = 1 → left = 0 → Bar.err x = false →
      Bar.pend (y t) = Bar.init x ∧ Bar.due (y t) = 0 ∧ Bar.init (y t) = Bar.init x ∧ Bar.phase (y t) = !Bar.phase x ∧
        Bar.err (y t) = false ∧ Bar.members (y t) = Bar.members x) ∧
    (Bar.init x = 0 ∨ Bar.pend x = 0 → Bar.err (y t) = true ∧ Bar.pend (y t) = Bar.pend x ∧ Bar.due (y t) = Bar.due x ∧
      Bar.init (y t) = Bar.init x ∧ Bar.phase (y t) = Bar.phase x) ∧
    (∀ a, a < at_ ∨ at_ + 16 ≤ a → mget t.mem a = mget s.mem a)) ∧
    (Bar.init x ≠ 0 → Bar.pend x = 1 → left = 0 → Bar.err x = false →
      (∀ m ∈ p.members, m.2 < 16 ∧ (s.cv m.1 m.2).mask ≠ 0 ∧ (s.cv m.1 m.2).pending = false) → p.members.Nodup →
      ∀ m ∈ p.members, waits m →
        t.cv m.1 m.2 = { s.cv m.1 m.2 with st := (s.cv m.1 m.2).runState, wait := .none, pc := (s.cv m.1 m.2).pc + 12 })

/-- BARWAIT with parity p returns at once when PHASE ≠ p, with an acquire at PARTY scope, and else waits for it to flip; a
pending trap is taken first. BARTEST writes PHASE ≠ p and never waits. Both raise RESOURCE on ERR = 1 or INIT = 0 (R83, R338). -/
def Sys2Proof.Claims.BarrierWaitAndTest : Prop :=
  ∀ (s : State) (f : Fields) (pk pe : Nat), s.me.party = some (pk, pe) →
    let p := s.party pk pe
    let x := mload s.mem (Flat.core pk (256 * p.scrBase + 16 * f.a.immU)) 16
    let q := (s.srcS true f.b).getLsbD 0
    let bad := Bar.err x = true ∨ Bar.init x = 0
    16 * f.a.immU + 16 ≤ 256 * p.scrSize →
    (∀ i ∈ [Instr.barwait f, .bartest f], OnceRuns i f s → bad →
      exec i s = .next ((s.raiseCv .resource).settle s.cur.core s.cur.slot)) ∧
    (OnceRuns (.barwait f) f s → ¬bad → s.me.pending = true →
      exec (.barwait f) s = .next ((s.takeTrap s.cur.core s.cur.slot 3 s.pc 0 0 0).settle s.cur.core s.cur.slot)) ∧
    (OnceRuns (.barwait f) f s → ¬bad → s.me.pending = false → Bar.phase x ≠ q →
      exec (.barwait f) s = .next ((s.acquire 1 none).setMe { s.me with pc := s.me.pc + 12 })) ∧
    (OnceRuns (.barwait f) f s → ¬bad → s.me.pending = false → Bar.phase x = q →
      exec (.barwait f) s = .next (s.setMe { s.me with st := .blocked, wait := .barrier f.a.immU q })) ∧
    (OnceRuns (.bartest f) f s → ¬bad → NextLanes (exec (.bartest f) s) s s.me.reg
      (withP s f.d.pnum s.me.mask (fun _ => decide (Bar.phase x ≠ q))) 0)

/-- BarrierOperations, BarrierWaitAndTest and BarrierArrival together. -/
def Obligations.BarriersServeTheirParty : Prop :=
  Sys2Proof.Claims.BarrierOperations ∧ Sys2Proof.Claims.BarrierWaitAndTest ∧ Sys2Proof.Claims.BarrierArrival

/-- JOIN answers by status: a member already is refused, a new key makes a party with its scratch zeroed, a forming party takes
one more member and is FORMED when the expected count has joined; a creating JOIN waits during DRAIN (R25, R76, R283). -/
def Sys2Proof.Claims.JoinMakesAndFillsParties : Prop :=
  ∀ (s : State) (f : Fields), OnceRuns (.join f) f s →
    let k := s.cur.core
    let key := s.sreg f.a.sreg
    let x := (s.srcS true f.b).toNat
    let count := x % 256
    let size := match f.b with
      | .s _ => x / 2 ^ 16 % 2 ^ 16
      | _ => x / 2 ^ 8 % 2 ^ 8
    let word := fun (status : Nat) (pk pe : Nat) => BitVec.ofNat 64 (status + 2 ^ 8 * (pk % 8) + 2 ^ 11 * pe)
    (s.me.party ≠ none → NextS (exec (.join f) s) s f 5) ∧
    (s.me.party = none → key = 0 → NextS (exec (.join f) s) s f 6) ∧
    (∀ pk pe, s.me.party = none → key ≠ 0 → findParty s k s.me.ctx key = some (pk, pe) →
      ((s.party pk pe).st ≠ .forming → NextS (exec (.join f) s) s f 2) ∧
      ((s.party pk pe).st = .forming →
        ∃ t, exec (.join f) s = .next t ∧ t.sreg f.d.sreg = word 1 pk pe ∧ t.me.party = some (pk, pe) ∧ t.pc = s.pc + 12 ∧
          (t.party pk pe).members = (s.party pk pe).members ++ [(k, s.cur.slot)] ∧
          (t.party pk pe).joined = (s.party pk pe).joined + 1 ∧
          ((t.party pk pe).st = .formed ↔ (s.party pk pe).joined + 1 = (s.party pk pe).expect) ∧ t.mem = s.mem)) ∧
    (s.me.party = none → key ≠ 0 → findParty s k s.me.ctx key = none → count = 0 ∨ count > 128 →
      NextS (exec (.join f) s) s f 6) ∧
    (∀ e b, s.me.party = none → key ≠ 0 → findParty s k s.me.ctx key = none → 0 < count → count ≤ 128 →
      (List.range 16).find? (fun e => decide ((s.party k e).st = .free)) = some e →
      scratchAt s k s.me.csbase s.me.cslen size = some b → s.myCtx.st ≠ .draining →
      ∃ t, exec (.join f) s = .next t ∧ t.sreg f.d.sreg = word 0 k e ∧ t.me.party = some (k, e) ∧ t.pc = s.pc + 12 ∧
        (t.party k e) = { Party.zero with st := if count = 1 then .formed else .forming, key := key, ctx := s.me.ctx, scrBase := b, scrSize := size,
                                          expect := count, made := s.clock, joined := 1, cores := 1#8 <<< (k % 8),
                                          members := [(k, s.cur.slot)] } ∧
        (∀ a, mget t.mem a = if Flat.core k (256 * b) ≤ a ∧ a < Flat.core k (256 * b) + 256 * size then 0 else mget s.mem a)) ∧
    (s.me.party = none → key ≠ 0 → findParty s k s.me.ctx key = none → 0 < count → count ≤ 128 →
      let entry := (List.range 16).find? (fun e => decide ((s.party k e).st = .free))
      let place := scratchAt s k s.me.csbase s.me.cslen size
      (entry = none → NextS (exec (.join f) s) s f 3) ∧
      (entry ≠ none → place = none → NextS (exec (.join f) s) s f 4) ∧
      (entry ≠ none → place ≠ none → s.myCtx.st = .draining →
        exec (.join f) s = .next (s.setMe { s.me with st := .blocked, wait := .join })))

/-- LEAVE waits until the caravan's CP, MX and CL are zero, then takes it out of its party; outside a party it only goes on.
PARTYQ reads the party's entry or a barrier (R75, R77, R283). -/
def Sys2Proof.Claims.LeaveAndPartyQuery : Prop :=
  ∀ (s : State) (f : Fields),
    let quiet := ∀ o ∈ s.ops, o.core = s.cur.core → o.cslot = s.cur.slot → o.slice = false → o.cls ≠ .CP ∧ o.cls ≠ .MX ∧ o.cls ≠ .CL
    (OnceRuns (.leave f) f s → s.me.party = none → NextPc (exec (.leave f) s) s (s.pc + 12)) ∧
    (OnceRuns (.leave f) f s → s.me.party ≠ none → ¬quiet →
      exec (.leave f) s = .next (s.setMe { s.me with st := .blocked, wait := .leave })) ∧
    (OnceRuns (.leave f) f s → s.me.party ≠ none → quiet →
      exec (.leave f) s = .next (((s.setMe { s.me with pc := s.me.pc + 12 }).leaveParty s.cur.core s.cur.slot).settle s.cur.core
        s.cur.slot)) ∧
    (∀ pk pe, OnceRuns (.leave f) f s → s.me.party = some (pk, pe) → quiet → (s.party pk pe).scrSize = 0 → s.cur.slot < 16 →
      (∀ m ∈ markers s pk pe, marksFor s pk pe m = []) → (∃ m ∈ (s.party pk pe).members, m ≠ (s.cur.core, s.cur.slot)) →
      ∃ t, exec (.leave f) s = .next t ∧ t.me = { s.me with party := none, pc := s.me.pc + 12 } ∧
        (t.party pk pe).members = (s.party pk pe).members.filter (fun m => m ≠ (s.cur.core, s.cur.slot)) ∧
        (t.party pk pe).joined = (s.party pk pe).joined - 1 ∧ t.mem = s.mem) ∧
    (OnceRuns (.partyq f) f s → s.me.party = none → NextS (exec (.partyq f) s) s f 0) ∧
    (∀ pk pe, OnceRuns (.partyq f) f s → s.me.party = some (pk, pe) →
      let p := s.party pk pe
      let code := match p.st with
        | .free => 0
        | .forming => 1
        | .formed => 2
      let b := (f.a.immU - 2) / 2
      let low := code + 2 ^ 8 * p.cores.toNat + 2 ^ 16 * p.joined + 2 ^ 24 * p.expect + 2 ^ 32 * p.scrSize + 2 ^ 48 * p.scrBase
      (f.a.immU = 0 → NextS (exec (.partyq f) s) s f (BitVec.ofNat 64 low)) ∧
      (f.a.immU = 1 → low < 2 ^ 64 → NextS (exec (.partyq f) s) s f p.key) ∧
      (2 ≤ f.a.immU → 16 * b + 16 ≤ 256 * p.scrSize → NextS (exec (.partyq f) s) s f (BitVec.ofNat 64
        (mload s.mem (Flat.core pk (256 * p.scrBase + 16 * b) + 8 * (f.a.immU % 2)) 8))) ∧
      (2 ≤ f.a.immU → 256 * p.scrSize < 16 * b + 16 → NextS (exec (.partyq f) s) s f 0))

/-- JoinMakesAndFillsParties and LeaveAndPartyQuery together. -/
def Obligations.PartiesJoinAndLeave : Prop :=
  Sys2Proof.Claims.JoinMakesAndFillsParties ∧ Sys2Proof.Claims.LeaveAndPartyQuery

/-- SPAWN of an entry the kernel lacks raises RESOURCE; one that must wait blocks; else, behind a release at DEVICE scope, its
arguments go to the die's bin one after another and the caravan goes on (R53, R284). TERMQ writes the kernel's status word, and
one that reads RETIRED acquires at SYSTEM scope (R55, R285). -/
def Obligations.SpawnAndTermination : Prop :=
  ∀ (s : State) (f : Fields),
    let e := (s.srcS true f.a).toNat
    let d := dieOfCore s.cur.core
    let args := ((List.range s.me.width).filter (fun L => (s.part f).getLsbD L)).map (fun L => s.src64 false f.b L)
    (LaneRuns (.spawn f) f s → (∀ k, s.kernel s.me.kid = some k → k.nspawn ≤ e) →
      exec (.spawn f) s = .next ((s.raiseCv .resource).settle s.cur.core s.cur.slot)) ∧
    (∀ k, LaneRuns (.spawn f) f s → s.kernel s.me.kid = some k → e < k.nspawn →
      let ent := k.spawn.getD e 0
      (spawnWaits s d s.me.kid ent args.length = true →
        exec (.spawn f) s = .next (s.setMe { s.me with st := .blocked, wait := .spawnBin e args.length })) ∧
      (spawnWaits s d s.me.kid ent args.length = false → s.memPending = true →
        exec (.spawn f) s = .next (s.setMe { s.me with st := .blocked, wait := .release })) ∧
      (spawnWaits s d s.me.kid ent args.length = false → s.memPending = false →
        exec (.spawn f) s = .next ((args.foldl (fun t x => t.appendItem d s.me.kid e ent x) (s.release 4 none)).setMe
          { s.me with pc := s.me.pc + 12 }))) ∧
    (OnceRuns (.termq f) f s →
      let x := kernelStatus s (s.sreg f.a.sreg)
      (x.toNat % 8 ≠ 4 → NextS (exec (.termq f) s) s f x) ∧
      (x.toNat % 8 = 4 → exec (.termq f) s = .next ((s.acquire 5 none).setMe
        { s.me with sregs := sset 0 s.me.sregs f.d.sreg x, pc := s.me.pc + 12 })))

/-- ACCALLOC binds n free granules of its core to the party's name, zeroed, in ascending order, and answers 1 in every lane;
when they do not fit, a party that already holds granules there is answered 0 in the active lanes, and any other waits in line. ACCFREE frees a name, and waits
while a matrix instruction uses it (R78, R286). -/
def Obligations.GranulesAreGranted : Prop :=
  ∀ (s : State) (f : Fields) (p : Nat × Nat), s.me.party = some p →
    let k := s.cur.core
    let z := f.a.zNum
    let n := (s.srcS true f.b).toNat
    let free := (List.range 32).filter (fun g => (s.core k).znames.all (fun y => !y.grans.contains g))
    let mine := fun (y : ZName) => decide (y.pcore = p.1 ∧ y.pent = p.2)
    let holds := (s.core k).znames.any mine
    let bound := (s.core k).znames.any (fun y => mine y && decide (y.z = z))
    let answer := fun (b : Bool) (t : State) => NextLanes (.next t) { s with cores := t.cores, mem := t.mem } s.me.reg
      (withP s f.d.pnum (if b then maskWhere s.me.width (fun _ => true) else s.me.mask) (fun _ => b)) 0
    (OnceRuns (.accalloc f) f s → n = 0 ∨ n > 32 ∨ bound = true →
      exec (.accalloc f) s = .next ((s.raiseCv .resource).settle s.cur.core s.cur.slot)) ∧
    (OnceRuns (.accalloc f) f s → 0 < n → n ≤ 32 → bound = false → n ≤ free.length →
      ∃ t, exec (.accalloc f) s = .next t ∧ answer true t ∧
        (t.core k).znames = (s.core k).znames ++
          [{ pcore := p.1, pent := p.2, z := z, grans := free.take n, hdr := BitVec.ofNat 64 n }] ∧
        (∀ a, mget t.mem a = if ∃ g ∈ free.take n, Flat.accum k (16384 * g) ≤ a ∧ a < Flat.accum k (16384 * g) + 16384 then 0
          else mget s.mem a)) ∧
    (OnceRuns (.accalloc f) f s → 0 < n → n ≤ 32 → bound = false → free.length < n → holds = true →
      ∃ t, exec (.accalloc f) s = .next t ∧ answer false t ∧ t.cores = s.cores ∧ t.mem = s.mem) ∧
    (OnceRuns (.accalloc f) f s → 0 < n → n ≤ 32 → bound = false → holds = false → free.length < n →
      exec (.accalloc f) s = .next ((s.setCore k { s.core k with accq := (s.core k).accq ++
        [{ slot := s.cur.slot, pd := f.d.pnum, z := z, n := n }] }).setMe { s.me with st := .blocked, wait := .accalloc z n })) ∧
    (OnceRuns (.accfree f) f s → bound = false →
      exec (.accfree f) s = .next ((s.raiseCv .resource).settle s.cur.core s.cur.slot)) ∧
    (OnceRuns (.accfree f) f s → bound = true → zInUse s k p z = true →
      exec (.accfree f) s = .next (s.setMe { s.me with st := .blocked, wait := .accfree z })) ∧
    (OnceRuns (.accfree f) f s → bound = true → zInUse s k p z = false →
      exec (.accfree f) s = .next ((s.setCore k { s.core k with
        znames := (s.core k).znames.filter (fun y => !(mine y && decide (y.z = z))) }).setMe
          { s.me with pc := s.me.pc + 12 }))

/-! ## Tiles, copies, queues and the access engine (R307 to R318) -/

/-- TDEF makes the entry EMPTY from the fields of s[a]; a word, a size or a place that is not allowed, or another context's
entry, is RESOURCE, an own entry that is not EMPTY TILE_STATE. TFREE empties a READY or EMPTY tile. TSTAT writes half of the
entry's word, zero for another context's (R85, R87, R308). -/
def Sys2Proof.Claims.TilesAreDefinedAndFreed : Prop :=
  ∀ (s : State) (f : Fields),
    let k := s.cur.core
    let n := f.d.tileNum
    let old := s.tile k n
    let x := (s.sreg f.a.sreg).toNat
    let base := x % 2 ^ 14
    let fmt := x / 2 ^ 14 % 2 ^ 4
    let pitch := x / 2 ^ 18 % 2 ^ 11
    let rows := x / 2 ^ 29 % 2 ^ 9
    let cols := x / 2 ^ 38 % 2 ^ 10
    let bad := x / 2 ^ 48 ≠ 0 ∨ pitch = 0 ∨ 1024 < pitch ∨ ((fmt = 2 ∨ fmt = 3) ∧ (cols + 1) % 32 ≠ 0) ∨
      32 * pitch < ((cols + 1) * typeBits fmt + 7) / 8 ∨ inSpace s (256 * base) (32 * pitch * (rows + 1)) = false ∨
      (old.defined = true ∧ old.ctx ≠ s.me.ctx)
    (AgentRuns (.tdef f) f s → bad → exec (.tdef f) s = .next (stops s .resource)) ∧
    (AgentRuns (.tdef f) f s → ¬bad → old.defined = true → old.st ≠ .empty → exec (.tdef f) s = .next (tileStops s false)) ∧
    (AgentRuns (.tdef f) f s → ¬bad → old.defined = false ∨ old.st = .empty →
      exec (.tdef f) s = .next (goesOn (s.setTile k n
        { Tile.zero with defined := true, base := base, fmt := fmt, pitch := pitch, rows := rows, cols := cols, ctx := s.me.ctx,
                         owner := s.me.party.map (fun p => (placeOfCore p.1, p.2)) }))) ∧
    (AgentRuns (.tfree f) f s → old.defined = false ∨ old.ctx ≠ s.me.ctx →
      exec (.tfree f) s = .next (tileStops s false)) ∧
    (AgentRuns (.tfree f) f s → old.defined = true → old.ctx = s.me.ctx →
      (tileHeld s k n = true → exec (.tfree f) s = .next (waits s (.tileHeld k n))) ∧
      (tileHeld s k n = false → old.st = .filling ∨ old.st = .draining → exec (.tfree f) s = .next (tileStops s false)) ∧
      (tileHeld s k n = false → old.st = .empty ∨ old.st = .ready →
        exec (.tfree f) s = .next (goesOn (s.setTile k n { old with st := .empty, err := false })))) ∧
    (OnceRuns (.tstat f) f s →
      let y := s.tile k f.a.tileNum
      (y.defined = true → y.ctx = s.me.ctx → NextS (exec (.tstat f) s) s f (BitVec.ofNat 64 (y.word / 2 ^ (64 * f.b.immU)))) ∧
      (y.defined = false ∨ y.ctx ≠ s.me.ctx → NextS (exec (.tstat f) s) s f 0))

/-- TLD reads word N·c + L of a READY tile into lane L, OUT_OF_RANGE beyond the tile's bytes; TST fills an EMPTY tile with words
from consecutive registers, zero from a lane that takes no part; the tile is FILLING until they land, and then READY and
holds them (R86, R87, R309). -/
def Sys2Proof.Claims.TileLoadsAndStores : Prop :=
  ∀ (s : State) (f : Fields),
    let k := s.cur.core
    let x := s.tile k f.a.tileNum
    let y := s.tile k f.d.tileNum
    let at_ := fun (L : Nat) => 4 * (s.me.width * (s.srcS true f.b).toNat + L)
    let part := (List.range s.me.width).filter (fun L => (s.part f).getLsbD L)
    let words := (y.bytes + 4 * s.me.width - 1) / (4 * s.me.width)
    (LaneRuns (.tld f) f s → x.defined = true → x.ctx = s.me.ctx → x.st = .ready → x.err = false →
      (∀ L ∈ part, at_ L + 4 ≤ x.bytes) →
      exec (.tld f) s = .next (goesOn (s.addOp f .LD (.tld f.d.vreg) [] [] []
        (part.map (fun L => (L, BitVec.ofNat 128 (s.storeLoad k (256 * x.base + at_ L) 4))))))) ∧
    (LaneRuns (.tld f) f s → x.defined = true → x.ctx = s.me.ctx → x.st = .filling ∨ x.st = .draining →
      exec (.tld f) s = .next (waits s (.tileReady k f.a.tileNum))) ∧
    (LaneRuns (.tld f) f s → x.defined = false ∨ x.ctx ≠ s.me.ctx ∨ x.st = .empty →
      exec (.tld f) s = .next (tileStops s false)) ∧
    (LaneRuns (.tst f) f s → y.defined = true → y.ctx = s.me.ctx → tileHeld s k f.d.tileNum = false → y.st = .empty →
      (s.me.nregs < f.a.vreg + words → exec (.tst f) s = .next (stops s .resource)) ∧
      (f.a.vreg + words ≤ s.me.nregs →
        exec (.tst f) s = .next (goesOn ((s.setTile k f.d.tileNum { y with st := .filling, pend := y.bytes, err := false }).addOp f
          .ST (.tst f.d.tileNum) [] [] [] (s.tstWords f words))))) ∧
    (LaneRuns (.tst f) f s → y.defined = true → y.ctx = s.me.ctx → tileHeld s k f.d.tileNum = false →
      (y.st = .draining → exec (.tst f) s = .next (waits s (.tileFree f.d.tileNum))) ∧
      (y.st = .filling ∨ y.st = .ready → exec (.tst f) s = .next (tileStops s false))) ∧
    (∀ (o : Op) (n : Nat),
      let z := s.tile o.core n
      (∀ b, b < z.bytes → windowAt s o.core (256 * z.base + b) = none) →
      (∀ b, b < z.bytes →
        ((s.landTst o n).storeByte o.core (256 * z.base + b)).toNat = (sget 0 o.vals (b / 4)).toNat / 2 ^ (8 * (b % 4)) % 256) ∧
      (∀ a, a < Flat.core o.core (256 * z.base) ∨ Flat.core o.core (256 * z.base) + z.bytes ≤ a →
        mget (s.landTst o n).mem a = mget s.mem a))

/-- TilesAreDefinedAndFreed and TileLoadsAndStores together. -/
def Obligations.TileEntriesAndTransfers : Prop :=
  Sys2Proof.Claims.TilesAreDefinedAndFreed ∧ Sys2Proof.Claims.TileLoadsAndStores

/-- CPL, CPT and CPO leave a CP operation outstanding with the barrier that MOD names, and go on; a CPT's tile is FILLING and a
CPO's DRAINING. A count of zero completes at once, counted and retired in its turn, with its arrival of zero bytes; so does one with a
misaligned base, which records MISALIGNED, a CPT's tile being READY with ERR. A length of 2^32, a count that is not the tile's, and a
barrier outside the scratch are RESOURCE (R73, R87, R88, R311 to R313). -/
def Obligations.CopiesStart : Prop :=
  ∀ (s : State) (f : Fields) (bar : Option (Nat × Nat × Nat × Nat)), s.op s.nextOp = none →
    let k := s.cur.core
    let n := f.d.tileNum
    let x := s.tile k n
    let named := modBits f.m 9 1 = 1
    let b := modBits f.m 5 4
    let allowed := (¬named ∧ bar = none) ∨ (named ∧ ∃ p, s.me.party = some p ∧ 16 * b + 16 ≤ 256 * (s.party p.1 p.2).scrSize ∧
      bar = some (p.1, p.2, (s.party p.1 p.2).made, b))
    let len := (s.srcS true f.b).toNat
    let base := s.sreg f.a.sreg
    let box := s.boxRegs f.b.sreg
    let total := box.1.foldl (· * ·) 1
    let fits := total = (x.rows + 1) * (x.cols + 1)
    let aligned := typeBits x.fmt < 16 ∨ base.toNat % (typeBits x.fmt / 8) = 0
    let mine := x.defined = true ∧ x.ctx = s.me.ctx ∧ tileHeld s k n = false
    let free := decide (modBits f.m 0 1 = 1)
    let op := fun (t : State) (kind : CopyKind) => goesOn (t.addOp f .CP (.copy { kind := kind, bar := bar, pos := 0, ended := false })
      [] [] [] [])
    let counted := fun (t : State) (kind : CopyKind) => goesOn { t with nextOp := t.nextOp + 1, ops := State.retired (t.ops ++
      [{ opFor s f .CP (.copy { kind := kind, bar := bar, pos := 0, ended := false })
          (nothingServed s []) with done := true }]) }
    let settled := fun (t : State) => if s.cur.slice then t else t.settle s.cur.core s.cur.slot
    let arrived := fun (t : State) => settled ((if bar.isSome then t.drainFifo s.cur.core none else t).arriveAt bar 0)
    let atOnce := fun (t : State) (kind : CopyKind) => arrived (counted t kind)
    let misaligned := fun (t : State) (kind : CopyKind) =>
      let u := counted t kind
      arrived (if s.cur.slice then u.sliceTrapAt k s.cur.slot s.pc 0x14
        else (u.raiseAll k s.cur.slot s.pc s.pc s.me.mask .misaligned base).settle k s.cur.slot)
    let drains := if x.st = .draining then { x with pend := x.pend + 1, freep := x.freep || free }
      else { x with st := .draining, pend := 1, freep := free }
    (∀ i ∈ [Instr.cpl f, .cpt f, .cpo f], AgentRuns i f s → named → s.me.party = none → (i = .cpl f ∨ mine) →
      exec i s = .next (stops s .resource)) ∧
    (AgentRuns (.cpl f) f s → allowed →
      (2 ^ 32 ≤ len → exec (.cpl f) s = .next (stops s .resource)) ∧
      (len = 0 → exec (.cpl f) s = .next (atOnce s (.cpl base (s.sreg f.d.sreg) 0))) ∧
      (0 < len → len < 2 ^ 32 → exec (.cpl f) s = .next (op s (.cpl base (s.sreg f.d.sreg) len)))) ∧
    (AgentRuns (.cpt f) f s → allowed → mine →
      (x.st = .draining → exec (.cpt f) s = .next (waits s (.tileFree n))) ∧
      (x.st = .filling ∨ x.st = .ready → exec (.cpt f) s = .next (tileStops s false)) ∧
      (x.st = .empty → total ≠ 0 → ¬fits → exec (.cpt f) s = .next (stops s .resource)) ∧
      (x.st = .empty → total = 0 → aligned →
        exec (.cpt f) s = .next (atOnce (s.setTile k n { x with st := .ready, pend := 0, err := false }) (.cpt n base box.1 box.2))) ∧
      (x.st = .empty → total = 0 ∨ fits → ¬aligned →
        exec (.cpt f) s = .next (misaligned (s.setTile k n { x with st := .ready, pend := 0, err := true }) (.cpt n base box.1 box.2))) ∧
      (x.st = .empty → total ≠ 0 → fits → aligned →
        exec (.cpt f) s = .next (op (s.setTile k n { x with st := .filling, pend := (total * typeBits x.fmt + 7) / 8, err := false })
          (.cpt n base box.1 box.2)))) ∧
    (AgentRuns (.cpo f) f s → allowed → mine →
      (x.st = .empty → exec (.cpo f) s = .next (tileStops s false)) ∧
      (x.st = .filling → exec (.cpo f) s = .next (waits s (.tileReady k n))) ∧
      (x.st = .draining ∨ (x.st = .ready ∧ x.err = false) →
        (total ≠ 0 → ¬fits → exec (.cpo f) s = .next (stops s .resource)) ∧
        (total ≠ 0 → fits → aligned → exec (.cpo f) s = .next (op (s.setTile k n drains) (.cpo n base box.1 box.2))) ∧
        (total = 0 → aligned → exec (.cpo f) s = .next (atOnce (s.setTile k n drains.sent) (.cpo n base box.1 box.2))) ∧
        (total = 0 ∨ fits → ¬aligned → exec (.cpo f) s = .next (misaligned (s.setTile k n drains.sent) (.cpo n base box.1 box.2)))))

/-- CPQ reserves as many slots of its queue as are free and waits for the rest; with the queue closed it pushes nothing, and is counted
and retires in its turn. QCLOSE closes a queue, keeping its landed entries, QSTAT writes its state. QPUSH appends a landed entry a + L·b,
waits while the queue is full and is discarded when it is closed (R73, R89 to R91, R314, R315, R317). -/
def Sys2Proof.Claims.QueueOperations : Prop :=
  ∀ (s : State) (f : Fields),
    let q := f.d.qNum
    let x := s.queueOf q
    let base := s.sreg f.a.sreg
    let cnt := (s.srcS true f.b).toNat
    let room := s.me.qdepth - x.ents.length
    let inRange := q < s.me.queues.length ∧ s.cur.slot < 16
    let put := fun (t : State) (y : OpQueue) => t.setMe { t.me with queues := t.me.queues.set q y }
    (SliceRuns (.cpq f) f s → s.openCpq = none →
      (cnt = 0 ∨ s.me.qdepth < cnt → exec (.cpq f) s = .next (stops s .resource)) ∧
      (0 < cnt → cnt ≤ s.me.qdepth → base.toNat % 4 ≠ 0 → exec (.cpq f) s = .next (s.raiseEvery .misaligned base)) ∧
      (0 < cnt → cnt ≤ s.me.qdepth → base.toNat % 4 = 0 → x.closed = true → s.op s.nextOp = none →
        exec (.cpq f) s = .next (goesOn { s with nextOp := s.nextOp + 1, ops := State.retired (s.ops ++
          [{ opFor s f .CP (.copy { kind := .cpq q base cnt x.nextSeq 0, bar := none, pos := 0, ended := false })
              (nothingServed s []) with done := true }]) })) ∧
      (0 < cnt → cnt ≤ s.me.qdepth → base.toNat % 4 = 0 → x.closed = false → inRange → (∀ o ∈ s.ops, o.id < s.nextOp) →
        ∃ t, exec (.cpq f) s = .next t ∧
          (t.queueOf q).ents = x.ents ++ (List.range (min cnt room)).map (fun j =>
            { seq := x.nextSeq + j, landed := false }) ∧
          (t.queueOf q).nextSeq = x.nextSeq + min cnt room ∧
          (t.op s.nextOp).map (fun o => (o.cls, o.kind)) = some (Cls.CP,
            .copy { kind := .cpq q base cnt x.nextSeq (min cnt room), bar := none, pos := 0, ended := false }) ∧
          (cnt ≤ room → t.pc = s.pc + 12 ∧ t.me.slice.st = .running) ∧
          (room < cnt → t.pc = s.pc ∧ t.me.slice.st = .blocked ∧ t.me.slice.wait = .queueSlot q) ∧ t.mem = s.mem)) ∧
    (∀ o c b n first res, SliceRuns (.cpq f) f s → s.openCpq = some (o, c) → c.kind = .cpq q b n first res →
      (x.closed = true → exec (.cpq f) s = .next (goesOn s)) ∧
      (x.closed = false → inRange → (∀ p ∈ s.ops, p.id = o.id → p = o) →
        ∃ t, exec (.cpq f) s = .next t ∧ (t.queueOf q).nextSeq = x.nextSeq + min (n - res) room ∧
          (n - res ≤ room → t.pc = s.pc + 12 ∧ t.me.slice.st = .running) ∧
          (room < n - res → t.pc = s.pc ∧ t.me.slice.st = .blocked ∧ t.me.slice.wait = .queueSlot q))) ∧
    (OnceRuns (.qclose f) f s → x.closed = false →
      exec (.qclose f) s = .next (goesOn (put s { x with ents := x.ents.takeWhile (fun e => e.landed), closed := true, qerr := false }))) ∧
    (OnceRuns (.qclose f) f s → x.closed = true → NextPc (exec (.qclose f) s) s (s.pc + 12)) ∧
    (OnceRuns (.qstat f) f s →
      let y := s.queueOf f.a.qNum
      NextS (exec (.qstat f) s) s f (BitVec.ofNat 64 (4 * s.me.qdepth + 128 * y.head + 2048 * (y.ents.takeWhile (fun e => e.landed)).length +
        (if y.closed then 65536 else 0) + (if y.qerr then 131072 else 0)))) ∧
    (SliceRuns (.qpush f) f s →
      (x.closed = true → exec (.qpush f) s = .next (goesOn s)) ∧
      (x.closed = false → s.me.qdepth ≤ x.ents.length → exec (.qpush f) s = .next (waits s (.queueSlot q))) ∧
      (x.closed = false → x.ents.length < s.me.qdepth → inRange →
        (∀ e ∈ x.ents, e.seq < x.nextSeq) →
        let at_ := fun (L : Nat) => s.me.queueAt q (x.head + x.ents.length) + 4 * L
        (∀ L b, L < s.me.width → b < 4 → windowAt s s.cur.core (at_ L + b) = none) →
        ∃ t, exec (.qpush f) s = .next t ∧ t.pc = s.pc + 12 ∧
          t.queueOf q = { x with ents := x.ents ++ [{ seq := x.nextSeq, landed := true }], nextSeq := x.nextSeq + 1 } ∧
          (∀ L, L < s.me.width → mload t.mem (Flat.core s.cur.core (at_ L)) 4 =
            ((s.sreg f.a.sreg + BitVec.ofNat 64 L * s.srcS false f.b).setWidth 32).toNat) ∧
          ∀ a, a < Flat.core s.cur.core (at_ 0) ∨ Flat.core s.cur.core (at_ 0) + 4 * s.me.width ≤ a → mget t.mem a = mget s.mem a))

/-- AFOR with a count of zero goes past its loop, and else pushes the loop; a fifth level is RESOURCE. AEND steps the loop's
register and goes back, or pops the last iteration's entry and goes on. AWAIT goes on when the tile has the state it names,
and else waits for it (R94, R317). -/
def Sys2Proof.Claims.AccessLoops : Prop :=
  ∀ (s : State) (f : Fields),
    let x := s.me.slice
    let cnt := min (s.srcS true f.a).toNat (2 ^ 32 - 1)
    let put := fun (t : State) (l : List LoopEntry) (pc : W64) => t.setMe { t.me with slice := { t.me.slice with loops := l, pc := pc } }
    (SliceRuns (.afor f) f s →
      (cnt = 0 → NextPc (exec (.afor f) s) s (s.pc + BitVec.ofNat 64 (12 * (f.m.toNat + 1)))) ∧
      (0 < cnt → 4 ≤ x.loops.length → exec (.afor f) s = .next (stops s .resource)) ∧
      (0 < cnt → x.loops.length < 4 →
        exec (.afor f) s = .next (put s (x.loops ++ [{ pc := s.pc + 12, cnt := cnt, a := f.d.sreg, i := f.b.sreg }]) (s.pc + 12)))) ∧
    (SliceRuns (.aend f) f s → x.loops = [] → exec (.aend f) s = .next (stops s .resource)) ∧
    (∀ e rest, SliceRuns (.aend f) f s → x.loops = rest ++ [e] → s.cur.slot < 16 →
      let stepped := fun (m : Nat) => if m = e.a then s.sreg e.a + s.sreg e.i else s.sreg m
      ∃ t, exec (.aend f) s = .next t ∧ (∀ m, t.sreg m = stepped m) ∧ t.mem = s.mem ∧
        (1 < e.cnt → t.pc = e.pc ∧ t.me.slice.loops = rest ++ [{ e with cnt := e.cnt - 1 }]) ∧
        (e.cnt ≤ 1 → t.pc = s.pc + 12 ∧ t.me.slice.loops = rest)) ∧
    (SliceRuns (.await f) f s →
      let y := s.tile s.cur.core f.d.tileNum
      let code := match y.st with
        | .empty => 0
        | .filling => 1
        | .ready => 2
        | .draining => 3
      (y.defined = false ∨ y.ctx ≠ s.me.ctx → exec (.await f) s = .next (tileStops s false)) ∧
      (y.defined = true → y.ctx = s.me.ctx → code = f.a.immU → NextPc (exec (.await f) s) s (s.pc + 12)) ∧
      (y.defined = true → y.ctx = s.me.ctx → code ≠ f.a.immU →
        exec (.await f) s = .next (waits s (.tileState f.d.tileNum f.a.immU))))

/-- QueueOperations and AccessLoops together. -/
def Obligations.QueuesAndAccessLoops : Prop :=
  Sys2Proof.Claims.QueueOperations ∧ Sys2Proof.Claims.AccessLoops

/-! ## The matrix unit (R287 to R305) -/

/-- A matrix instruction issues converged, with its operands as R294 asks, and leaves an MX operation outstanding; it waits for
a tile that fills or drains, and does not issue while its caravan has an MMA, MMAS or MSL outstanding (R294, R296). -/
def Sys2Proof.Claims.MatrixIssues : Prop :=
  ∀ (s : State) (f : Fields),
    let k := s.cur.core
    let op := fun (t : State) (m : MxOp) =>
      goesOn (t.addOp f .MX (.matrix { m with k := mxK s m, step := mxResume s m }) [] [] [] [])
    (∀ i ∈ [Instr.mma f, .mmas f, .mmx f, .msca f, .msl f, .mzero f, .mlda f, .mcvt f], OnceRuns i f s →
      ((∃ L, L < s.me.width ∧ s.me.mask.getLsbD L = false) → (∀ L, s.me.width ≤ L → s.me.mask.getLsbD L = false) →
        exec i s = .next (stops s .illegalConvergence)) ∧
      (s.me.mask = maskWhere s.me.width (fun _ => true) → mxPlan s i = none → exec i s = .next (stops s .resource)) ∧
      (∀ m, s.me.mask = maskWhere s.me.width (fun _ => true) → mxPlan s i = some m →
        (mxOutstanding s k s.cur.slot = true → exec i s = .next s) ∧
        (mxOutstanding s k s.cur.slot = false → (∃ w ∈ mxWants s k m, mxBadTile s w = true) →
          exec i s = .next (tileStops s false)) ∧
        (mxOutstanding s k s.cur.slot = false → i ≠ .mcvt f →
          (∀ w ∈ mxWants s k m, mxBadTile s w = false ∧ (s.tile w.1 w.2.1).err = false ∧ (s.tile w.1 w.2.1).st = .ready) →
          exec i s = .next (op s m)) ∧
        (mxOutstanding s k s.cur.slot = false → (∀ w ∈ mxWants s k m, mxBadTile s w = false) →
          (∃ w ∈ mxWants s k m, (s.tile w.1 w.2.1).st = .ready ∧ (s.tile w.1 w.2.1).err = true) →
          exec i s = .next (tileStops s true)) ∧
        (∀ w, mxOutstanding s k s.cur.slot = false → i ≠ .mcvt f →
          (mxWants s k m).find? (fun w => decide ((s.tile w.1 w.2.1).st ≠ .ready)) = some w →
          (∀ w ∈ mxWants s k m, mxBadTile s w = false ∧ ((s.tile w.1 w.2.1).st = .ready → (s.tile w.1 w.2.1).err = false)) →
          exec i s = .next (waits s (.tileReady w.1 w.2.1))))) ∧
    (∀ m, OnceRuns (.mcvt f) f s → s.me.mask = maskWhere s.me.width (fun _ => true) → mxPlan s (.mcvt f) = some m →
      mxOutstanding s k s.cur.slot = false →
      let n := f.d.tileNum
      let x := s.tile k n
      let good := x.defined = true ∧ x.ctx = s.me.ctx ∧ x.rows = 63 ∧ x.cols = 63 ∧ x.fmt ≠ 2 ∧ x.fmt ≠ 3
      (¬good → exec (.mcvt f) s = .next (tileStops s false)) ∧
      (good → x.st = .empty → exec (.mcvt f) s =
        .next (op (s.setTile k n { x with st := .filling, pend := (4096 * typeBits x.fmt + 7) / 8, err := false }) m)) ∧
      (good → x.st = .draining → exec (.mcvt f) s = .next (waits s (.tileFree n))) ∧
      (good → x.st = .filling ∨ x.st = .ready → exec (.mcvt f) s = .next (tileStops s false)))

/-- The Z names of a matrix instruction must be bound by its party, with the granules of its layout; MSL takes 1 to 8 digits
of FP64 and 1 to 4 of FP32, and MSCA two different names. MSTAT writes a name's header, zero where it is not bound (R78, R288, R294, R300, R301). -/
def Sys2Proof.Claims.AccumulatorNamesAreChecked : Prop :=
  ∀ (s : State) (f : Fields),
    let bound := fun (z n : Nat) => ∃ p b, s.me.party = some p ∧ zName s s.cur.core p z = some b ∧ n ≤ b.grans.length
    let ty := modBits f.m 2 4
    let need := if ty = 7 then 2 else 1
    let msl64 := modBits f.m 8 1 = 0
    let n := if modBits f.m 9 1 = 1 then (s.sreg (modBits f.m 0 6)).toNat else modBits f.m 0 6
    (∀ x ∈ [(Instr.mma f, f.d.zNum, 1), (.mmas f, f.d.zNum, 1), (.mmx f, f.d.zNum, 4), (.msca f, f.d.zNum, 1),
        (.msca f, f.a.zNum, 4), (.msl f, f.d.zNum, if msl64 then 5 else 3), (.mzero f, f.d.zNum, need),
        (.mlda f, f.d.zNum, need), (.mcvt f, f.a.zNum, need)],
      ¬bound x.2.1 x.2.2 → mxPlan s x.1 = none) ∧
    (n = 0 ∨ (if msl64 then 8 else 4) < n → mxPlan s (.msl f) = none) ∧
    (f.a.zNum = f.d.zNum → mxPlan s (.msca f) = none) ∧
    (∀ x ∈ [(Instr.mzero f, MxKind.mzero, f.d.zNum, need), (.mlda f, .mlda, f.d.zNum, need), (.mcvt f, .mcvt, f.a.zNum, need)],
      bound x.2.2.1 x.2.2.2 → ∃ m, mxPlan s x.1 = some m ∧ m.kind = x.2.1 ∧ m.ty = ty ∧ m.zd = x.2.2.1 ∧
        s.me.party = some (m.pcore, m.pent) ∧ m.started = false) ∧
    (∀ ta tb, bound f.d.zNum 4 → f.a = .tile ta → f.b = .tile tb →
      ∃ m, mxPlan s (.mmx f) = some m ∧ m.kind = .mmx ∧ m.ty = ty ∧ m.zd = f.d.zNum ∧ m.a = .tile s.cur.core ta.toNat ∧
        m.b = .tile s.cur.core tb.toNat) ∧
    (∀ b, OnceRuns (.mstat f) f s → (∃ p, s.me.party = some p ∧ zName s s.cur.core p f.a.zNum = some b) →
      NextS (exec (.mstat f) s) s f b.hdr) ∧
    (OnceRuns (.mstat f) f s → (∀ p, s.me.party = some p → zName s s.cur.core p f.a.zNum = none) →
      NextS (exec (.mstat f) s) s f 0)

/-- MatrixIssues and AccumulatorNamesAreChecked together. -/
def Obligations.MatrixOperationsIssue : Prop :=
  Sys2Proof.Claims.MatrixIssues ∧ Sys2Proof.Claims.AccumulatorNamesAreChecked

/-- A K-step of an integer MMA replaces each of the 4096 accumulators by its sum with the 32 products, clamped to the
symmetric range, SAT being raised by a clamp, and changes no other byte; a sparse row takes each group's two stored elements
at the places its metadata name; MMX writes four exact partial sums for each output (R177, R178, R297, R298). -/
def Obligations.MatrixAccumulates : Prop :=
  ∀ (s : State) (o : Op) (m : MxOp) (b : Nat → Nat → Nat) (rows : Nat → List (Int × Flag)),
    let gs := granulesOf s o.core m m.zd
    let acc := fun (t : State) (x : Nat) => accLoad t.mem o.core gs x 4
    let t := (macStep s o m rows b).1
    let dot := fun (i j : Nat) => ((List.range 32).map (fun k => ((rows i).getD k (0, 0)).1 * (siValue m.ty (b (32 * m.step + k) j)).1)).sum
    let sum := fun (i j : Nat) => signed 32 (acc s (4 * (64 * i + j))) + dot i j
    (1 ≤ gs.length → (∀ i, (rows i).length = 32) → ∀ i j, i < 64 → j < 64 →
      signed 32 (acc t (4 * (64 * i + j))) = max (-(2 ^ 31 - 1)) (min (2 ^ 31 - 1) (sum i j))) ∧
    (1 ≤ gs.length → (∀ i, (rows i).length = 32) →
      ((macStep s o m rows b).2 &&& fSAT ≠ 0 ↔ (∃ i j, i < 64 ∧ j < 64 ∧ (2 ^ 31 - 1 < sum i j ∨ sum i j < -(2 ^ 31 - 1))) ∨
        ∃ i k, i < 64 ∧ k < 32 ∧ ((rows i).getD k (0, 0)).2 &&& fSAT ≠ 0)) ∧
    (1 ≤ gs.length → ∀ a, a < accAt o.core gs 0 ∨ accAt o.core gs 0 + 16384 ≤ a → mget t.mem a = mget s.mem a) ∧
    (∀ step i w g e, g < 8 → e < 4 → (w / 2 ^ (4 * g) % 4 ≠ w / 2 ^ (4 * g + 2) % 4) →
      ((sparseRow s m step i w).getD (4 * g + e) (0, 0)).1 =
        if w / 2 ^ (4 * g) % 4 = e then (siValue m.ty (srcElem s m.a i (16 * step + 2 * g))).1
        else if w / 2 ^ (4 * g + 2) % 4 = e then (siValue m.ty (srcElem s m.a i (16 * step + 2 * g + 1))).1 else 0) ∧
    (4 ≤ gs.length → gs.Nodup → ∀ i j p q, i < 64 → j < 64 → p < 2 → q < 2 →
      let u := fun (k : Nat) => dxParts m.ty (srcElem s m.a i k)
      let v := fun (k : Nat) => dxParts m.ty (b k j)
      signed 32 (acc (mmxPartials s o m b).1 (16384 * (2 * p + q) + 4 * (64 * i + j))) =
        ((List.range 32).map (fun k => if (u k).1 = p ∧ (v k).1 = q then (u k).2.1 * (v k).2.1 else 0)).sum)

/-- MSL's digits: the number is the sum of its digits and a residual of at most half a unit of the last one, a digit of a
number below a half lies between −64 and 64, and a residual that is not zero is reported. MSCA and the last step of MSL leave
an infinity, and an accumulator to which zero is added, as they are, a NaN becomes the canonical one, and else the exact sum is
rounded once (R179, R181, R183, R184). -/
def Obligations.SlicedSumsRoundOnce : Prop :=
  (∀ (d n : Nat) (y : Int), 1 ≤ d → 2 * y.natAbs ≤ 2 ^ d →
    let r := digitsOf d n y
    r.1.length = n ∧ (∀ g ∈ r.1, g.natAbs ≤ 64) ∧
    let rest := y * 128 ^ n - (r.1.foldl (fun a g => 128 * a + g) 0) * 2 ^ d
    2 * rest.natAbs ≤ 2 ^ d ∧ (r.2 = true ↔ rest ≠ 0)) ∧
  (∀ (n : Nat), sliceSteps n = (List.range n).flatMap (fun u => (List.range (u + 1)).map (fun p => (p + 1, u + 1 - p))) ∧
    (sliceSteps n).length = n * (n + 1) / 2 ∧
    ∀ p q, (p, q) ∈ sliceSteps n ↔ 1 ≤ p ∧ 1 ≤ q ∧ p + q ≤ n + 1) ∧
  (∀ (f : Fmt) (n : Nat) (a b : Split) (z : Nat) (x : Int), f = fp32 ∨ f = fp64 →
    (a.special = true ∨ b.special = true → sliceOut f n a b z x = (f.nan, fNV)) ∧
    (a.special = false → b.special = false →
      (∀ sg, decodeFp f z = .nan sg → sliceOut f n a b z x = (f.nan, if sg then fNV else 0)) ∧
      (∀ neg, decodeFp f z = .inf neg → sliceOut f n a b z x = (z, 0)) ∧
      (∀ neg m e, decodeFp f z = .fin neg m e → x = 0 → sliceOut f n a b z x = (z, 0)) ∧
      (∀ neg m e, decodeFp f z = .fin neg m e → x ≠ 0 →
        let r := addExact (neg, m, e) (x < 0, x.natAbs, a.exp + b.exp - 7 * ((n : Int) + 1))
        sliceOut f n a b z x = roundSum f 0 r.1 r.2 false))) ∧
  (∀ (z ea eb : Nat) (p : List Int),
    let e := fun (sel : Nat) (x : Nat) => signed 8 (x / 2 ^ (8 * sel) % 256)
    let y := p.getD 0 0 * 2 ^ (e 0 ea + e 0 eb + 256).toNat + p.getD 1 0 * 2 ^ (e 0 ea + e 1 eb + 256).toNat +
      p.getD 2 0 * 2 ^ (e 1 ea + e 0 eb + 256).toNat + p.getD 3 0 * 2 ^ (e 1 ea + e 1 eb + 256).toNat
    (∀ sg, decodeFp fp32 z = .nan sg → mscaOne z p ea eb = (fp32.nan, if sg then fNV else 0)) ∧
    (∀ neg, decodeFp fp32 z = .inf neg → mscaOne z p ea eb = (z, 0)) ∧
    (∀ neg m x, decodeFp fp32 z = .fin neg m x → y = 0 → mscaOne z p ea eb = (z, 0)) ∧
    (∀ neg m x, decodeFp fp32 z = .fin neg m x → y ≠ 0 →
      let r := addExact (neg, m, x) (y < 0, y.natAbs, -256)
      mscaOne z p ea eb = roundSum fp32 0 r.1 r.2 false))

/-- The sequencer: an instruction starts when no earlier one holds it, with its progress in its header; MZERO zeroes its name's
granules, sets the header's FMT and no flag, and retires; SAVING stops an interruptible instruction, which keeps its step in
PROGRESS; a round of a set is delivered once all its members ask for it (R291, R295, R299, R302 to R304). -/
def Obligations.MatrixSequencing : Prop :=
  ∀ (s : State) (o : Op) (m : MxOp), s.op o.id = some o → o.kind = .matrix m → o.done = false →
    (mxMayStart s o = true → (∀ p ∈ s.ops, p.core = o.core → p.id < o.id → mxMayStart s p = false) →
      ∃ t, exec (.matrixStart o.id) s = .next t ∧ t.op o.id = some { o with kind := .matrix { m with started := true, stopped := false } } ∧
        t.cvs = s.cvs ∧ (m.kind ≠ .msl → t.mem = s.mem) ∧
        (m.kind.stops = false → t.cores = s.cores) ∧
        (m.kind = .mma → m.step < 64 → ∀ h, zName s o.core (m.pcore, m.pent) m.zd = some h →
          ∃ h', zName t o.core (m.pcore, m.pent) m.zd = some h' ∧ Hdr.op h'.hdr = 1 ∧ Hdr.step h'.hdr = m.step ∧
            Hdr.ng h'.hdr = Hdr.ng h.hdr)) ∧
    (mxMayStart s o = false → exec (.matrixStart o.id) s = .next s) ∧
    (m.kind = .mzero → m.started = true → m.stopped = false → m.rounds = [] → o.held = [] → o.remote = [] →
      ∃ t, exec (.matrixComplete o.id) s = .next t ∧
        (∀ a, mget t.mem a = if ∃ g ∈ granulesOf s o.core m m.zd, Flat.accum o.core (16384 * g) ≤ a ∧
            a < Flat.accum o.core (16384 * g) + 16384 then 0 else mget s.mem a) ∧
        (∀ h, zName s o.core (m.pcore, m.pent) m.zd = some h → m.flags = 0 → ∃ h', zName t o.core (m.pcore, m.pent) m.zd = some h' ∧
          h'.hdr = BitVec.ofNat 64 (Hdr.ng h.hdr + 2 ^ 12 * (if m.ty = 7 then 3 else if m.ty = 6 then 2 else 1) +
            2 ^ 44 * (h.hdr.toNat / 2 ^ 44 % 2 ^ 12))) ∧
        (∀ p ∈ t.ops, p.id = o.id → p.done = true)) ∧
    (m.started = false → exec (.matrixComplete o.id) s = .next s) ∧
    (((s.ctx o.ctx).st ≠ .saving ∨ m.kind.stops = false ∨ m.stopped = true) → exec (.matrixStop o.id) s = .next s) ∧
    ((s.ctx o.ctx).st = .saving → m.kind.stops = true → m.stopped = false → m.started = false →
      ∃ t, exec (.matrixStop o.id) s = .next t ∧ t.op o.id = some { o with kind := .matrix { m with stopped := true } } ∧
        (t.cv o.core o.cslot).progress = progressWord m.step o.pc ∧ t.mem = s.mem) ∧
    (∀ die cluster mask tile, (∃ c, c < 8 ∧ mask / 2 ^ c % 2 = 1 ∧ ∀ p ∈ s.ops, p.core ≠ 96 * die + 8 * cluster + c) →
      exec (.multicastRound die cluster mask tile) s = .next s) ∧
    (∀ r tile, o.core < 192 → o.core % 96 < 96 → m.stopped = false → m.rounds = [(1#8 <<< (o.core % 8), r, tile)] → r < 8 →
      (∀ p ∈ s.ops, p.core = o.core → p = o) →
      exec (.multicastRound (o.core / 96) (o.core % 96 / 8) (2 ^ (o.core % 8)) tile) s =
        .next (s.setOp { o with kind := .matrix { m with rounds := [] } }))

/-! ## The fabric (R153 to R161, R319 to R326) -/

/-- RLD, RST and RATOM send one request for each lane that takes part to the node and context that s[a] names, and leave one CL
operation outstanding that waits for the replies; behind a MARK the requests wait at the core. A node word that names no node is
RESOURCE; a lane that is beyond 2^57 or misaligned sends nothing. A RATOM with a release is preceded by it, and one with an acquire
holds the caravan until the acquire is complete (R207, R263, R271, R306, R320). -/
def Sys2Proof.Claims.RemoteAccessesAreSent : Prop :=
  ∀ (s : State) (f : Fields),
    let word := s.sreg f.a.sreg
    let node : BitVec 16 := word.setWidth 16
    let tctx : BitVec 8 := (word >>> 16).setWidth 8
    let named := word.toNat / 2 ^ 24 = 0 ∧ node ≠ 0 ∧ node ≠ 0xFFFF
    let lanes := (List.range s.me.width).filter (fun L => (s.part f).getLsbD L)
    let va := fun L => s.src64 false f.b L
    let w := 2 ^ modBits f.m 0 3
    let wa := if modBits f.m 0 2 ≥ 2 then 8 else 4
    let ord := modBits f.m 8 2
    let ok := fun (w : Nat) => lanes ≠ [] ∧ ∀ L ∈ lanes, (va L).toNat < 2 ^ 57 ∧ (va L).toNat % w = 0
    let reqs := fun (w : Nat) (act : Nat → Act) => lanes.map (fun L => mkReq L (va L) w (act L))
    let sent := fun (t : State) (w : Nat) (kind : OpKind) (act : Nat → Act) =>
      goesOn (lanes.foldl (fun u L => u.send (.request s.nextOp L node tctx.toNat (va L) w (act L)))
        (t.addOp f .CL kind [] (reqs w act) [] []))
    let held := fun (t : State) (w : Nat) (kind : OpKind) (act : Nat → Act) => goesOn (t.addOp f .CL kind (reqs w act) [] [] [])
    let waitsMark := fun (t : State) => t.heldBack s.cur s.nextOp = true ∨ t.behindMark s.cur s.nextOp = true
    let goes := fun (i : Instr) (w : Nat) (kind : OpKind) (act : Nat → Act) =>
      LaneRuns i f s → named → ok w → s.op s.nextOp = none →
        (¬waitsMark (s.addOp f .CL kind (reqs w act) [] [] []) → exec i s = .next (sent s w kind act)) ∧
        (waitsMark (s.addOp f .CL kind (reqs w act) [] [] []) → exec i s = .next (held s w kind act))
    let ready := fun (t : State) => t.setMe { s.me with relDue := false }
    let r := s.release 5 none
    let kindA := OpKind.remote node tctx f.d.vreg wa false true
    let actA := fun (L : Nat) => Act.rmw (modBits f.m 2 3) (modBits f.m 0 2) (s.atomOld f L) none
    let stalls := fun (t : State) => if ord = 1 ∨ ord = 3 then t.setMe { t.me with stall := .acquireOp s.nextOp 5 0 } else t
    (∀ i ∈ [Instr.rld f, .rst f, .ratom f], LaneRuns i f s → ¬named → exec i s = .next (stops s .resource)) ∧
    (OnceRuns (.rstBlk f) f s → ¬named → exec (.rstBlk f) s = .next (stops s .resource)) ∧
    goes (.rld f) w (.remote node tctx f.d.vreg w (decide (modBits f.m 9 1 = 1)) true) (fun _ => .rd) ∧
    goes (.rst f) w (.remote node tctx f.d.vreg w false false) (fun L => .wr (s.laneValue f.d.vreg w L)) ∧
    (LaneRuns (.ratom f) f s → named → ok wa → ord < 2 → s.op s.nextOp = none → Unmarked s →
      exec (.ratom f) s = .next (stalls (sent (ready s) wa kindA actA))) ∧
    (LaneRuns (.ratom f) f s → named → 2 ≤ ord →
      (s.memPending = true → exec (.ratom f) s = .next (waits s .release)) ∧
      (s.memPending = false → fabricPending r s.me.ctx = true → exec (.ratom f) s = .next (waits r .release)) ∧
      (s.memPending = false → fabricPending r s.me.ctx = false → ok wa → r.op s.nextOp = none → Unmarked s →
        exec (.ratom f) s = .next (stalls (sent (ready r) wa kindA actA))))

/-- RST.BLK sends a READY or DRAINING tile's blocks of 256 bytes, in order, to the node that s[a] names, and its tile drains until all
are acknowledged; behind a MARK they wait at the core. The LOSSY class sends them with the next transfer number of that node, and an end
marker; a block's header has the layout of R151, and its CHK holds (R87, R150 to R152, R207, R321). -/
def Sys2Proof.Claims.TileBlocksAreSent : Prop :=
  (∀ (s : State) (f : Fields),
    let word := s.sreg f.a.sreg
    let node : BitVec 16 := word.setWidth 16
    let tctx : BitVec 8 := (word >>> 16).setWidth 8
    let k := s.cur.core
    let x := s.tile k f.d.tileNum
    let sx := f.b.sreg
    let base := s.sreg sx
    let n := x.bytes / 256
    let free := decide (modBits f.m 3 1 = 1)
    let drains := if x.st = .draining then { x with pend := x.pend + 1, freep := x.freep || free }
      else { x with st := .draining, pend := 1, freep := free }
    let block := fun (i : Nat) => s.storeLoad k (256 * x.base + 256 * i) 256
    let va := fun (i : Nat) => base + BitVec.ofNat 64 (256 * i)
    let good := x.bytes % 256 = 0 ∧ n ≤ 65536 ∧ base.toNat % 256 = 0
    let s1 := s.setTile k f.d.tileNum drains
    let lossy := decide (modBits f.m 8 1 = 1)
    let kind := fun (notify : W64) (sent : Bool) =>
      OpKind.sendTile f.d.tileNum lossy node tctx base (s.sreg (sx + 1)) (s.sreg (sx + 2)) notify sent none
    let acks := if lossy then ackReqs 1 base 0 else ackReqs n base 256
    let held := s1.addOp f .CL (kind (s.sreg (sx + 3)) false) [] acks [] []
    let waitsMark := held.heldBack s.cur s.nextOp = true ∨ held.behindMark s.cur s.nextOp = true
    OnceRuns (.rstBlk f) f s → word.toNat / 2 ^ 24 = 0 → node ≠ 0 → node ≠ 0xFFFF →
    x.defined = true → x.ctx = s.me.ctx → tileHeld s k f.d.tileNum = false → s.op s.nextOp = none →
    (x.st = .empty → exec (.rstBlk f) s = .next (tileStops s false)) ∧
    (x.st = .filling → exec (.rstBlk f) s = .next (waits s (.tileReady k f.d.tileNum))) ∧
    (x.st = .draining ∨ (x.st = .ready ∧ x.err = false) →
      (¬good → exec (.rstBlk f) s = .next (stops s .resource)) ∧
      (good → waitsMark → exec (.rstBlk f) s = .next (goesOn held)) ∧
      (good → ¬waitsMark → lossy = false →
        exec (.rstBlk f) s = .next (goesOn ((List.range n).foldl (fun t i => t.send (.write node tctx.toNat (va i) 256 (block i)))
          (s1.addOp f .CL (kind (s.sreg (sx + 3)) true) [] acks [] [])))) ∧
      (good → ¬waitsMark → lossy = true →
        let xfer := sget 0 s.fab.xfer node.toNat
        let ctx : BitVec 8 := BitVec.ofNat 8 s.me.ctx
        let u := s1.addOp f .CL (kind 0 true) [] acks [] []
        let u : State := { u with fab := { u.fab with xfer := sset 0 s.fab.xfer node.toNat (xfer + 1) } }
        let last := Msg.marker { src := s.dev.nodeid, sctx := ctx, tctx := tctx, xfer := xfer, n := n, base := base,
                                 valVa := s.sreg (sx + 1), cntVa := s.sreg (sx + 2), notVa := s.sreg (sx + 3) } node
        exec (.rstBlk f) s = .next (goesOn (((List.range n).foldl (fun t i => t.send (.lossy
          (LossyBlock.make s.dev.nodeid ctx tctx xfer i (va i) (BitVec.ofNat 2048 (block i))) node)) u).send last))))) ∧
  (∀ (src : BitVec 16) (sctx tctx : BitVec 8) (xfer : BitVec 32) (i : Nat) (va : W64) (x : BitVec 2048), i < 2 ^ 16 →
    let b := LossyBlock.make src sctx tctx xfer i va x
    b.src = src ∧ b.sctx = sctx ∧ b.payload = x ∧ b.header.toNat % 2 ^ 8 = 0 ∧ b.tctx = tctx ∧ b.xfer = xfer ∧
      b.index.toNat = i ∧ b.va = va ∧ b.header.toNat / 2 ^ 128 % 2 ^ 352 = 0 ∧ b.chkOk = true)

/-- RemoteAccessesAreSent and TileBlocksAreSent together. -/
def Obligations.RemoteAccessesAndBlocks : Prop :=
  Sys2Proof.Claims.RemoteAccessesAreSent ∧ Sys2Proof.Claims.TileBlocksAreSent

/-- COLL counts one member of the party: the first takes the endpoint's next instance, and until the last one has called it a member only
goes on, its CL counting; a word that is not allowed is RESOURCE. COLL.DONE of an open instance ends its send here and tells
every other rank; of no open one it has no effect (R157, R159, R323). -/
def Sys2Proof.Claims.CollectivesGather : Prop :=
  ∀ (s : State) (f : Fields),
    let c := s.me.ctx
    let w0 := s.sreg f.a.sreg
    let w1 := s.sreg (f.a.sreg + 1)
    let w2 := s.sreg (f.a.sreg + 2)
    let k := w0.toNat % 2 ^ 16
    let inst := w0.toNat / 2 ^ 32 % 2 ^ 32
    let x := s.comm c k
    let bad := w0.toNat / 2 ^ 24 % 2 ^ 8 ≠ 0 ∨ 3 < w0.toNat / 2 ^ 16 % 2 ^ 3 ∨ w1.toNat = 0 ∨ 65535 < w1.toNat ∨ 64 ≤ k ∨ s.myCtx.relayq = 0
    let member := opFor s f .CL (.coll k inst false false) (nothingServed s [])
    Unasked s →
    (OnceRuns (.coll f) f s → s.me.party = none → exec (.coll f) s = .next (stopsWhole s .resource)) ∧
    (∀ pk pe, OnceRuns (.coll f) f s → s.me.party = some (pk, pe) → s.openColl = none → bad →
      exec (.coll f) s = .next (stopsWhole s .resource)) ∧
    (∀ pk pe, OnceRuns (.coll f) f s → s.me.party = some (pk, pe) → s.openColl = none → ¬bad → x.read = true →
      let p := s.party pk pe
      (x.on = false ∨ x.st = .broken → exec (.coll f) s = .next (stopsWhole s .resource)) ∧
      (x.on = true → x.st ≠ .broken → p.coll = none → inst ≠ x.next → exec (.coll f) s = .next (stopsWhole s .resource)) ∧
      (x.on = true → x.st ≠ .broken → p.coll = none → inst = x.next → p.joined ≠ 1 →
        (∀ i ∈ x.insts, i.inst % 2 = inst % 2 → i.inst = inst) → (∀ o ∈ s.ops, o.id < s.nextOp) →
        let s1 : State := { s with ops := s.ops ++ [member], nextOp := s.nextOp + 1 }
        exec (.coll f) s = .next (goesOn ((s1.setParty pk pe
          { p with coll := some (f.d.tileNum, w0, w1, w2, f.b.immU, 1) }).setComm c k
            { x with next := inst + 1, st := if x.st = .idle then CommState.active else x.st,
                     early := x.early.filter (fun e => e.1 ≠ inst),
                     insts := x.insts ++ [{ inst := inst, core := pk, tile := f.d.tileNum, bcore := pk, bent := pe, made := p.made,
                                            bar := f.b.immU, chunk := 0, posted := false, localDone := false,
                                            peers := (x.early.filter (fun e => e.1 = inst)).map (·.2) }] })))) ∧
    (OnceRuns (.collDone f) f s →
      let r := w0.toNat + 2 ^ 64 * w1.toNat + 2 ^ 128 * w2.toNat + 2 ^ 192 * (s.sreg (f.a.sreg + 3)).toNat
      let fld := fun (lo n : Nat) => r / 2 ^ lo % 2 ^ n
      let y := s.comm c (fld 0 16)
      let fits := fun (i : Instance) => i.inst = fld 32 32 ∧ i.posted = true ∧ i.localDone = false ∧ i.core = fld 80 10 ∧
        i.tile = fld 90 7 ∧ placeOfCore i.bcore = fld 97 3 ∧ i.bent = fld 100 4 ∧ i.bar = fld 104 4
      ((∀ i ∈ y.insts, ¬fits i) → NextPc (exec (.collDone f) s) s (s.pc + 12)) ∧
      (∀ i before after, y.insts = before ++ i :: after → (∀ j ∈ before, ¬fits j) → fits i →
        (∀ j ∈ before ++ after, j.inst ≠ i.inst) → modBits f.m 8 1 = 0 → (∀ j ∈ before ++ after, j.localDone = false) →
        (∀ m ∈ (s.party i.bcore i.bent).members, (s.cv m.1 m.2).st ≠ .blocked) →
        ∃ t, exec (.collDone f) s = .next t ∧ t.tile i.core i.tile = (s.tile i.core i.tile).sent ∧
          t.fab.out = s.fab.out ++ ((List.range y.size).filter (fun q => q ≠ y.rank)).map (fun q =>
            Msg.instanceDone (y.at_ q).1 (y.at_ q).2 (fld 0 16) i.inst y.rank) ∧
          (t.comm c (fld 0 16)).insts =
            if y.size ≤ i.peers.length + 1 then before ++ after else before ++ { i with localDone := true } :: after))

/-- RRED on a BROKEN or disabled endpoint fails its chunk: Td is zero and READY with ERR, and Ta's send is done. On an
ACTIVE one Ta drains and Td fills, this rank's contribution is sent to every other rank once the
issuer's earlier accesses and marks allow, and the CL operation waits for each one's head and pieces. The values of the ranks combine in the canonical tree (R154, R160, R322). -/
def Obligations.ChunksAreReduced : Prop :=
  (∀ (s : State) (f : Fields),
    let k := s.cur.core
    let td := f.d.tileNum
    let ta := f.a.tileNum
    let xa := s.tile k ta
    let xd := s.tile k td
    let ty := modBits f.m 1 4
    let op := modBits f.m 5 3
    let c := s.me.ctx
    let w0 := (s.sreg f.b.sreg).toNat
    let comm := w0 % 2 ^ 16
    let y := s.comm c comm
    let shaped := xd.st = .empty ∧ xd.rows = xa.rows ∧ xd.cols = xa.cols ∧ xd.pitch = xa.pitch ∧ xd.fmt = ty ∧ xa.fmt = ty ∧
      (modBits f.m 8 1 = 1 ∨ op = 3 → xa.bytes % 256 = 0)
    let drains := { xa with st := .draining, pend := 1, freep := false }
    let lossy := decide (modBits f.m 8 1 = 1)
    let valid := if lossy then (xa.bytes / 256 + 7) / 8 else 0
    let a := serve s (s.user s.nextOp) false [] ((List.range valid).map (fun i =>
      [mkReq (validKey i) (s.sreg (f.b.sreg + 1) + BitVec.ofNat 64 i) 1 .rd]))
    OnceRuns (.rred f) f s → td ≠ ta → xa.defined = true → xa.ctx = c → xd.defined = true → xd.ctx = c →
    tileHeld s k ta = false → Unasked s →
    (¬shaped → exec (.rred f) s = .next (tileStops s false)) ∧
    (shaped → xa.st = .filling → exec (.rred f) s = .next (waits s (.tileReady k ta))) ∧
    (shaped → xa.st = .ready → xa.err = false → (64 ≤ comm ∨ (y.read = true ∧ (y.on = false ∨ y.st = .broken))) →
      ∃ t, exec (.rred f) s = .next t ∧ t.tile k ta = drains.sent ∧ t.pc = s.pc + 12 ∧
        t.tile k td = { xd with st := .ready, pend := 0, err := true } ∧
        ∀ a, mget t.mem a = if Flat.core k (256 * xd.base) ≤ a ∧ a < Flat.core k (256 * xd.base) + xd.bytes then 0 else mget s.mem a) ∧
    (shaped → xa.st = .ready → xa.err = false → comm < 64 → y.read = true → y.on = true → y.st ≠ .broken → (∀ o ∈ s.ops, o.id < s.nextOp) →
      a.causes = [] → a.parks = [] → a.s.comm c comm = y →
      let peers := (List.range y.size).filter (fun r => r ≠ y.rank)
      let sw := decide (modBits f.m 9 1 = 1) && y.sw
      let kind := OpKind.rred td ta comm (w0 / 2 ^ 32 % 2 ^ 32) (w0 / 2 ^ 16 % 2 ^ 16) op ty sw lossy (s.sreg (f.b.sreg + 2))
        (s.sreg (f.b.sreg + 3))
      ∃ t o b, exec (.rred f) s = .next t ∧ t.tile k ta = drains ∧ t.pc = s.pc + 12 ∧ (lossy = false → t.mem = s.mem) ∧
        t.tile k td = { xd with st := .filling, pend := xd.bytes, err := false } ∧
        t.op s.nextOp = some o ∧ o.cls = Cls.CL ∧ o.kind = kind b ∧
        (lossy = true → a.todo ≠ [] → b = false ∧ o.todo = a.todo) ∧
        (lossy = false → Unmarked s → (∀ o ∈ s.ops, o.core = k → o.cslot ≠ s.cur.slot) → b = true ∧
          o.remote.length = peers.length * (1 + xa.bytes / 16) ∧
          t.fab.out = s.fab.out ++ peers.map (fun r => Msg.contribution (y.at_ r).1 (y.at_ r).2 comm (w0 / 2 ^ 32 % 2 ^ 32)
            (w0 / 2 ^ 16 % 2 ^ 16) op ty sw false xa.bytes (s.storeLoad k (256 * xa.base) xa.bytes) (2 ^ (xa.bytes / 256) - 1))))) ∧
  (∀ (g : Nat → Nat → Nat) (d x : Nat) (l : List Nat), (∀ a b c, g (g a b) c = g a (g b c)) →
    tree g d (x :: l).length (x :: l) = l.foldl g x) ∧
  (∀ (g : Nat → Nat → Nat) (d a b c e : Nat), tree g d 3 [a, b, c] = g (g a b) c ∧ tree g d 4 [a, b, c, e] = g (g a b) (g c e)) ∧
  (∀ op x, op < 3 → x < 2 ^ 32 → redOp op 8 (rredIdentity op 8) x = x ∧ redOp op 8 x (rredIdentity op 8) = x)

/-- VMASK makes a predicate of the validity bits of each lane's block, VRSC scales by n/c, zero counts leaving the value, and MSV
combines two (m, s, v), a false b standing for (−∞, 0, 0) (R324, R325). -/
def Sys2Proof.Claims.CollectiveLaneHelpers : Prop :=
  (∀ (s : State) (f : Fields),
    let block := fun (L : Nat) => (s.sreg f.b.sreg + BitVec.ofNat 64 L).toNat * typeBits (modBits f.m 2 4) / 2048
    let x := fun (L : Nat) => s.src32 .int false f.a L
    let left := fun (i L : Nat) => (s.me.reg (f.d.vreg + i) L).toNat
    let right := fun (i L : Nat) => match f.a with
      | .v r p _ => if s.srcP f.b L then (s.me.reg (r.toNat + i) (permLane p.toNat L s.lowLane)).toNat
        else if i = 0 then 0xFF800000 else 0
      | _ => 0
    let out := fun (L : Nat) => msvCombine (left 0 L) (left 1 L) [left 2 L] (right 0 L) (right 1 L) [right 2 L]
    (LaneRuns (.vmask f) f s → NextP (exec (.vmask f) s) s f (fun L => ((x L).getLsbD (block L % 32), 0))) ∧
    (LaneRuns (.vrsc f) f s → NextV (exec (.vrsc f) s) s f (fun L =>
      let r := fpRescale (modBits f.m 0 2) (s.srcS true f.b).toNat ((x L).toNat % 256) (s.me.reg f.d.vreg L).toNat
      (BitVec.ofNat 32 r.1, r.2))) ∧
    (LaneRuns (.msv f) f s → f.a.isV = true → NextLanes (exec (.msv f) s) s (fun r L =>
      if L < s.me.width ∧ (s.part f).getLsbD L = true ∧ f.d.vreg ≤ r ∧ r < f.d.vreg + 3 then
        BitVec.ofNat 32 (if r = f.d.vreg then (out L).1 else if r = f.d.vreg + 1 then (out L).2.1 else (out L).2.2.1.headD 0)
      else s.me.reg r L) (predsOf s) (flagsOf s f (fun L => (out L).2.2.2)))) ∧
  (∀ rm n c x, (n = 0 ∨ c = 0 → fpRescale rm n c x = (x, 0)) ∧
    (∀ sg, 0 < n → 0 < c → decodeFp fp32 x = .nan sg → fpRescale rm n c x = (fp32.nan, if sg then fNV else 0)) ∧
    (∀ neg, 0 < n → 0 < c → decodeFp fp32 x = .inf neg → fpRescale rm n c x = (x, 0))) ∧
  (∀ s1 s2 v1 v2, msvCombine 0xFF800000 s1 v1 0xFF800000 s2 v2 = (0xFF800000, 0, v1.map (fun _ => 0), 0))

/-- GANGQ is granted a chunk that no query or pause forbids, is answered 1 for the chunk after c* of a pause of its instance, and waits
for any other; GANGACK of the instance that is to pause acknowledges, and with the last relay caravan that has a part in it the endpoint
is PAUSED (R161, R326; which caravans those are, and that a query holds back later instances, is the model's reading: log 100). -/
def Sys2Proof.Claims.GangPauses : Prop :=
  ∀ (s : State) (f : Fields), Unasked s →
    let c := s.me.ctx
    let w := s.sreg f.a.sreg
    let k := w.toNat % 2 ^ 16
    let x := s.comm c k
    let n := (s.sreg f.b.sreg).toNat
    let inst := w.toNat / 2 ^ 32 % 2 ^ 32
    let me := (s.cur.core, s.cur.slot)
    let pausing := (x.st = .pausing ∨ x.st = .paused) ∧ inst = x.pinst ∧ n = x.cstar + 1
    let free := ∀ p, x.permit = some p → inst < x.pinst ∨ (inst = x.pinst ∧ n ≤ p)
    let acks := (x.acks ++ [me]).eraseDups
    let all := ∀ u ∈ x.users, u.1 = x.pinst → u.2 ∈ acks
    (∀ i ∈ [Instr.gangq f, .gangack f], OnceRuns i f s → 64 ≤ k → exec i s = .next (stops s .resource)) ∧
    (∀ i ∈ [Instr.gangq f, .gangack f], OnceRuns i f s → k < 64 → x.read = true → x.on = false →
      exec i s = .next (stopsWhole s .resource)) ∧
    (OnceRuns (.gangq f) f s → k < 64 → x.read = true → x.on = true →
      (pausing → NextS (exec (.gangq f) s) s f 1) ∧
      (¬pausing → free → exec (.gangq f) s = .next ((s.setComm c k { x with
        insts := x.insts.map (fun i => if i.inst = inst then { i with chunk := max i.chunk n } else i),
        users := if (inst, me) ∈ x.users then x.users else x.users ++ [(inst, me)] }).setMe
          { s.me with sregs := sset 0 s.me.sregs f.d.sreg 0, pc := s.me.pc + 12 })) ∧
      (¬pausing → ¬free → exec (.gangq f) s = .next (waits s (.grant k inst n)))) ∧
    (OnceRuns (.gangack f) f s → k < 64 → x.read = true → x.on = true →
      (x.st ≠ .pausing ∨ inst ≠ x.pinst → NextPc (exec (.gangack f) s) s (s.pc + 12)) ∧
      (x.st = .pausing → inst = x.pinst →
        ∃ t, exec (.gangack f) s = .next t ∧ t.fab.out = s.fab.out ++ [Msg.gangAck c k] ∧ t.pc = s.pc + 12 ∧
          (all → t.comm c k = { x with acks := acks, st := .paused }) ∧ (¬all → t.comm c k = { x with acks := acks })))

/-- CollectivesGather, CollectiveLaneHelpers and GangPauses together. -/
def Obligations.CollectivesAndGangs : Prop :=
  Sys2Proof.Claims.CollectivesGather ∧ Sys2Proof.Claims.CollectiveLaneHelpers ∧ Sys2Proof.Claims.GangPauses

/-! ## Channel modes, bank commands and executors (R132 to R143, R203, R204, R327, R328) -/

/-- XMODE delivers a mode word to a channel: Step1 of a NORMAL channel arms it for its context, Step2 and Step3 of that context follow, Step3
making it COMPUTE with every executor zeroed, and Exit of the owner leaves; any other word in ARMING aborts, and elsewhere
is refused. The answer is 0 or 1. A user context may not issue it (R132, R133, R328). -/
def Sys2Proof.Claims.ModeWordsMoveAChannel : Prop :=
  ∀ (s : State) (f : Fields) (ch : Nat) (b : Option Nat),
    let w := (s.sreg f.b.sreg).toNat % 2 ^ 32
    let x := s.me.ctx
    let c := s.chan ch
    let word := fun (code : Nat) => w % 2 ^ 8 = 0 ∧ w / 2 ^ 8 % 2 ^ 8 = x ∧ w / 2 ^ 16 = code
    let answered := fun (t : State) (y : W64) => t.setMe { s.me with sregs := sset 0 s.me.sregs f.d.sreg y, pc := s.me.pc + 12 }
    ∀ i ∈ [Instr.xmodeStep1 f, .xmodeStep2 f, .xmodeStep3 f, .xmodeExit f, .xmodeOtherWord f], OnceRuns i f s →
      (s.myCtx.priv = false → exec i s = .next (s.raiseCv .privilege)) ∧
      (s.myCtx.priv = true → deepScope s x s.cur.core false (s.sreg f.a.sreg) = none → exec i s = .next (stops s .resource)) ∧
      (s.myCtx.priv = true → deepScope s x s.cur.core false (s.sreg f.a.sreg) = some (ch, b) →
        (c.mode = .normal → word 0x3A71 →
          exec i s = .next (answered (s.setChan ch { c with mode := .arming, steps := 1, owner := x }) 0)) ∧
        (c.mode = .normal → ¬word 0x3A71 → NextS (exec i s) s f 1) ∧
        (c.mode = .arming → c.owner = x → c.steps = 1 → word 0x5C92 →
          exec i s = .next (answered (s.setChan ch { c with steps := 2 }) 0)) ∧
        (c.mode = .arming → c.owner = x → c.steps = 2 → word 0x7EB3 →
          ∃ t, exec i s = .next t ∧ (t.chan ch).mode = .compute ∧ (t.chan ch).owner = x ∧ t.sreg f.d.sreg = 0 ∧ t.pc = s.pc + 12 ∧
            (t.chan ch).prog = [] ∧ (t.chan ch).slots = [] ∧ ∀ n, n < 64 → t.executor (64 * ch + n) = Executor.zero) ∧
        (c.mode = .arming → ¬(c.owner = x ∧ ((c.steps = 1 ∧ word 0x5C92) ∨ (c.steps = 2 ∧ word 0x7EB3))) →
          ∃ t, exec i s = .next t ∧ (t.chan ch).mode = .normal ∧ t.sreg f.d.sreg = 1 ∧ t.pc = s.pc + 12) ∧
        (c.mode = .compute ∨ c.mode = .suspended → c.owner = x → word 0x9D04 →
          exec i s = .next (answered (s.setChan ch { c with mode := .exiting, snap := [] }) 0)) ∧
        (c.mode = .compute ∨ c.mode = .suspended → ¬(c.owner = x ∧ word 0x9D04) → NextS (exec i s) s f 1) ∧
        (c.mode = .exiting → NextS (exec i s) s f 1))

/-- Bank commands of the channel's owner: XCOL and XREAD leave a BX operation, make their add to ADV, behind the write-back that a wide
release asks of the home L2, and join the channel's queue, unless a MARK holds them; XPROG does so once its words are read. XSTAT reads
an executor's status and XRESET makes every executor of the channel idle and zero, keeping its program and slots, in their turn behind
the issuer's earlier commands, outside an advance and a suspension. Any other issuer gets EXECUTOR_FAULT (R134 to R137, R203, R204, R328). -/
def Sys2Proof.Claims.BankCommandsQueue : Prop :=
  ∀ (s : State) (f : Fields) (ch b : Nat),
    let x := s.me.ctx
    let c := s.chan ch
    let at_ := fun (o : Operand) (bank : Bool) => deepScope s x s.cur.core bank (s.sreg o.sreg)
    let mine := (c.mode = .compute ∨ c.mode = .suspended) ∧ c.owner = x
    let waitsMark := fun (t : State) => t.heldBack s.cur s.nextOp = true ∨ t.behindMark s.cur s.nextOp = true
    let first := (∀ o ∈ s.ops, o.id < s.nextOp) ∧ s.nextOp ∉ c.cmds ∧ ∀ o ∈ s.ops, o.core = s.cur.core → o.cslot = s.cur.slot →
      o.slice = false → o.done = false → (∃ cmd rel, o.kind = .bank ch cmd rel) → o.id ∈ c.cmds
    let queued := fun (t : State) (add : W64) =>
      goesOn (t.setChan ch { t.chan ch with cmds := (t.chan ch).cmds ++ [s.nextOp], adv := (t.chan ch).adv + add })
    let command := fun (i : Instr) (cmd : BankCmd) =>
      let t := (s.addOp f .BX (.bank ch cmd s.me.relDue) [] [] [] []).setMe { s.me with relDue := false }
      let p := fun (l : Line) => decide (l.home = 1) && decide (l.chan = ch)
      let u := if s.me.relDue then t.flushL2 (dieOfChannel ch) p false else t
      let clean := s.me.relDue = false ∨ l2Clean u (dieOfChannel ch) p = true
      (waitsMark t → exec i s = .next (goesOn t)) ∧ (¬waitsMark t → clean → exec i s = .next (queued u 1)) ∧
        (¬waitsMark t → ¬clean → exec i s = .next (goesOn u))
    let due := c.mode = .suspended ∨ s.advOpen = some ch ∨ ∃ o ∈ s.ops, o.done = false ∧ o.core = s.cur.core ∧ o.cslot = s.cur.slot ∧
      o.slice = false ∧ ∃ cmd rel, o.kind = .bank ch cmd rel
    let fails := (s.failAll .executorFault 0).settle s.cur.core s.cur.slot
    (OnceRuns (.xcol f) f s → at_ f.a false = some (ch, none) →
      (¬mine → exec (.xcol f) s = .next fails) ∧
      (mine → first → ∃ inbox, command (.xcol f) (.xcol inbox) ∧ ∀ j, j < 4 → (inbox >>> (64 * j)).setWidth 64 = s.sreg (f.b.sreg + j))) ∧
    (OnceRuns (.xread f) f s → at_ f.a true = some (ch, some b) →
      (¬mine → exec (.xread f) s = .next fails) ∧ (mine → first → command (.xread f) (.xread f.d.sreg b))) ∧
    (OnceRuns (.xstat f) f s → at_ f.a true = some (ch, some b) →
      (¬mine → exec (.xstat f) s = .next fails) ∧
      (mine → due → exec (.xstat f) s = .next (waits s (.commands ch))) ∧
      (mine → ¬due → let e := s.executor (64 * ch + b)
        let st := match e.st with
          | .idle => 0
          | .running => 1
          | .halted => 2
          | .faulted => 7
          | .parked => 1
        NextS (exec (.xstat f) s) s f (BitVec.ofNat 64 (st + 2 ^ 4 * e.cause.toNat + 2 ^ 8 * e.pc.toNat + 2 ^ 16 * e.lc.toNat +
          2 ^ 32 * e.lrow.toNat + if e.lv then 2 ^ 47 else 0)))) ∧
    (OnceRuns (.xreset f) f s → s.myCtx.priv = false → exec (.xreset f) s = .next (s.raiseCv .privilege)) ∧
    (OnceRuns (.xreset f) f s → s.myCtx.priv = true → at_ f.a false = some (ch, none) →
      (¬mine → exec (.xreset f) s = .next fails) ∧
      (mine → due → exec (.xreset f) s = .next (waits s (.commands ch))) ∧
      (mine → ¬due → ∃ t, exec (.xreset f) s = .next t ∧
        (∀ n, n < 64 → t.executor (64 * ch + n) = { Executor.zero with stored := (s.executor (64 * ch + n)).stored }) ∧
        (∀ n, n / 64 ≠ ch → t.executor n = s.executor n) ∧ t.chan ch = c ∧ t.pc = s.pc + 12 ∧ t.mem = s.mem)) ∧
    (let n := (s.srcS true f.b).toNat
     let reqs := (List.range n).map (fun i => [mkReq i (s.sreg f.a.sreg + BitVec.ofNat 64 (4 * i)) 4 .rd])
     let a := serve s (s.user s.nextOp) true [] reqs
     let t := (a.s.addOp f .BX (.bank ch (.xprog n) false) a.todo a.remote [] a.vals).sendRequests s.nextOp x a.remote
     OnceRuns (.xprog f) f s → at_ f.d false = some (ch, none) →
      (n = 0 ∨ 256 < n → exec (.xprog f) s = .next (stops s .resource)) ∧
      (0 < n → n ≤ 256 → ¬mine → exec (.xprog f) s = .next fails) ∧
      (0 < n → n ≤ 256 → mine → first → a.causes = [] → a.parks = [] → a.s.cur = s.cur → a.s.me = s.me → a.s.nextOp = s.nextOp →
        a.s.ops = s.ops →
        (a.todo ≠ [] ∨ a.remote ≠ [] → exec (.xprog f) s = .next (goesOn t)) ∧
        (a.todo = [] → a.remote = [] → a.vals.length = n → (a.s.chan ch).cmds = c.cmds →
          (waitsMark t → exec (.xprog f) s = .next (goesOn t)) ∧ (¬waitsMark t → exec (.xprog f) s = .next (queued t 0)))))

/-- ModeWordsMoveAChannel and BankCommandsQueue together. -/
def Obligations.ChannelModesAndCommands : Prop :=
  Sys2Proof.Claims.ModeWordsMoveAChannel ∧ Sys2Proof.Claims.BankCommandsQueue

/-- What each executor instruction leaves in its executor; nothing else of the machine differs but for XOUT's slot, and an
ill-formed one makes the executor FAULTED with cause ILLEGAL (R138 to R140). -/
def Sys2Proof.Claims.ExecutorResults : Prop :=
  ∀ (s : State) (sel fn : BitVec 2) (v d : BitVec 1) (j : BitVec 3) (n5 : BitVec 5) (bk : BitVec 6) (n w t : BitVec 8) (x : BitVec 16),
    let e := s.executor s.bank
    let gives := fun (i : Instr) (y : Executor) => legal i = true → exec i s = .next (s.setExecutor s.bank { y with pc := e.pc + 1 })
    let tag := if v = 0 then e.tag else e.tag2
    let setTag := fun (y : BitVec 256) => if v = 0 then { e with tag := y } else { e with tag2 := y }
    let half := fun (old : W32) => if sel = 0 then (old &&& 0xFFFF0000) ||| x.setWidth 32
      else if sel = 1 then (old &&& 0xFFFF) ||| (x.setWidth 32 <<< 16)
      else if sel = 2 then (e.inbox >>> (32 * x.toNat)).setWidth 32 else e.word x.toNat
    let mix := fun (old new : BitVec 256) => if fn = 0 then new else if fn = 1 then old &&& new else if fn = 2 then old ||| new else old ^^^ new
    let hits := fun (m : BitVec 256) => ∀ k, k < 256 → m.getLsbD k = decide ((e.word k ^^^ e.key) &&& e.mask = 0)
    let least := fun (k : Nat) => k < 256 ∧ tag.getLsbD k = true ∧ ∀ i, i < k → tag.getLsbD i = false
    let shift := fun (x : BitVec 256) (n : Nat) => if d = 1 then x >>> n else x <<< n
    gives .execNop e ∧ gives (.setk sel x) { e with key := half e.key } ∧ gives (.setm sel x) { e with mask := half e.mask } ∧
    gives (.shk d n5) (if d = 1 then { e with key := e.key >>> n5.toNat, mask := e.mask >>> n5.toNat }
      else { e with key := e.key <<< n5.toNat, mask := e.mask <<< n5.toNat }) ∧
    (∃ m, hits m ∧ gives (.cmp v) (setTag m) ∧ gives (.cmpa v) (setTag (tag &&& m)) ∧ gives (.cmpo v) (setTag (tag ||| m))) ∧
    gives (.tnot v) (setTag (~~~tag)) ∧ gives (.tsave fn) { e with tag2 := mix e.tag2 e.tag } ∧ gives (.tload fn) { e with tag := mix e.tag e.tag2 } ∧
    gives (.tshf v d n) (setTag (shift tag n.toNat)) ∧ gives (.setc x) { e with lc := x } ∧ gives (.rtag v) { e with resp := tag } ∧
    (∀ i ∈ [(Instr.wr v, true), (.wrn v, false)], legal i.1 = true → ∃ y : Executor, exec i.1 s = .next (s.setExecutor s.bank { y with pc := e.pc + 1 }) ∧
      { y with latch := e.latch } = e ∧ ∀ k, k < 256 →
        y.word k = if tag.getLsbD k = i.2 then (e.word k &&& ~~~e.mask) ||| (e.key &&& e.mask) else e.word k) ∧
    gives (.tcnt v j) (e.setResp j (BitVec.ofNat 32 ((List.range 256).filter (fun k => tag.getLsbD k)).length)) ∧
    (∀ k, least k → gives (.tfst v j) (e.setResp j (BitVec.ofNat 32 k)) ∧ gives (.rdwF j v) (e.setResp j (e.word k))) ∧
    (tag = 0 → gives (.tfst v j) (e.setResp j 0xFFFFFFFF) ∧ gives (.rdwF j v) (e.setResp j 0)) ∧
    gives (.rdw j w) (e.setResp j (e.word w.toNat)) ∧
    (∀ y k, k < 256 → ((e.setResp j y).resp).getLsbD k = if k / 32 = j.toNat then y.getLsbD (k % 32) else e.resp.getLsbD k) ∧
    exec (.loop t) s = .next (s.setExecutor s.bank (if e.lc ≠ 0 then { e with lc := e.lc - 1, pc := t } else { e with pc := e.pc + 1 })) ∧
    exec .halt s = .next (s.setExecutor s.bank { e with st := .halted }) ∧
    (∀ i ∈ [Instr.setk sel x, .setm sel x, .xout w, .xin bk w, .execRel sel, .execAcq sel, .execFence sel], legal i = false →
      ∃ t, exec i s = .next t ∧ (t.executor s.bank) = { e with st := .faulted, cause := 1 } ∧ t.mem = s.mem)

/-- XOUT and XIN move eight latch words between an executor and the channel's slots; LATCH takes a row of the bank into the latch, STORE
notes the row it stores; releases and fences mark the advance, and at DEVICE scope forget the rows stored, acquires see what earlier
advances' releases have published in the slots of their scope; an XIN reads one of the writes that it may still read, the newest that it has
seen or a later one (which one, is free: log 92); an absent row
that may be filled parks the executor, and a row that it may not reach faults it (R138, R140, R141, R143, R200, R205). -/
def Sys2Proof.Claims.ExecutorMovesRows : Prop :=
  ∀ (s : State) (sel : BitVec 2) (bk : BitVec 6) (w : BitVec 8) (r : BitVec 15),
    let e := s.executor s.bank
    let ch := s.bank / 64
    let c := s.chan ch
    let own := s.bank % 64
    let now := c.slots.foldl (fun (m : BitVec 64) p => if p.2.any (fun w => w.now) then m ||| (1 <<< p.1) else m) 0
    let may := slotFrom own (slotWrites (c.showSlots own (fun _ w => w.seen &&& now ≠ 0)) bk.toNat)
    let acquired := fun (t : State) => t.setChan ch ((t.chan ch).showSlots own (fun k w => w.pub && (sel ≠ 0 || k = own)))
    (legal (.xout w) = true → ∃ x l, exec (.xout w) s = .next ((s.setChan ch { c with slots := sset [] c.slots own l }).setExecutor
      s.bank { e with pc := e.pc + 1 }) ∧ l.getLast? = some { x := x, seen := 1 <<< own, pub := false, now := true } ∧
      ∀ i, i < 8 → (x >>> (32 * i)).setWidth 32 = e.word (w.toNat + i)) ∧
    (legal (.xin bk w) = true → ∃ t, ∃ u ∈ may, exec (.xin bk w) s = .next t ∧ t.mem = s.mem ∧
      (∀ n, n ≠ s.bank → t.executor n = s.executor n) ∧
      { t.executor s.bank with latch := e.latch } = { e with pc := e.pc + 1 } ∧ ∀ k, (t.executor s.bank).word k =
        if w.toNat ≤ k ∧ k < w.toNat + 8 then (u.x >>> (32 * (k - w.toNat))).setWidth 32 else e.word k) ∧
    (∀ u l v ls, s.rowLeaf r.toNat false = (u, some l) →
      u.rowRead { ctx := (u.chan ch).owner, asid := (u.ctx (u.chan ch).owner).asid.toNat, va := rowVa s.bank r.toNat }
        (Flat.dram ch (rowVa s.bank r.toNat % 2 ^ 31)) l = (v, some ls) → u.bank = s.bank → v.bank = s.bank →
      ∃ t, exec (.latch r) s = .next t ∧ (∀ k, k < 256 → (t.executor s.bank).word k = ((ls.getD (k / 32) 0) >>> (32 * (k % 32))).setWidth 32) ∧
        { t.executor s.bank with latch := (v.executor s.bank).latch } =
          { v.executor s.bank with lrow := r, lv := true, pc := (v.executor s.bank).pc + 1 } ∧ t.mem = v.mem) ∧
    (∀ u, s.rowLeaf r.toNat false = (u, none) → exec (.latch r) s = .next u) ∧
    (∀ u, s.rowLeaf r.toNat true = (u, none) → exec (.store r) s = .next u) ∧
    (∀ u l, s.rowLeaf r.toNat true = (u, some l) → u.bank = s.bank → ∃ t, exec (.store r) s = .next t ∧
      r.toNat ∈ (t.executor t.bank).stored) ∧
    (∀ u l, s.translate (s.chan ch).owner ch (rowVa s.bank r.toNat) none = (u, .leaf l) → u.bank = s.bank → l.home ≠ 1 → ∀ store,
      ∃ t, s.rowLeaf r.toNat store = (t, none) ∧ (t.executor s.bank).st = .faulted ∧ (t.executor s.bank).cause = 4) ∧
    (∀ u level, s.translate (s.chan ch).owner ch (rowVa s.bank r.toNat) none = (u, .absent true level) → u.bank = s.bank → ∀ store,
      ∃ t, s.rowLeaf r.toNat store = (t, none) ∧ (t.executor s.bank).st = .parked ∧ (t.executor s.bank).pc = (u.executor s.bank).pc) ∧
    (sel ≠ 2 →
      let released := s.setExecutor s.bank { e with relNow := true, relDeep := true, relScope := sel, pc := e.pc + 1 }
      (legal (.execRel sel) = true → exec (.execRel sel) s = .next released) ∧
      (legal (.execFence sel) = true → exec (.execFence sel) s = .next (acquired released)) ∧
      (legal (.execAcq sel) = true → exec (.execAcq sel) s = .next (acquired (s.setExecutor s.bank { e with pc := e.pc + 1 })))) ∧
    (sel = 2 →
      (∀ i ∈ [Instr.execRel sel, .execFence sel], legal i = true → ∃ t, exec i s = .next t ∧
        t.executor s.bank = { e with relNow := true, relScope := sel, stored := [], pc := e.pc + 1 }) ∧
      (legal (.execAcq sel) = true → ∃ t, exec (.execAcq sel) s = .next t ∧ t.executor s.bank = { e with pc := e.pc + 1 }))

/-- An advance takes a channel's oldest command: XPROG writes the program's words; XCOL fills every inbox but a FAULTED
executor's, starts the IDLE executors and has every running one execute, an XIN after the others; XREAD advances without new
inboxes; its end adds one to ADV for each executor that released in it. Outside COMPUTE and EXITING, and while an advance is open, no
command is taken (R136, R203). -/
def Sys2Proof.Claims.AdvanceTakesACommand : Prop :=
  ∀ (s : State) (ch : Nat) (o : Op) (cmd : BankCmd) (rel : Bool) (rest : List Nat),
    let c := s.chan ch
    let open_ := (c.mode = .compute ∨ c.mode = .exiting) ∧ s.advOpen = none
    let ran := fun (t : State) (inbox : Option (BitVec 256)) =>
      t.advOpen = some ch ∧ t.chan ch = c ∧ t.mem = s.mem ∧
      (∀ n, n < 64 → let e := s.executor (64 * ch + n)
        t.executor (64 * ch + n) = { e with st := if e.st = .idle then .running else e.st, relNow := false, relDeep := false,
                                            inbox := if e.st = .faulted then e.inbox else inbox.getD e.inbox }) ∧
      (∀ n, n ∈ t.advTodo ↔ n / 64 = ch ∧ (t.executor n).st = .running) ∧
      (∃ a b, t.advTodo = a ++ b ∧ (∀ n ∈ a, isXin (t.exWord n) = false) ∧ ∀ n ∈ b, isXin (t.exWord n) = true)
    (¬open_ → exec (.advance ch) s = .next s) ∧
    (open_ → c.cmds = o.id :: rest → s.op o.id = some o → o.kind = .bank ch cmd rel →
      (∀ n, cmd = .xprog n → n ≤ 256 → ∃ t, exec (.advance ch) s = .next t ∧ (t.chan ch).cmds = rest ∧ (t.chan ch).adv = c.adv ∧
        ∀ i, sget 0 (t.chan ch).prog i = if i < n then (sget 0 o.vals i).setWidth 32 else sget 0 c.prog i) ∧
      (∀ x, cmd = .xcol x → ∃ t, exec (.advance ch) s = .next t ∧ ran t (some x)) ∧
      (∀ sd b, cmd = .xread sd b → ∃ t, exec (.advance ch) s = .next t ∧ ran t none)) ∧
    (s.posts = [] → s.advOpen = some ch → s.advTodo = [] → ∃ t, step s = .next t ∧ t.advOpen = none ∧
      (t.chan ch).adv = c.adv + BitVec.ofNat 64 ((List.range 64).filter (fun n => (s.executor (64 * ch + n)).relNow)).length)

/-- ExecutorResults, ExecutorMovesRows and AdvanceTakesACommand together. -/
def Obligations.ExecutorsRunTheirWords : Prop :=
  Sys2Proof.Claims.ExecutorResults ∧ Sys2Proof.Claims.ExecutorMovesRows ∧ Sys2Proof.Claims.AdvanceTakesACommand

/-! ## Control registers, REPLAY, TLBINV, EVPOST, LAUNCH, RESUME, KILL, ENERGYQ, contexts (R20 to R36, R329 to R334) -/

/-- CSRR reads the registers of R225; ENERGY_USE is what has been charged, which is free between reads (log 15). CSRW writes the writable bits of
FLAGS and PROGRESS; a write of a context register, which only a privileged context may issue, holds the caravan until every
core has it, and the oldest write of a context completes first (R20, R21, R225, R330). -/
def Sys2Proof.Claims.ControlRegisters : Prop :=
  (∀ (s : State) (f : Fields),
    let x := s.myCtx
    let n := f.a.csrNum
    let m := f.d.csrNum
    let v := s.sreg f.a.sreg
    let k := s.cur.core
    let coreId := k % 96 % 8 + 2 ^ 3 * (k % 96 / 8) + 2 ^ 7 * (k / 96)
    (∀ p ∈ [(0x01, BitVec.ofNat 64 coreId), (0x02, s.me.ordinal.setWidth 64), (0x03, BitVec.ofNat 64 s.me.width),
        (0x04, s.me.flags.setWidth 64), (0x05, if x.weak then (1 : W64) else 0), (0x06, s.me.progress), (0x11, x.trapbase),
        (0x08, x.winarea + BitVec.ofNat 64 (2 ^ 22 * (k % 96 % 8))), (0x21, x.eallot.setWidth 64), (0x34, s.dev.nodeid.setWidth 64),
        (0x30, BitVec.ofNat 64 (s.me.ctx + 2 ^ 8 * x.asid.toNat + if x.priv then 2 ^ 24 else 0)), (0x31, x.privarea), (0x32, x.winarea),
        (0x33, x.accthr), (0x35, x.fabacl), (0x36, x.relayq), (0x37, x.commtab)],
      OnceRuns (.csrr f) f s → n = p.1 → NextS (exec (.csrr f) s) s f p.2) ∧
    (OnceRuns (.csrr f) f s → n = 0x20 → s.me.ctx < 256 → ∃ t, exec (.csrr f) s = .next t ∧
      t.sreg f.d.sreg = (x.energyUse + (Config.freeWord s.freeCtr).setWidth 48).setWidth 64 ∧ t.freeCtr = s.freeCtr + 1 ∧
      t.pc = s.pc + 12 ∧ t.mem = s.mem) ∧
    (OnceRuns (.csrw f) f s → m = 0x04 → exec (.csrw f) s = .next (s.setMe { s.me with flags := v.setWidth 7, pc := s.me.pc + 12 })) ∧
    (OnceRuns (.csrw f) f s → m = 0x06 →
      exec (.csrw f) s = .next (s.setMe { s.me with progress := v &&& 0xFFFFFFFFFFFFFFFC, pc := s.me.pc + 12 })) ∧
    (m ∈ [0x11, 0x31, 0x32, 0x33, 0x35, 0x36, 0x37] → OnceRuns (.csrw f) f s →
      (x.priv = false → exec (.csrw f) s = .next (s.raiseCv .privilege)) ∧
      (x.priv = true → exec (.csrw f) s = .next ((s.setCtx s.me.ctx { x with csrws := x.csrws ++ [(m, v, s.cur.core, s.cur.slot)] }).setMe
        { s.me with stall := .csrw, pc := s.me.pc + 12 })))) ∧
  (∀ (s : State) (c n k slot : Nat) (v : W64) (rest : List (Nat × W64 × Nat × Nat)),
    let x := s.ctx c
    let y := s.cv k slot
    (x.csrws = [] → exec (.contextRegisterWriteComplete c) s = .next s) ∧
    (x.csrws = (n, v, k, slot) :: rest →
      ∃ t, exec (.contextRegisterWriteComplete c) s = .next t ∧ t.mem = s.mem ∧
        (n = 0x11 → t.ctx c = { x with csrws := rest, trapbase := v &&& 0x01FFFFFFFFFFFFFC }) ∧
        (n = 0x31 → t.ctx c = { x with csrws := rest, privarea := v &&& 0xFFFFFFFFFFC00000 }) ∧
        (n = 0x32 → t.ctx c = { x with csrws := rest, winarea := v &&& 0xFFFFFFFFFE000000 }) ∧
        (n = 0x33 → t.ctx c = { x with csrws := rest, accthr := v &&& 0xFFFF }) ∧
        (n = 0x35 → t.ctx c = { x with csrws := rest, fabacl := v } ∧ ∀ p ∈ t.fab.acl, p.1 ≠ c) ∧
        (n = 0x36 → t.ctx c = { x with csrws := rest, relayq := v }) ∧
        (n = 0x37 → t.ctx c = { x with csrws := rest, commtab := v } ∧ ∀ p ∈ t.fab.comms, p.1 / 64 = c → p.2.read = false) ∧
        (t.cv k slot = if y.ctx = c ∧ y.stall = .csrw then { y with stall := .none } else y)))

/-- RESUME outside a handler is RESOURCE; in one it makes the caravan READY at s[a] with the trap-time lanes and the chosen deferred ones, the
others having ended, and a record of zeros. KILL in a handler ends the chosen lanes (R333, R345). REPLAY of a source that is
not parked under the PARKID answers 1, behind a release at SYSTEM scope (R109, R113). -/
def Sys2Proof.Claims.HandlersResume : Prop :=
  ∀ (s : State) (f : Fields),
    let c := s.me
    let pick := fun (o : Operand) => maskWhere c.width (fun L => s.src32 .int false o L ≠ 0) &&& c.exist
    let m := pick f.b
    let mask := c.trap.tmask ||| (c.trap.dmask &&& m)
    (∀ i ∈ [Instr.resume f, .kill f], OnceRuns i f s → c.trap.taken = false → exec i s = .next (stops s .resource)) ∧
    (OnceRuns (.resume f) f s → c.trap.taken = true → mask ≠ 0 →
      exec (.resume f) s = .next (s.setMe { c with
        st := .ready, pc := s.sreg f.a.sreg, mask := mask, depth := c.trap.depth, stack := c.stack.take (2 * c.trap.depth),
        gone := c.gone ||| (c.trap.dmask &&& ~~~m), trap := TrapRec.zero })) ∧
    (OnceRuns (.kill f) f s → c.trap.taken = true → c.mask &&& ~~~pick f.a ≠ 0 →
      ∃ t, exec (.kill f) s = .next t ∧ t = s.setMe t.me ∧ t.me.mask = c.mask &&& ~~~pick f.a ∧ t.me.gone = c.gone ||| pick f.a ∧
        t.me.trap.tmask = c.trap.tmask &&& ~~~pick f.a ∧ t.me.trap.dmask = c.trap.dmask &&& ~~~pick f.a ∧ t.me.pc = c.pc + 12) ∧
    (let x := (s.sreg f.a.sreg).toNat
     let y := (s.sreg f.b.sreg).toNat
     let u := s.release 5 none
     let here := fun (p : Park) => p.ctx = x / 2 ^ 20 % 2 ^ 8 ∧ p.srckind = x / 2 ^ 16 % 2 ^ 4 ∧ p.srcid = x % 2 ^ 16 ∧ p.id.toNat = y
     OnceRuns (.replay f) f s →
      (s.myCtx.priv = false → exec (.replay f) s = .next (s.raiseCv .privilege)) ∧
      (s.myCtx.priv = true → 2 ^ 28 ≤ x ∨ 2 ^ 32 ≤ y → exec (.replay f) s = .next (stops s .resource)) ∧
      (s.myCtx.priv = true → x < 2 ^ 28 → y < 2 ^ 32 → s.memPending = true → exec (.replay f) s = .next (waits s .release)) ∧
      (s.myCtx.priv = true → x < 2 ^ 28 → y < 2 ^ 32 → s.memPending = false → fabricPending u c.ctx = true →
        exec (.replay f) s = .next (waits u .release)) ∧
      (s.myCtx.priv = true → x < 2 ^ 28 → y < 2 ^ 32 → s.memPending = false → fabricPending u c.ctx = false → (∀ p ∈ u.parks, ¬here p) →
        exec (.replay f) s = .next (u.setMe { c with sregs := sset 0 c.sregs f.d.sreg 1, pc := c.pc + 12 })))

/-- A park that a replay names is released: its record leaves the list of parks, and a lane, a slice, an engine or a bank
executor goes on; a park of a context in SAVING or SAVED stays (R26, R109, R113). TLBINV of a range holds its caravan; one of no
pages only acquires. The translations of a range leave every channel (R107). -/
def Sys2Proof.Claims.ParksAndTranslationsGo : Prop :=
  (∀ (s : State) (c kind id park : Nat),
    let st := (s.ctx c).st
    let here := fun (p : Park) => decide (p.ctx = c) && decide (p.srckind = kind) && decide (p.srcid = id) && decide (p.id.toNat = park)
    let r := s.replayPark c kind id park
    (255 < c ∨ st = .free ∨ st = .saving ∨ st = .saved ∨ (∀ p ∈ s.parks, here p = false) → r = (s, false)) ∧
    (∀ p, c ≤ 255 → st ≠ .free → st ≠ .saving → st ≠ .saved → s.parks.find? here = some p →
      r.2 = true ∧
      (∀ n, p.what = .executor n → (r.1.executor n) = { s.executor n with st := .running } ∧ ∀ q ∈ r.1.parks, here q = false) ∧
      (∀ o, p.what = .copy o → (∀ q ∈ r.1.parks, here q = false) ∧ ∀ q ∈ r.1.ops, q.id = o → q.held = []) ∧
      (p.what = .sliceReissue → (r.1.cv p.core p.cslot).slice.st = .running ∧ ∀ q ∈ r.1.parks, here q = false) ∧
      (∀ n, p.what = .queue n → p.ctx = c → (sget LaunchQ.zero (r.1.ctx c).queues n).waiting = false) ∧
      (p.what = .reissue → (s.cv p.core p.cslot).st = .parked → (s.cv p.core p.cslot).mask ≠ 0 → (s.cv p.core p.cslot).pending = false →
        r.1.cv p.core p.cslot = { s.cv p.core p.cslot with st := (s.cv p.core p.cslot).runState }))) ∧
  (∀ (s : State) (f : Fields),
    let y := (s.sreg f.b.sreg).toNat
    let n := y % 2 ^ 32
    OnceRuns (.tlbinv f) f s →
    (s.myCtx.priv = false → exec (.tlbinv f) s = .next (s.raiseCv .privilege)) ∧
    (s.myCtx.priv = true → y / 2 ^ 32 % 2 ^ 16 ≠ 0 → exec (.tlbinv f) s = .next (stops s .resource)) ∧
    (s.myCtx.priv = true → y / 2 ^ 32 % 2 ^ 16 = 0 → n = 0 →
      exec (.tlbinv f) s = .next ((s.acquire 4 none).setMe { s.me with pc := s.me.pc + 12 })) ∧
    (s.myCtx.priv = true → y / 2 ^ 32 % 2 ^ 16 = 0 → n ≠ 0 → exec (.tlbinv f) s = .next (s.setMe { s.me with
      stall := .tlbinv (BitVec.ofNat 16 (y / 2 ^ 48)) (s.sreg f.a.sreg &&& 0xFFFFFFFFFFFFF000) n, pc := s.me.pc + 12 }))) ∧
  (∀ (s : State) (core slot : Nat), (∀ asid va n, (s.cv core slot).stall ≠ .tlbinv asid va n) →
    exec (.tlbinvComplete core slot) s = .next s) ∧
  (∀ (s : State) (core slot : Nat) (asid : BitVec 16) (va : W64) (n : Nat), (s.cv core slot).stall = .tlbinv asid va n →
    let hi := min (va.toNat + 4096 * n) (2 ^ 57)
    let u := (s.dropTranslations asid va.toNat hi).flushRange asid va.toNat hi
    (rangeLeft u asid va.toNat hi = true → exec (.tlbinvComplete core slot) s = .next u) ∧
    (rangeLeft u asid va.toNat hi = false → ∃ t, exec (.tlbinvComplete core slot) s = .next t ∧
      t.cv core slot = { u.cv core slot with stall := .none })) ∧
  (∀ (s : State) (asid : BitVec 16) (lo hi ch : Nat),
    let t := s.dropTranslations asid lo hi
    (∀ e ∈ (t.chan ch).tlb, e.asid = asid → hi ≤ e.vpn * 2 ^ e.size ∨ e.vpn * 2 ^ e.size + 2 ^ e.size ≤ lo) ∧
    (∀ e ∈ (s.chan ch).tlb, e.asid ≠ asid → e ∈ (t.chan ch).tlb) ∧
    (∀ r ∈ (t.chan ch).acc, r.asid = asid → hi ≤ 65536 * r.region ∨ 65536 * r.region + 65536 ≤ lo) ∧ t.mem = s.mem)

/-- HandlersResume and ParksAndTranslationsGo together. -/
def Obligations.HandlersAndParks : Prop :=
  Sys2Proof.Claims.HandlersResume ∧ Sys2Proof.Claims.ParksAndTranslationsGo

/-- EVPOST posts an event of its core to its own context behind a release at SYSTEM scope. LAUNCH waits while the ring is full and is RESOURCE without an
open queue or an aligned record; when every access passes it writes the record, the producer index and both answers. ENERGYQ reads a
counter or an allotment; what a counter has grown by is free (R331, R332, R334, log 15). -/
def Sys2Proof.Claims.EventsLaunchesEnergy : Prop :=
  ∀ (s : State) (f : Fields),
    let c := s.me
    let u := s.release 5 none
    let qn := (s.sreg f.b.sreg).toNat
    let src := (s.sreg f.a.sreg).toNat
    let relay := decide (modBits f.m 9 1 = 1)
    let q := sget LaunchQ.zero s.myCtx.queues qn
    let may := relay = false ∨ s.myCtx.priv = true
    let lu := u.launchUser
    let away := fabricPending u c.ctx
    (OnceRuns (.evpost f) f s → s.memPending = true → exec (.evpost f) s = .next (waits s .release)) ∧
    (OnceRuns (.evpost f) f s → s.memPending = false → away = true → exec (.evpost f) s = .next (waits u .release)) ∧
    (OnceRuns (.evpost f) f s → s.memPending = false → away = false →
      exec (.evpost f) s = .next ((u.event [c.ctx] (0x4000 + s.cur.core) 0x40
        ((s.sreg f.a.sreg).toNat + 2 ^ 64 * (s.sreg f.b.sreg).toNat)).setMe { c with pc := c.pc + 12 })) ∧
    (OnceRuns (.launch f) f s → ¬may → exec (.launch f) s = .next (s.raiseCv .privilege)) ∧
    (OnceRuns (.launch f) f s → may → 7 < qn ∨ src % 256 ≠ 0 ∨ q.on = false → exec (.launch f) s = .next (stops s .resource)) ∧
    (OnceRuns (.launch f) f s → may → qn ≤ 7 → src % 256 = 0 → q.on = true →
      (s.memPending = true → exec (.launch f) s = .next (waits s .release)) ∧
      (s.memPending = false → away = true → exec (.launch f) s = .next (waits u .release)) ∧
      (∀ s1 s2 cons idx, s.memPending = false → away = false → u.pieces lu (.home true) q.consVa.toNat 8 1 = (s1, .inl cons) →
        s1.pieces lu (.home true) q.prodVa.toNat 8 1 = (s2, .inl idx) → s2.me = c → s2.cur = s.cur → s2.want = .nothing →
        (2 ^ q.log2n ≤ (idx + 2 ^ 64 - cons) % 2 ^ 64 → exec (.launch f) s = .next (waits s2.dropAnswers (.launchRing qn))) ∧
        (∀ s3 s4 s5 r, (idx + 2 ^ 64 - cons) % 2 ^ 64 < 2 ^ q.log2n → s2.pieces lu .plain src 16 16 = (s3, .inl r) →
          s3.launchCheck (q.base.toNat + 256 * (idx % 2 ^ q.log2n)) 16 = (s4, none) → s4.launchCheck q.prodVa.toNat 8 = (s5, none) →
          (s5.launchNow f qn q idx r relay).want = .nothing →
          exec (.launch f) s = .next ((s5.launchNow f qn q idx r relay).dropAnswers.settle s.cur.core s.cur.slot)))) ∧
    (∀ t1 t2 rec idx, t1 = s.putPieces s.launchUser (.home true) (q.base.toNat + 256 * (idx % 2 ^ q.log2n)) 16 16 rec → t1.2 = none →
      t2 = t1.1.putPieces s.launchUser (.home true) q.prodVa.toNat 8 1 (idx + 1) → t2.2 = none → t2.1.me = c → t2.1.cur = s.cur → s.cur.slice = false →
      let t := s.launchNow f qn q idx rec relay
      t.me.pc = c.pc + 12 ∧ t.sreg f.d.sreg = BitVec.ofNat 64 (qn + 256 * idx) ∧
        (sget LaunchQ.zero (t.ctx c.ctx).queues qn).prod = idx + 1) ∧
    (OnceRuns (.energyq f) f s →
      let sel := f.a.immU
      (sel < 8 → s.myCtx.priv = false → exec (.energyq f) s = .next (s.raiseCv .privilege)) ∧
      (sel < 8 → s.myCtx.priv = true → sel < s.dev.energy.length → ∃ t, exec (.energyq f) s = .next t ∧ t.pc = s.pc + 12 ∧
        t.sreg f.d.sreg = ((s.dev.energy.getD sel 0) + (Config.freeWord s.freeCtr).setWidth 48).setWidth 64 ∧ t.mem = s.mem) ∧
      (sel = 8 → ∃ t, exec (.energyq f) s = .next t ∧ t.pc = s.pc + 12 ∧ t.mem = s.mem ∧
        t.sreg f.d.sreg = (s.myCtx.energyUse + (Config.freeWord s.freeCtr).setWidth 48).setWidth 64) ∧
      (sel = 9 → NextS (exec (.energyq f) s) s f (s.myCtx.eallot.setWidth 64)) ∧
      (sel = 10 → NextS (exec (.energyq f) s) s f (BitVec.ofNat 64 s.myCtx.admittedE)))

/-- ControlRegisters and EventsLaunchesEnergy together. -/
def Obligations.ControlRegistersAndLaunches : Prop :=
  Sys2Proof.Claims.ControlRegisters ∧ Sys2Proof.Claims.EventsLaunchesEnergy

/-- CTXOP of a privileged context performs its operation behind a release at DEVICE scope and writes the status word to s[d]; a user
context may not issue it, and an id above 255 answers BAD_ID (R33, R34). -/
def Sys2Proof.Claims.ContextOperationsAnswer : Prop :=
  ∀ (s : State) (f : Fields),
    let c := (s.sreg f.a.sreg).toNat
    let u := s.release 4 none
    ∀ p ∈ [(Instr.ctxopCreate f, CtxOp.create), (.ctxopActivate f, .activate), (.ctxopPreempt f, .preempt), (.ctxopRestore f, .restore),
        (.ctxopReset f, .reset), (.ctxopDestroy f, .destroy), (.ctxopQuery f, .query), (.ctxopModify f, .modify)],
      OnceRuns p.1 f s →
      (s.myCtx.priv = false → exec p.1 s = .next (s.raiseCv .privilege)) ∧
      (s.myCtx.priv = true → s.memPending = true → exec p.1 s = .next (waits s .release)) ∧
      (s.myCtx.priv = true → s.memPending = false → Unasked s → 255 < c →
        exec p.1 s = .next (u.setMe { s.me with sregs := sset 0 s.me.sregs f.d.sreg 3, pc := s.me.pc + 12 })) ∧
      (∀ t w, s.myCtx.priv = true → s.memPending = false → c ≤ 255 →
        u.ctxop (u.user devOp) p.2 c (s.sreg f.b.sreg).toNat false = (t, w) → t.me = s.me → t.cur = s.cur →
        (t.want = .nothing →
          exec p.1 s = .next (t.dropAnswers.setMe { s.me with sregs := sset 0 s.me.sregs f.d.sreg w, pc := s.me.pc + 12 })) ∧
        (t.want ≠ .nothing → exec p.1 s = .next (waits (u.awaits t) .away)))

/-- The context machine: each operation is refused as BAD_STATE outside the states it starts from and leaves the machine as it was, the operations of context 0
that R379 keeps for the window are DENIED; CREATE fills the entry from its descriptor, ACTIVATE makes it ACTIVE, PREEMPT DRAINING or SAVING, RESET RESETTING,
and DESTROY frees the entry and empties its key slots (R22 to R26, R33, R373, R379). -/
def Sys2Proof.Claims.ContextStates : Prop :=
  ∀ (s : State) (who : User) (c arg : Nat) (window : Bool), c ≤ 255 →
    let y := s.ctx c
    let code := match y.st with
      | .free => 0
      | .created => 1
      | .active => 2
      | .draining => 3
      | .saving => 4
      | .saved => 5
      | .resetting => 6
      | .dead => 7
    let go := fun (op : CtxOp) => s.ctxop who op c arg window
    let refused := fun (op : CtxOp) (n : Nat) => go op = (s, BitVec.ofNat 64 (n + 2 ^ 8 * code))
    (y.st ≠ .free → refused .create 2) ∧ (y.st ≠ .created → refused .activate 2) ∧
    (c ≠ 0 → y.st ≠ .active → refused .preempt 2) ∧ (y.st ≠ .saved → refused .restore 2) ∧
    (c ≠ 0 → y.st = .free ∨ y.st = .created ∨ y.st = .resetting ∨ y.st = .dead → refused .reset 2) ∧
    (c ≠ 0 → y.st ≠ .created → y.st ≠ .dead → refused .destroy 2) ∧ (y.st = .free → refused .query 2) ∧
    (c ≠ 0 → y.st ≠ .created → y.st ≠ .saved → refused .modify 2) ∧
    (c = 0 → refused .preempt 7 ∧ refused .reset 7 ∧ refused .destroy 7 ∧ (window = false → refused .modify 7)) ∧
    (∀ t x, y.st = .free → s.readDesc who arg = (t, some x) → descBad x = false → baseFree t x = true →
      (go .create).1 = t.setCtx c (Context.ofDesc x) ∧ ((go .create).2.toNat % 256 = 0)) ∧
    (∀ t x, y.st = .free → s.readDesc who arg = (t, some x) → descBad x = true → (go .create).1 = t ∧ (go .create).2.toNat % 256 = 4) ∧
    (c ≠ 0 → y.st = .active → arg % 2 = 0 →
      go .preempt = (s.setCtx c { y with st := .draining, timers := true }, BitVec.ofNat 64 (1 + 2 ^ 8 * 3))) ∧
    (c ≠ 0 → y.st = .active ∨ y.st = .draining ∨ y.st = .saving ∨ y.st = .saved →
      ((go .reset).1.ctx c).st = .resetting ∧ ((go .reset).1.ctx c).kernels = [] ∧ ((go .reset).1.ctx c).queues = [] ∧
        (∀ p ∈ (go .reset).1.parks, p.ctx ≠ c) ∧ (go .reset).2.toNat % 256 = 1) ∧
    (c ≠ 0 → y.st = .created ∨ y.st = .dead →
      (go .destroy).1.ctx c = Context.free ∧ (go .destroy).2 = 0 ∧ (go .destroy).1.mem = s.mem ∧
        ∀ n, y.kbase ≤ n → n < y.kbase + y.kcount → ((go .destroy).1.keySlot n).full = false ∧ ((go .destroy).1.keySlot n).key = 0)

/-- ContextOperationsAnswer and ContextStates together. -/
def Obligations.ContextsMove : Prop :=
  Sys2Proof.Claims.ContextOperationsAnswer ∧ Sys2Proof.Claims.ContextStates

/-! ## Inputs and the device's own steps -/

/-- Bring-up: each step follows the one before it and else changes nothing; BOOT refused by a signature or the rollback counter leaves the device in
FAILSAFE; REPAIR zeroes every DRAM byte and no other; MAP brings the stored pinned capacities into use; the system step creates context 0. A device
reset and a thermal shutdown leave the fuses and the configuration store (R376, R377, R379, R380). -/
def Sys2Proof.Claims.BringUpSteps : Prop :=
  ∀ (s : State) (valid : Bool) (counter : Nat) (id : BitVec 16),
    let d := s.dev
    let at_ := fun (n : Nat) => d.step = n ∧ d.failsafe = false
    let onto := fun (n : Nat) => ({ s with dev := { d with step := n } } : State)
    (∀ i ∈ [Instr.deviceReset, .thermalShutdown], ∃ t, exec i s = .next t ∧ t.dev.step = 0 ∧ t.dev.failsafe = false ∧ t.dev.fuse = d.fuse ∧
      t.dev.store = d.store ∧ t.mem = [] ∧ t.cvs = [] ∧ t.ops = [] ∧ t.ctxs = [] ∧ t.dev.admitted = [] ∧ t.dev.nodeid = 0 ∧
      ∀ p ∈ t.dev.keys, p.2.full = false) ∧
    (at_ 0 → valid = true → d.fuse ≤ counter → exec (.boot valid counter) s = .next (onto 1)) ∧
    (at_ 0 → (valid = false ∨ counter < d.fuse) → exec (.boot valid counter) s = .next { s with dev := { d with failsafe := true } }) ∧
    (¬at_ 0 → exec (.boot valid counter) s = .next s) ∧
    (at_ 1 → ∃ t, exec .repairStep s = .next t ∧ t.dev = { d with step := 2 } ∧ t.sectors = [] ∧ t.ctxs = s.ctxs ∧
      ∀ a, mget t.mem a = if a < 2 ^ 40 then 0 else mget s.mem a) ∧
    (¬at_ 1 → exec .repairStep s = .next s) ∧
    (at_ 2 → ∃ t, exec .mapStep s = .next t ∧ t.dev = { d with step := 3 } ∧ t.mem = s.mem ∧ ∀ n, n < 8 → (t.die n).pinned = sget 0 d.store n) ∧
    (¬at_ 2 → exec .mapStep s = .next s) ∧
    (at_ 3 → exec .measure s = .next { s with dev := { d with step := 4, measured := some s.freeCtr }, freeCtr := s.freeCtr + 1 }) ∧
    (¬at_ 3 → exec .measure s = .next s) ∧
    (d.failsafe = true ∨ d.step = 4 → ∃ t, exec .links s = .next t ∧ t.dev = d ∧ t.mem = s.mem ∧
      ∀ p, p < 36 → t.port p = if (d.failsafe = false ∨ p = 0) ∧ (s.port p).st = .down ∧ (s.port p).dis = false then
        { s.port p with st := .training, attempts := 0 } else s.port p) ∧
    (d.failsafe = false → d.step ≠ 4 → exec .links s = .next s) ∧
    (d.failsafe = false → d.step = 4 → (∃ p ∈ s.fab.ports, p.2.st ≠ .down) → id ≠ 0 → id ≠ 0xFFFF →
      exec (.nodeidAssigned id) s = .next { s with dev := { d with nodeid := id, step := 5 } }) ∧
    (d.failsafe = true ∨ d.step < 4 ∨ id = 0 ∨ id = 0xFFFF → exec (.nodeidAssigned id) s = .next s) ∧
    (¬at_ 5 → exec .systemStep s = .next s) ∧
    (at_ 5 → ∃ t, exec .systemStep s = .next t ∧ t.dev.step = 6 ∧ (t.keySlot 0).full = true ∧ (t.ctx 0).priv = true ∧ (t.ctx 0).kbase = 0 ∧
      (t.ctx 0).kcount = 1 ∧ (t.ctx 0).root = 0)

/-- Power: above 2400 W or at the thermal limit the clocks of all dies go down by 100 MHz, below 2250 W up, between 1500 and 3000. SPDM requests are
answered from step 4 on and in FAILSAFE, in their order; LOAD_KEY, ADMIT_HOST and SET_PINNED ask for a session within which all six measurements were
read; the order and the codes of the answers are those of SPDM 1.3 (R371, R374, R375, R380; the order: PRESUMED, see the log). -/
def Sys2Proof.Claims.PowerAndAttestation : Prop :=
  ∀ (s : State) (watts index slot : Nat) (key : BitVec 512) (node : BitVec 16) (dies : BitVec 8) (caps : BitVec 40),
    let d := s.dev
    let m := d.spdm
    let clocks := fun (t : State) (f : Nat → Nat) => ∀ n, n < 8 → (t.die n).mhz = f (s.die n).mhz
    let same := ∀ n, n < 8 → (s.die n).mhz = (s.die 0).mhz
    let up := d.failsafe = true ∨ 4 ≤ d.step
    let trusted := m.session = true ∧ m.measured = 0x3F
    let sends := fun (i : Instr) (t : State) (x : Msg) => exec i s = .next (t.send x)
    let code := fun (i : Instr) (y : Spdm) (c : Nat) =>
      exec i s = .next (({ s with dev := { d with spdm := y }, freeCtr := s.freeCtr + 1 } : State).send (.spdmOk c (Config.spdmData s.freeCtr)))
    let no := Msg.spdmError 4
    (same → 2400 < watts → ∃ t, exec (.powerWindow watts) s = .next t ∧ clocks t (fun x => max 1500 (x - 100)) ∧ t.mem = s.mem) ∧
    (same → ∃ t, exec .thermalLimit s = .next t ∧ clocks t (fun x => max 1500 (x - 100)) ∧ t.mem = s.mem) ∧
    (same → watts < 2250 → ∃ t, exec (.powerWindow watts) s = .next t ∧ clocks t (fun x => min 3000 (x + 100)) ∧ t.mem = s.mem) ∧
    (2250 ≤ watts → watts ≤ 2400 → exec (.powerWindow watts) s = .next s) ∧
    (∀ i ∈ [Instr.getVersion, .getCapabilities, .negotiateAlgorithms, .getDigests, .getCertificate, .challenge, .getMeasurements index, .keyExchange,
        .finish, .endSession, .loadKey slot key, .admitHost node, .getBringup, .setPinned dies caps], ¬up → exec i s = .next s) ∧
    (up →
      code .getVersion { versioned := true, capable := false, negotiated := false, exchanged := false, session := false, measured := 0 } 0x04 ∧
      (m.versioned = true → code .getCapabilities { m with capable := true } 0x61) ∧ (m.versioned = false → sends .getCapabilities s no) ∧
      (m.capable = true → code .negotiateAlgorithms { m with negotiated := true } 0x63) ∧ (m.capable = false → sends .negotiateAlgorithms s no) ∧
      (m.negotiated = true → code .getDigests m 0x01 ∧ code .getCertificate m 0x02 ∧ code .challenge m 0x03 ∧
        code .keyExchange { m with exchanged := true } 0x64) ∧
      (m.negotiated = false → ∀ i ∈ [Instr.getDigests, .getCertificate, .challenge, .getMeasurements index, .keyExchange], sends i s no) ∧
      (m.exchanged = true → code .finish { m with exchanged := false, session := true, measured := 0 } 0x65) ∧ (m.exchanged = false → sends .finish s no) ∧
      (m.session = true → code .endSession { m with session := false, measured := 0 } 0x6C) ∧ (m.session = false → sends .endSession s no) ∧
      (m.negotiated = true → index = 0 ∨ 6 < index → sends (.getMeasurements index) s (.spdmError 1)) ∧
      (∀ n, m.negotiated = true → 1 ≤ index → index ≤ 6 → d.measured = some n → sends (.getMeasurements index)
        (if m.session then { s with dev := { d with spdm := { m with measured := m.measured ||| (1#6 <<< (index - 1)) } } } else s)
        (.spdmOk 0x60 (Config.measurement n index))) ∧
      sends .getBringup s (.spdmOk 0x7E (BitVec.ofNat 512 d.step)) ∧
      (¬trusted → sends (.loadKey slot key) s no ∧ sends (.admitHost node) s no ∧ sends (.setPinned dies caps) s no) ∧
      (trusted → slot = 0 → sends (.loadKey slot key) s no) ∧
      (trusted → 0 < slot → slot < 4096 → ∃ t, exec (.loadKey slot key) s = .next t ∧
        t.keySlot slot = { full := true, gen := (s.keySlot slot).gen + 1, key := key } ∧ (∀ n, n ≠ slot → t.keySlot n = s.keySlot n) ∧ t.mem = s.mem) ∧
      (trusted → node ∉ d.admitted → d.admitted.length < 4 →
        sends (.admitHost node) { s with dev := { d with admitted := d.admitted ++ [node] } } (.spdmOk 0x7E 0)) ∧
      (trusted → node ∉ d.admitted → 4 ≤ d.admitted.length → sends (.admitHost node) s (.spdmError 1)) ∧
      (trusted → (∀ n, n < 8 → dies.getLsbD n = true → caps.toNat / 2 ^ (5 * n) % 32 ≤ 16) → ∃ t, exec (.setPinned dies caps) s = .next t ∧
        t.mem = s.mem ∧ ∀ n, sget 0 t.dev.store n = if n < 8 ∧ dies.getLsbD n = true then caps.toNat / 2 ^ (5 * n) % 32 else sget 0 d.store n) ∧
      (trusted → (∃ n, n < 8 ∧ dies.getLsbD n = true ∧ 16 < caps.toNat / 2 ^ (5 * n) % 32) → sends (.setPinned dies caps) s (.spdmError 1)))

/-- BringUpSteps and PowerAndAttestation together. -/
def Obligations.BringUpAndPower : Prop :=
  Sys2Proof.Claims.BringUpSteps ∧ Sys2Proof.Claims.PowerAndAttestation

/-- Links: a failed check counts where the flit was received, and a reliable flit of this device is sent again; after sixteen in a row, or a lost lock, the
port is in RETRAIN; training brings a port UP with LINK_UP to context 0, or FAILED after a third failure or a timeout, with LINK_FAILED; what a RETRAIN
port holds is replayed when it is UP again (LRETRY grows by a free number: log 101) or goes to another port of the same hop; DIS takes a port down, and
clearing it trains a DOWN one (R144 to R146, R150). -/
def Sys2Proof.Claims.LinkEvents : Prop :=
  ∀ (s : State) (p : Nat) (cls : TrafficClass) (sent : Bool) (peer : BitVec 16) (peerPort : BitVec 8), p < 36 →
    let x := s.port p
    let put := fun (y : Port) => s.setPort p y
    let gives := fun (i : Instr) (y : Port) => ∃ t, exec i s = .next t ∧ t.port p = y ∧ t.mem = s.mem
    let retrained := fun (n : Nat) => ({ x with st := .retrain, retrain := x.retrain + 1, tries := 0, retry := x.retry + BitVec.ofNat 64 n } : Port)
    (x.st = .up →
      exec (.flitCheckFail p ⟨cls, false⟩) s = .next (put { x with check := x.check + 1 }) ∧
      (cls = .lossy → exec (.flitCheckFail p ⟨cls, true⟩) s = .next s) ∧
      (cls ≠ .lossy → x.tries < 15 → exec (.flitCheckFail p ⟨cls, true⟩) s = .next (put { x with retry := x.retry + 1, tries := x.tries + 1 })) ∧
      (cls ≠ .lossy → 15 ≤ x.tries → gives (.flitCheckFail p ⟨cls, true⟩) (retrained 1)) ∧
      gives (.retrainEntry p) (retrained 0)) ∧
    (x.st ≠ .up → exec (.flitCheckFail p ⟨cls, sent⟩) s = .next s ∧ exec (.retrainEntry p) s = .next s) ∧
    (x.st = .training → ∃ t, exec (.trainingComplete p peer peerPort) s = .next t ∧
      t.port p = { x with st := .up, peer := peer, peerPort := peerPort, attempts := 0, tries := 0 } ∧
      (∃ bits, t.posts = s.posts ++ [{ ctx := 0, fault := false, bits := bits }] ∧ bits % 2 ^ 32 = 0x30 + 2 ^ 16 * (0x2000 + p) ∧
        bits / 2 ^ 64 = peer.toNat) ∧ t.mem = s.mem) ∧
    (x.st = .retrain → x.buffer = [] → gives (.trainingComplete p peer peerPort) { x with st := .up, tries := 0 }) ∧
    (x.st = .retrain → x.buffer ≠ [] →
      gives (.trainingComplete p peer peerPort) { x with st := .up, tries := 0, retry := x.retry + Config.freeWord s.freeCtr }) ∧
    (x.st ≠ .training → x.st ≠ .retrain → exec (.trainingComplete p peer peerPort) s = .next s) ∧
    (x.st = .training → x.attempts < 2 → exec (.trainingFailed p) s = .next (put { x with attempts := x.attempts + 1 })) ∧
    (x.st = .training → 2 ≤ x.attempts → ∃ t, exec (.trainingFailed p) s = .next t ∧ t.port p = { x with st := .failed, attempts := 0 } ∧
      ∃ bits, t.posts = s.posts ++ [{ ctx := 0, fault := false, bits := bits }] ∧ bits % 2 ^ 16 = 0x31) ∧
    (x.st ≠ .training → exec (.trainingFailed p) s = .next s) ∧
    (x.st = .retrain → s.fab.comms = [] → ∃ t, exec (.retrainTimeout p) s = .next t ∧ t.port p = { x with st := .failed, buffer := [] } ∧
      ∀ q, q < 36 → q ≠ p → (s.port q).st = .up → Config.sameHop p q = true →
        (∀ r, r < q → r = p ∨ (s.port r).st ≠ .up ∨ Config.sameHop p r = false) → (t.port q).buffer = (s.port q).buffer ++ x.buffer) ∧
    (x.st ≠ .retrain → exec (.retrainTimeout p) s = .next s) ∧
    (s.fab.comms = [] → ∃ t, exec (.lctlDisSet p) s = .next t ∧ t.port p = { x with st := .down, dis := true, tries := 0, attempts := 0, buffer := [] }) ∧
    exec (.lctlDisClear p) s = .next (put (if x.st = .down then { x with dis := false, st := .training, attempts := 0 } else { x with dis := false }))

/-- Messages of other nodes: a request to a context that does not serve or does not admit it answers PERMISSION, an admitted one is performed and
answered, and one that has to wait stays; replies complete an access's lane, and one that nothing waits for is discarded; a PARKED notice suspends the timer
and a timeout is OUT_OF_RANGE; a lossy block that fails its check or comes late is dropped and counted, another is written and noted in its transfer; a marker
or a reset of a node closes its transfers (R148, R149, R151, R152, R320). -/
def Sys2Proof.Claims.FabricMessages : Prop :=
  (∀ (s : State) (r : RemoteReq), Unasked s →
    let c := r.tctx.toNat
    let id := 2 ^ 64 + s.nextDev
    let s1 := { s with nextDev := s.nextDev + 1 }
    let ends := fun (t : State) => exec (.remoteRequest r) s = .next (t.dropAnswers.unwait id)
    let a := s1.admits c r.node r.sctx (reqRight r)
    let serves := (s.ctx c).st ≠ .free ∧ (s.ctx c).st ≠ .resetting ∧ (s.ctx c).st ≠ .dead
    let made := a.1.askChecked (remoteUser c id) (reqPlace r) r.va r.size (reqAct r)
    (¬serves → ends (s1.send (.reply r .permission 0))) ∧
    (serves → a.2 = false → a.1.want = .nothing → ends (a.1.send (.reply r .permission 0))) ∧
    (∀ t x, serves → a.2 = true → made = (t, .ok x) → t.want = .nothing → ends (t.send (.reply r .performed (BitVec.ofNat 128 x)))) ∧
    (∀ t, serves → a.2 = true → made = (t, .cause .permission) → t.want = .nothing → ends (t.send (.reply r .permission 0))) ∧
    (∀ t, serves → a.2 = true → made = (t, .busy) → t.want ≠ .nothing → ∃ u, exec (.remoteRequest r) s = .next u ∧ u.mem = s.mem ∧
      ∃ w ∈ u.fab.waits, w.id = id)) ∧
  (∀ (s : State) (o : Op) (lane : Nat) (out : RemoteOutcome) (x : BitVec 128) (r : Req), s.op o.id = some o →
    ((∀ q ∈ o.remote, q.lane ≠ lane) → exec (.remoteReply o.id lane out x) s = .next s ∧ exec (.parkedNotice o.id lane) s = .next s ∧
      exec (.fabricTimeout o.id lane) s = .next s) ∧
    (r ∈ o.remote → r.lane = lane → lane ∉ o.held →
      ∃ t, exec (.parkedNotice o.id lane) s = .next t ∧ t.mem = s.mem ∧ ∀ q ∈ t.ops, q.id = o.id → q = { o with held := o.held ++ [lane] }) ∧
    (r ∈ o.remote → r.lane = lane → lane ∈ o.held → exec (.parkedNotice o.id lane) s = .next s ∧ exec (.fabricTimeout o.id lane) s = .next s) ∧
    (o.remote = [r] → r.lane = lane → o.todo = [] → o.cls = .CL → (∀ n ∈ o.held, n = lane) → out = .performed → lane < 1024 →
      ∀ node tctx rd sx, o.kind = .remote node tctx rd 4 sx true → (s.cv o.core o.cslot).gone.getLsbD lane = false →
      (s.cv o.core o.cslot).st ≠ .absent → (∀ n sc ad, (s.cv o.core o.cslot).stall ≠ .acquireOp n sc ad) →
      ∃ t, exec (.remoteReply o.id lane out x) s = .next t ∧ (∀ p ∈ t.ops, p.id = o.id → p.done = true) ∧ t.mem = s.mem ∧
        (t.cv o.core o.cslot).reg rd lane = x.setWidth 32 ∧
        ∀ q L, L < 1024 → (q, L) ≠ (rd, lane) → (t.cv o.core o.cslot).reg q L = (s.cv o.core o.cslot).reg q L) ∧
    (∀ node tctx rd w sx, o.remote = [r] → r.lane = lane → o.todo = [] → o.held = [] → o.kind = .remote node tctx rd w sx true →
      ∃ t, exec (.fabricTimeout o.id lane) s = .next t ∧ ∀ p ∈ t.ops, p.id = o.id → p.done = true)) ∧
  (∀ (s : State) (port : Nat) (b : LossyBlock) (m : EndMarker) (node : BitVec 16), Unasked s →
    let late := b.xfer - (sget 0 s.fab.h b.src.toNat - 1)
    let id := 2 ^ 64 + s.nextDev
    let s1 := { s with nextDev := s.nextDev + 1 }
    let serves := fun (c : BitVec 8) => (s.ctx c.toNat).st ≠ .free ∧ (s.ctx c.toNat).st ≠ .resetting ∧ (s.ctx c.toNat).st ≠ .dead
    let l := s1.admits b.tctx.toNat b.src b.sctx .lossy
    let w := l.1.admits b.tctx.toNat b.src b.sctx .wr
    let a := s1.admits m.tctx.toNat m.src m.sctx .wr
    let got := match openXfer s m.src m.xfer with
      | some e => e.got
      | none => []
    let closed := fun (t : State) (out : RemoteOutcome) => t.fab.out ≠ [] ∧ t.fab.out.getLast? = some (.markerAck m out) ∧
      sget 0 t.fab.h m.src.toNat = m.xfer + 1 ∧ ∀ e ∈ t.fab.opened, ¬(e.src = m.src ∧ e.xfer = m.xfer)
    (b.chkOk = false ∨ late = 0 ∨ 2 ^ 31 ≤ late.toNat → ∃ t, exec (.lossyBlock port b) s = .next t ∧ t.mem = s.mem ∧ t.fab.opened = s.fab.opened ∧
      t.port port = { s.port port with drop := (s.port port).drop + 1 }) ∧
    (∀ t, b.chkOk = true → late ≠ 0 → late.toNat < 2 ^ 31 → s.fab.opened.length < 4096 → serves b.tctx → l.2 = true → w.2 = true →
      w.1.lossyBytes b.tctx.toNat id b.va b.payload.toNat = some t → t.want = .nothing →
      ∃ u, exec (.lossyBlock port b) s = .next u ∧ u.mem = t.mem ∧ ∃ e ∈ u.fab.opened, e.src = b.src ∧ e.xfer = b.xfer ∧ b.index.toNat ∈ e.got) ∧
    ((s.ctx m.tctx.toNat).st = .free → behindMarker s1 id m = false →
      ∃ t, exec (.endMarker m) s = .next t ∧ closed t .permission ∧ t.mem = s.mem) ∧
    (∀ t, behindMarker s1 id m = false → serves m.tctx → a.2 = true → a.1.markerWrites id m got = (t, none) → t.want = .nothing → m.notVa = 0 →
      ∃ u, exec (.endMarker m) s = .next u ∧ closed u .performed ∧ u.mem = t.mem) ∧
    (∃ t, exec (.nodeReset node) s = .next t ∧ sget 0 t.fab.h node.toNat = 0 ∧ (∀ e ∈ t.fab.opened, e.src ≠ node) ∧ t.mem = s.mem))

/-- Gang pauses and extents as their manager and the peers drive them: a query of an ACTIVE endpoint is reported and permits at most one chunk past the
highest granted of its instance, PAUSE of a QUERIED one pauses at c*, either is BUSY in a pause, RESUME of a PAUSED one makes it ACTIVE, a peer's reset breaks
it; an INSTANCE_DONE counts, before the COLL here too; a switch that declines or aborts leaves a chunk to the relay cores. A grant fills a FREE or GONE extent,
an orderly release begins its writeback, and either release ends in GONE, the orderly one with nothing dirty left (R116, R117, R155, R159 to R161). -/
def Sys2Proof.Claims.GangAndExtentEvents : Prop :=
  (∀ (s : State) (c k inst peer cstar : Nat),
    let x := s.comm c k
    let chunk := x.chunkOf x.current
    let busy := s.send (.gangReport c k chunk true)
    (x.st = .active → exec (.gangQuery c k) s =
      .next ((s.setComm c k { x with st := .queried, own := false, pinst := x.current, permit := some (chunk + 1), acks := [] }).send
        (.gangReport c k chunk false))) ∧
    (x.st = .queried ∨ x.st = .pausing ∨ x.st = .paused → exec (.gangQuery c k) s = .next busy) ∧
    (x.st = .queried → x.own = false → exec (.pause c k cstar) s =
      .next (s.setComm c k { x with st := .pausing, permit := some cstar, cstar := cstar })) ∧
    ((x.st = .queried ∧ x.own = true) ∨ x.st = .pausing ∨ x.st = .paused → exec (.pause c k cstar) s = .next busy) ∧
    (x.st = .idle ∨ x.st = .active ∨ x.st = .broken → exec (.pause c k cstar) s = .next s) ∧
    (x.st = .paused → exec (.gangResume c k) s = .next (s.setComm c k { x with st := .active, own := false, permit := none, acks := [] })) ∧
    (x.st ≠ .paused → exec (.gangResume c k) s = .next s) ∧
    (x.read = false ∨ x.st = .broken → exec (.peerContextReset c k) s = .next s) ∧
    (x.read = true → x.st ≠ .broken → ∃ t, exec (.peerContextReset c k) s = .next t ∧ (t.comm c k).st = .broken ∧ (t.comm c k).insts = []) ∧
    (∀ i, x.insts = [i] → i.inst = inst → i.localDone = false → ∃ t, exec (.instanceDone c k inst peer) s = .next t ∧
      (t.comm c k).insts = [{ i with peers := (i.peers ++ [peer]).eraseDups }] ∧ t.mem = s.mem) ∧
    ((∀ i ∈ x.insts, i.inst ≠ inst) → x.next ≤ inst →
      exec (.instanceDone c k inst peer) s = .next (s.setComm c k { x with early := (x.early ++ [(inst, peer)]).eraseDups }))) ∧
  (∀ (s : State) (o : Op) (td ta k inst chunk op ty : Nat) (lossy sent : Bool) (rv rc : W64), s.op o.id = some o →
    (o.kind = .rred td ta k inst chunk op ty true lossy rv rc true → o.done = false → o.todo = [] →
      exec (.switchDecline o.id) s = .next (s.setOp { o with kind := .rred td ta k inst chunk op ty false lossy rv rc true }) ∧
      ∃ t, exec (.switchAbort o.id) s = .next t ∧ ∀ q ∈ t.ops, q.id = o.id →
        (∃ b, q.kind = .rred td ta k inst chunk op ty false lossy rv rc b) ∧ q.done = false) ∧
    (o.kind = .rred td ta k inst chunk op ty false lossy rv rc sent → exec (.switchDecline o.id) s = .next s ∧ exec (.switchAbort o.id) s = .next s)) ∧
  (∀ (s : State) (id size owner : Nat) (node : BitVec 16) (base : W64),
    let x := s.extent id
    let t1 := s.cores.foldl (fun s kc => (kc.2.l1.filter (fun l => l.ofExtent id)).foldl (fun s l => s.cleanL1 kc.1 l.asid l.tag) s) s
    let t2 := (List.range 8).foldl (fun s d => s.flushL2 d (fun l => l.ofExtent id) false) t1
    let u := t2.flushExt (fun l => l.extent = some id) true
    let left := extentDirty u id ≠ 0 ∨ ∃ o ∈ u.ops, o.ctx = x.owner ∧ o.kind = .wback
    (id < 4096 → x.st = .free ∨ x.st = .gone → exec (.extentGrant id node base size owner) s =
      .next (s.setExtent id { st := .granted, node := node, base := base, size := size, owner := owner })) ∧
    (x.st = .granted ∨ x.st = .releasing → exec (.extentGrant id node base size owner) s = .next s) ∧
    (x.st = .granted → exec (.extentOrderlyRelease id) s = .next (s.setExtent id { x with st := .releasing })) ∧
    (x.st ≠ .granted → exec (.extentOrderlyRelease id) s = .next s) ∧
    (x.st = .free ∨ x.st = .gone → exec (.extentForcedRelease id) s = .next s) ∧
    (x.st = .granted ∨ x.st = .releasing → ∃ t, exec (.extentForcedRelease id) s = .next t ∧ t.extent id = { x with st := .gone } ∧ t.mem = s.mem) ∧
    (x.st ≠ .releasing → exec (.extentWritebackDone id) s = .next s) ∧
    (x.st = .releasing → left → exec (.extentWritebackDone id) s = .next u) ∧
    (x.st = .releasing → ¬left → ∃ t, exec (.extentWritebackDone id) s = .next t ∧ t.extent id = { x with st := .gone } ∧
      .extentAck id ∈ t.fab.out ∧ t.mem = u.mem))

/-- LinkEvents, FabricMessages and GangAndExtentEvents together. -/
def Obligations.FabricDelivers : Prop :=
  Sys2Proof.Claims.LinkEvents ∧ Sys2Proof.Claims.FabricMessages ∧ Sys2Proof.Claims.GangAndExtentEvents

/-- A channel by itself: ARMING times out to NORMAL, EXITING with no command left ends in NORMAL, COMPUTE with a waiting access is SUSPENDED when its bound
expires and COMPUTE again when what waited is served; a blocked bank is free again, and a refresh window clears counts and captures (R129 to R131, R133,
R134). Context 0's register write and the host's replay doorbell (R113, R119, R145). -/
def Sys2Proof.Claims.ChannelEvents : Prop :=
  ∀ (s : State) (ch bank : Nat) (va x : W64) (node : BitVec 16) (sctx : BitVec 8) (w : BitVec 128),
    let c := s.chan ch
    let idle := ∀ o ∈ s.ops, o.done = false → ∀ cmd rel, o.kind ≠ .bank ch cmd rel
    (c.mode = .arming → ∃ t, exec (.armingTimeout ch) s = .next t ∧ t.chan ch = { c with mode := .normal, steps := 0, owner := 0, waits := [], snap := [] } ∧ t.mem = s.mem) ∧
    (c.mode ≠ .arming → exec (.armingTimeout ch) s = .next s) ∧
    (c.mode = .exiting → idle → s.advOpen ≠ some ch → ∃ t, exec (.exitingComplete ch) s = .next t ∧
      t.chan ch = { c with mode := .normal, steps := 0, owner := 0, waits := [], snap := [], prog := [], slots := [] } ∧ t.mem = s.mem ∧
      ∀ n, n < 64 → t.executor (64 * ch + n) = Executor.zero) ∧
    (c.mode ≠ .exiting → exec (.exitingComplete ch) s = .next s) ∧
    (c.mode ≠ .compute ∨ s.advOpen = some ch ∨ waitingAt s ch = [] → exec (.oboundExpires ch) s = .next s) ∧
    (c.mode = .compute → s.advOpen ≠ some ch → waitingAt s ch ≠ [] → exec (.oboundExpires ch) s = .next (s.setChan ch
      { c with mode := .suspended, statsusp := c.statsusp + 1, waits := waitingAt s ch, snap := waitingAt s ch })) ∧
    (c.mode = .suspended → (∀ n ∈ c.snap, n ≠ devOp → n ∉ waitingAt s ch) →
      exec (.snapshotServed ch) s = .next (s.setChan ch { c with mode := .compute, snap := [] })) ∧
    (c.mode ≠ .suspended ∨ (∃ n ∈ c.snap, n ≠ devOp ∧ n ∈ waitingAt s ch) → exec (.snapshotServed ch) s = .next s) ∧
    exec (.rfmBlockEnd ch bank) s = .next (s.setChan ch { c with blocked := c.blocked.filter (fun b => b ≠ bank) }) ∧
    ((∀ p ∈ c.captured, p.2.2 = false) → exec (.refreshWindowBoundary ch) s = .next (s.setChan ch { c with hot := [], captured := [] })) ∧
    (∀ d, (s.ctx 0).st ≠ .free → va.toNat = 0x1ED * 2 ^ 48 + 16384 * ch + 8 * d → ch < 512 → 3 ≤ d → d ≤ 9 → route s 0 none va.toNat = .regs →
      ∃ t, exec (.registerWrite va x) s = .next t ∧ chanReg (t.chan ch) (8 * d) = some x ∧ t.mem = s.mem) ∧
    (route s 0 none va.toNat ≠ .regs → exec (.registerWrite va x) s = .next s) ∧
    (let id := 2 ^ 64 + s.nextDev
     let a := ({ s with nextDev := s.nextDev + 1 } : State).admits 0 node sctx .wr
     let ends := fun (t : State) => exec (.replayDoorbell node sctx w) s = .next (t.dropAnswers.unwait id)
     let r := a.1.replayPark (w.toNat % 2 ^ 8) (w.toNat / 2 ^ 8 % 2 ^ 4) (w.toNat / 2 ^ 12 % 2 ^ 16) (w.toNat / 2 ^ 64 % 2 ^ 32)
     a.1.want = .nothing →
      (a.2 = false → ends a.1) ∧ (a.2 = true → w.toNat / 2 ^ 28 % 2 ^ 36 ≠ 0 ∨ w.toNat / 2 ^ 96 ≠ 0 → ends a.1) ∧
      (a.2 = true → w.toNat / 2 ^ 28 % 2 ^ 36 = 0 → w.toNat / 2 ^ 96 = 0 → r.1.want = .nothing → ends r.1))

/-- Caravans between their instructions: a passed-over caravan is promoted, a yield ends, a sleeper wakes, a wait that is over lets its instruction go on, a
departure, an exit and a grant happen when they are due, a release completes with its stall, an evicted line leaves the cache, and a held record that
finds room is retried (R65 to R67, R77, R78, R112, R197, R235). -/
def Sys2Proof.Claims.CaravanEvents : Prop :=
  ∀ (s : State) (k n : Nat) (asid : BitVec 16) (line : Nat),
    let c := s.cv k n
    let put := fun (x : Caravan) => s.setCv k n x
    let quiet := c.mask ≠ 0 ∧ c.pending = false
    exec (.priorityPromotion k n) s = .next (put (if 256 ≤ c.passed then { c with passed := 0, eprio := min 4 (c.eprio + 1) } else c)) ∧
    exec (.yieldExpires k n) s = .next (put { c with yielding := false }) ∧
    (c.st ≠ .sleeping → exec (.sleepEnd k n) s = .next s) ∧
    (c.st = .sleeping → quiet → exec (.sleepEnd k n) s = .next (put { c with st := c.runState, sleep := 0 })) ∧
    (c.st ≠ .blocked → c.slice.st ≠ .blocked → c.stall ≠ .record → exec (.waitSatisfied k n) s = .next s) ∧
    (∀ t, c.st = .blocked → c.wait = .tileFree t → (s.tile k t).st ≠ .draining → quiet →
      exec (.waitSatisfied k n) s = .next (put { c with st := c.runState, wait := .none })) ∧
    (∀ t, c.st = .blocked → c.slice.st ≠ .blocked → c.stall ≠ .record → c.wait = .tileFree t → (s.tile k t).st = .draining → (s.tile k t).defined = true →
      (s.tile k t).ctx = c.ctx → exec (.waitSatisfied k n) s = .next s) ∧
    (∀ ld st cp mx cl bx, c.st = .blocked → c.wait = .waitc ld st cp mx cl bx → (∀ o ∈ s.ops, ¬(o.core = k ∧ o.cslot = n ∧ o.slice = false)) → quiet →
      exec (.waitSatisfied k n) s = .next (put { c with st := c.runState, wait := .none, pc := c.pc + 12 })) ∧
    (exitReady s k n = false → exec (.caravanExit k n) s = .next s) ∧
    (exitReady s k n = true → c.party = none → ∃ t, exec (.caravanExit k n) s = .next t ∧ t.cv k n = Caravan.blank ∧
      (∀ o ∈ t.ops, ¬(o.core = k ∧ o.cslot = n)) ∧ ((∀ o ∈ s.ops, o.core = k → o.cslot = n → ∀ x, o.kind ≠ .tst x) → t.mem = s.mem)) ∧
    (leaveReady s k n = false → exec (.partyDeparture k n) s = .next s) ∧
    (leaveReady s k n = true → c.party = none → quiet →
      exec (.partyDeparture k n) s = .next (put { c with st := c.runState, wait := .none, pc := c.pc + 12 })) ∧
    ((s.core k).accq = [] → exec (.accallocGrant k) s = .next s) ∧
    (∀ w rest p, (s.core k).accq = w :: rest →
      (∀ v ∈ w :: rest, ∃ q, (s.cv k v.slot).party = some q ∧ holdsGranules s k q = false) → w.n ≤ (freeGranules s k).length → (s.cv k w.slot).party = some p → zName s k p w.z = none →
      (s.cv k w.slot).mask ≠ 0 → (s.cv k w.slot).pending = false → ∃ t, exec (.accallocGrant k) s = .next t ∧ (t.core k).accq = rest ∧
        (∃ b, zName t k p w.z = some b ∧ b.grans = (freeGranules s k).take w.n) ∧ (t.cv k w.slot).pc = (s.cv k w.slot).pc + 12 ∧
        (t.cv k w.slot).wait = .none ∧ ∀ L, L < (s.cv k w.slot).width → (s.cv k w.slot).mask.getLsbD L = true → ((t.cv k w.slot).pred w.pd).getLsbD L = true) ∧
    (∀ scope, scope ≠ 5 → c.stall = .release scope false → ∃ t, exec (.releaseComplete k n) s = .next t ∧ (t.cv k n).stall = .none ∧ (t.cv k n).pc = c.pc) ∧
    (c.stall = .none → exec (.releaseComplete k n) s = .next s) ∧
    (∃ t, exec (.lineEviction (.l1 k) asid line) s = .next t ∧ ∀ l ∈ (t.core k).l1, ¬(l.asid = asid ∧ l.tag = line)) ∧
    (∃ t, exec (.lineEviction (.l2 n) asid line) s = .next t ∧ ∀ l ∈ (t.die n).l2, l.asid = asid → l.tag = line → l.dirty ≠ 0) ∧
    (∀ q ∈ [(s.ctx k).faultq, (s.ctx k).eventq], q.held = [] ∧ q.waiting = [] ∧ q.ovfDue = false) → (∃ t, exec (.heldRecordRetry k none) s = .next t ∧ t.mem = s.mem ∧
      t.posts = s.posts ∧ t.ctx k = { s.ctx k with faultq := { (s.ctx k).faultq with failing := false },
                                                   eventq := { (s.ctx k).eventq with failing := false } })

/-- Outstanding operations go on by themselves: a served load writes its lanes and retires, a store retires; a copy moves its next unit and, with its last, makes
its tile READY, arrives at its barrier and retires; a CPO's or a block send ends its tile's send; a pushed entry becomes visible with its data
(R87, R90, R264, R311, R314, R321). -/
def Sys2Proof.Claims.OperationEvents : Prop :=
  ∀ (s : State) (o : Op), s.op o.id = some o → o.done = false →
    let c := s.cv o.core o.cslot
    let served := o.todo = [] ∧ o.remote = [] ∧ o.held = []
    let retires := fun (t : State) => ∀ p ∈ t.ops, p.id = o.id → p.done = true
    (¬served → exec (.memoryReply o.id) s = .next s) ∧
    (∀ rd sx, served → o.cls = .LD → c.st ≠ .absent → o.kind = .loadV rd 4 sx → (o.vals.map (·.1)).Nodup → (∀ p ∈ o.vals, p.1 < 1024) →
      ∃ t, exec (.memoryReply o.id) s = .next t ∧ retires t ∧ t.mem = s.mem ∧
        (∀ L x, (L, x) ∈ o.vals → c.gone.getLsbD L = false → (t.cv o.core o.cslot).reg rd L = x.setWidth 32) ∧
        ∀ r L, L < 1024 → (r ≠ rd ∨ L ∉ o.vals.map (·.1)) → (t.cv o.core o.cslot).reg r L = c.reg r L) ∧
    (served → o.cls = .ST → o.kind = .store → ∃ t, exec (.memoryReply o.id) s = .next t ∧ retires t ∧ t.mem = s.mem ∧ t.cvs = s.cvs) ∧
    (∀ q seq w sx y e, served → o.cls = .LD → o.slice = true → c.st ≠ .absent → o.kind = .ldq q seq w sx → c.queues[q]? = some y → e ∈ y.ents → e.seq = seq →
      (∀ p ∈ s.ops, p.core = o.core → p.cslot = o.cslot → p.slice = true → p = o) →
      ∃ t, exec (.queueEntryVisible o.core o.cslot q) s = .next t ∧ retires t ∧
        ∃ z, (t.cv o.core o.cslot).queues[q]? = some z ∧ ∃ e' ∈ z.ents, e'.seq = seq ∧ e'.landed = true) ∧
    ((∀ p ∈ s.ops, p.slice = false) → exec (.queueEntryVisible o.core o.cslot 0) s = .next s) ∧
    (∀ rd w sx, o.kind = .loadV rd w sx → o.id ≠ devOp → (∀ w ∈ s.fab.waits, w.id ≠ o.id) →
      (o.ready = [] → exec (.channelRequest o.id) s = .next s) ∧ (o.ready ≠ [] → exec (.channelRequest o.id) s = .next (s.serveOp o o.ready))) ∧
    (∀ cp, o.kind = .copy cp →
      (s.copyGoes o = false → exec (.copyBytesLand o.id) s = .next s ∧ exec (.copyComplete o.id) s = .next s ∧ exec (.sendComplete o.id) s = .next s) ∧
      (s.copyGoes o = true → cp.pos < cp.total s o → (∀ q b n f r, cp.kind ≠ .cpq q b n f r) → exec (.copyComplete o.id) s = .next s) ∧
      (∀ src dst len, s.copyGoes o = true → cp.kind = .cpl src dst len → len ≤ cp.pos → cp.bar = none →
        ∃ t, exec (.copyComplete o.id) s = .next t ∧ retires t ∧ t.mem = s.mem ∧ t.cvs = s.cvs) ∧
      (∀ n base ext str, s.copyGoes o = true → cp.kind = .cpo n base ext str → cp.total s o ≤ cp.pos → cp.ended = false →
        exec (.sendComplete o.id) s = .next ((s.setTile o.core n (s.tile o.core n).sent).setOp { o with kind := .copy { cp with ended := true } })) ∧
      (∀ src dst len t x t' y, s.copyGoes o = true → cp.kind = .cpl src dst len → cp.pos + 1 = len → cp.pos % 256 = 255 → o.vals = [] →
        s.checkedAccess (engineUser o true) .plain (src + BitVec.ofNat 64 cp.pos) 1 1 .rd = (t, .ok x) →
        t.checkedAccess (engineUser o true) .plain (dst + BitVec.ofNat 64 cp.pos) 1 1 (.wr (BitVec.ofNat 128 x)) = (t', .ok y) →
        exec (.copyBytesLand o.id) s = .next (t'.setOp { o with kind := .copy { cp with pos := cp.pos + 1 } }))) ∧
    (∀ n lossy node tctx base v ct failed, served → o.kind = .sendTile n lossy node tctx base v ct 0 true failed →
      ∃ t, exec (.sendComplete o.id) s = .next t ∧ retires t ∧ t.tile o.core n = (s.tile o.core n).sent ∧ t.mem = s.mem) ∧
    (∀ n lossy node tctx base v ct notify, served → notify ≠ 0 → o.kind = .sendTile n lossy node tctx base v ct notify true none →
      ∃ t, exec (.sendComplete o.id) s = .next t ∧ t.fab.out = s.fab.out ++ [.notifyAdd node tctx.toNat notify] ∧ t.mem = s.mem ∧
        t.tile o.core n = s.tile o.core n ∧ ∀ p ∈ t.ops, p.id = o.id → p.remote ≠ [])

/-- ChannelEvents, CaravanEvents and OperationEvents together. -/
def Obligations.CoresAndChannelsAdvance : Prop :=
  Sys2Proof.Claims.ChannelEvents ∧ Sys2Proof.Claims.CaravanEvents ∧ Sys2Proof.Claims.OperationEvents

/-- A context's life as the front end drives it: a DRAINING context without units, or at the end of D1, is SAVING; at the end of D2 it is RESETTING;
RESETTING ends DEAD; a save that fails resets; a restore that finishes is ACTIVE. Host commands of sources that context 0 does not admit are ignored
(R24 to R28, R35). -/
def Sys2Proof.Claims.ContextEvents : Prop :=
  ∀ (s : State) (c : Nat) (node : BitVec 16) (sctx : BitVec 8) (cmd : BitVec 256),
    let y := s.ctx c
    let units := ∃ p ∈ s.cvs, p.2.ctx = c ∧ p.2.st ≠ .absent
    let keeps := ∀ p ∈ s.chans, p.2.heldBy c = false
    (y.st = .draining → ¬units → keeps → ∃ t, exec (.drained c) s = .next t ∧ (t.ctx c).st = .saving) ∧
    (y.st ≠ .draining ∨ units → exec (.drained c) s = .next s) ∧
    (y.st = .draining → keeps → ∃ t, exec (.d1Expires c) s = .next t ∧ (t.ctx c).st = .saving) ∧
    (y.st ≠ .draining → exec (.d1Expires c) s = .next s) ∧
    (y.st = .draining ∨ y.st = .saving → ∃ t, exec (.d2Expires c) s = .next t ∧ (t.ctx c).st = .resetting ∧ (t.ctx c).cause = .d2) ∧
    (y.st ≠ .draining → y.st ≠ .saving → exec (.d2Expires c) s = .next s) ∧
    (y.st = .resetting → ∃ t, exec (.resetDone c) s = .next t ∧ t.ctx c = { y with st := .dead } ∧ t.mem = s.mem) ∧
    (y.st ≠ .resetting → exec (.resetDone c) s = .next s) ∧
    (y.st ≠ .saving → exec (.saved c) s = .next s ∧ exec (.saveFault c) s = .next s) ∧
    (∀ t, y.st = .saving → ((s.settleContext c).writePrivate c).trySave c = (t, false) → t.want = .nothing → ∃ u, exec (.saveFault c) s = .next u ∧ (u.ctx c).st = .resetting ∧ (u.ctx c).cause = .saveFault) ∧
    (y.st = .saving → saveReady s c = true → exec (.saved c) s = .next (s.save c)) ∧
    (¬(y.st = .saved ∧ y.restoring = true) → exec (.restoreComplete c) s = .next s) ∧
    (y.st = .saved → y.restoring = true → y.image = SaveImage.zero →
      (∀ q ∈ [y.faultq, y.eventq], q.held = [] ∧ q.waiting = [] ∧ q.ovfDue = false) →
      ((List.range 8).foldl (fun s q => s.readKernels c q) ((s.setCtx c { y with st := .active, restoring := false, image := SaveImage.zero }).takeQueues
        (User.device c) c)).want = .nothing →
      ∃ t, exec (.restoreComplete c) s = .next t ∧ (t.ctx c).restoring = false ∧ (t.ctx c).st = .active) ∧
    (let id := 2 ^ 64 + s.nextDev
     let a := ({ s with nextDev := s.nextDev + 1 } : State).admits 0 node sctx .wr
     let x := cmd.toNat
     let u := remoteUser 0 id
     let ends := fun (t : State) => exec (.contextCommand node sctx cmd) s = .next (t.dropAnswers.unwait id)
     (a.2 = false → a.1.want = .nothing → ends a.1) ∧
     (∀ op r, a.2 = true → ctxOpOf (x % 2 ^ 4) = some op → x / 2 ^ 4 % 2 ^ 4 = 0 → x / 2 ^ 16 % 2 ^ 48 = 0 → x / 2 ^ 192 % 2 ^ 64 = 0 →
      r = a.1.ctxop u op (x / 2 ^ 8 % 2 ^ 8) (x / 2 ^ 64 % 2 ^ 64) true → (r.1.answerCommand u cmd r.2).want = .nothing →
      ends (r.1.answerCommand u cmd r.2)))

/-- The front end and the distributors: the producer index is clamped to the ring, the head is read and checked, the admitted kernel takes its shares and its charge,
dependences are read again, placement gives a caravan to a core, a thief takes the upper half of a share, a bin that times out is launched,
two equal waves make a kernel QUIESCENT, its completion retires it, and a control interval clears what was charged (R39 to R54). -/
def Sys2Proof.Claims.FrontEndEvents : Prop :=
  (∀ (s : State) (c q : Nat),
    let x := s.queue c q
    let y := s.ctx c
    (x.open_ = false → exec (.producerIndexObserved c q) s = .next s) ∧
    (∀ t p, x.open_ = true → ctxRuns s c = true → s.feRead c x.prodVa.toNat 8 1 = (t, .inl p) → t.want = .nothing →
      exec (.producerIndexObserved c q) s = .next (t.setLQ c q { t.queue c q with prod := min p (x.cons + 2 ^ x.log2n) }).dropAnswers) ∧
    (x.open_ = false ∨ y.st ≠ .active ∨ (x.consDue = false ∧ (x.headOk = true ∨ x.prod ≤ x.cons)) → exec (.headRead c q) s = .next s) ∧
    (∀ t r code, x.open_ = true → y.st = .active → x.consDue = false → x.headOk = false → x.cons < x.prod →
      s.feRead c (x.base.toNat + 256 * (x.cons % 2 ^ x.log2n)) 16 16 = (t, .inl r) → recordCode (BitVec.ofNat 2048 r) = some code →
      (t.rejectHead c q (LaunchRec.tag (BitVec.ofNat 2048 r)) code).want = .nothing →
      exec (.headRead c q) s = .next (t.rejectHead c q (LaunchRec.tag (BitVec.ofNat 2048 r)) code).dropAnswers) ∧
    (∀ t r, x.open_ = true → y.st = .active → x.consDue = false → x.headOk = false → x.cons < x.prod →
      s.feRead c (x.base.toNat + 256 * (x.cons % 2 ^ x.log2n)) 16 16 = (t, .inl r) → recordCode (BitVec.ofNat 2048 r) = none →
      LaunchRec.nspawn (BitVec.ofNat 2048 r) = 0 → (t.takeHead c q (BitVec.ofNat 2048 r) []).want = .nothing →
      exec (.headRead c q) s = .next (t.takeHead c q (BitVec.ofNat 2048 r) []).dropAnswers) ∧
    (x.open_ = false ∨ x.headOk = false ∨ x.depOk = true ∨ y.st ≠ .active → exec (.dependenceReread c q) s = .next s) ∧
    (∀ t b, x.open_ = true → x.headOk = true → x.depOk = false → y.st = .active → s.readDeps c x.head 4 = (t, .inl b) → t.want = .nothing →
      exec (.dependenceReread c q) s = .next (t.setLQ c q { t.queue c q with depOk := b }).dropAnswers) ∧
    (y.eallot = 0 → bestQueue s c ≠ some q → exec (.admission c q) s = .next s) ∧
    (y.eallot = 0 → bestQueue s c = some q →
      let k := s.newKernel c q
      let charged := y.admittedE + energyCharge (LaunchRec.eclass x.head)
      exec (.admission c q) s =
        .next ((s.setCtx c { y with kernels := y.kernels ++ [k], admittedAny := true, admittedE := charged }).popHead c q) ∧
      k.st = .admitted ∧ k.kid = { ctx := c, q := q, idx := x.cons } ∧ k.record = x.head ∧
      ∀ d, d < 8 → sget Share.none k.shares d = { p := d, cursor := 0, limit := k.caravans }) ∧
    (∃ t, exec .controlIntervalBoundary s = .next t ∧ t.mem = s.mem ∧ t.cvs = s.cvs ∧
      ∀ p ∈ t.ctxs, p.2.energyUse = 0 ∧ p.2.admittedE = 0 ∧ p.2.admittedAny = false)) ∧
  (∀ (s : State) (die bin : Nat),
    (8 ≤ die ∨ s.nextPlacement die = none → exec (.placement die) s = .next s) ∧
    (∀ t, die < 8 → s.nextPlacement die = some t → exec (.placement die) s = .next t) ∧
    (let b := sget Bin.zero (s.die die).bins bin
     (b.items = [] ∨ (s.ctx b.ctx).st ≠ .active → exec (.spawnBinTimeout die bin) s = .next s) ∧
     (∀ k, b.items ≠ [] → (s.ctx b.ctx).st = .active → s.kernel b.kid = some k → k.kid = b.kid → ∃ t sp k', exec (.spawnBinTimeout die bin) s = .next t ∧
       t.kernel b.kid = some k' ∧ k'.pending = k.pending ++ [sp] ∧ sp.items = b.items ∧ sp.e = b.e ∧ sp.die = die ∧
       (sget Bin.zero (t.die die).bins bin).items = []))) ∧
  (∀ (s : State) (kid : KernelId) (k : Kernel) (thief victim src dst count : Nat), s.kernel kid = some k → k.kid = kid →
    let t := sget Share.none k.shares victim
    let g := LaunchRec.cgrp k.record
    let keep := ((t.count + 1) / 2 + 2 ^ g - 1) / 2 ^ g * 2 ^ g
    let sum := fun (l : List (Nat × Nat)) => (l.map (·.2)).sum
    let put := fun (x : Kernel) => s.setKernel x
    (thief = victim ∨ t.count < 2 * 2 ^ g → exec (.stealRequest kid thief victim) s = .next s) ∧
    (thief < 8 → (s.ctx kid.ctx).st = .active → k.steals thief = true → k.victim thief = some victim →
      2 * 2 ^ g ≤ t.count → keep < t.count →
      exec (.stealRequest kid thief victim) s = .next (put { k with
        shares := sset Share.none k.shares victim { t with limit := t.nth keep },
        sent := sset 0 k.sent victim (sget 0 k.sent victim + k.lanesOf { t with cursor := t.nth keep }),
        replies := k.replies ++ [(thief, { t with cursor := t.nth keep })] })) ∧
    ((∀ p ∈ k.replies, p.1 ≠ thief) → exec (.stealReply kid thief) s = .next s) ∧
    (∀ x rest, k.replies = (thief, x) :: rest → exec (.stealReply kid thief) s = .next (put { k with
      shares := sset Share.none k.shares thief x, replies := k.replies.filter (fun p => p.1 ≠ thief),
      recv := sset 0 k.recv thief (sget 0 k.recv thief + k.lanesOf x) })) ∧
    (src < 8 → dst < 8 → count = (sget Share.none k.shares src).count → advertDue (sget 0 k.adverts (8 * dst + src)) count = true →
      exec (.remainingCount kid src dst count) s = .next (put { k with adverts := sset 0 k.adverts (8 * dst + src) count })) ∧
    (count ≠ (sget Share.none k.shares src).count ∨ advertDue (sget 0 k.adverts (8 * dst + src)) count = false →
      exec (.remainingCount kid src dst count) s = .next s) ∧
    (k.st = .quiescent ∨ ctxCompletes s kid.ctx = false ∨ 8 ≤ src ∨ liveCount s k src ≠ 0 → exec (.zeroNotice kid src) s = .next s) ∧
    (k.st = .running → ctxCompletes s kid.ctx = true → src < 8 → allQuiet s k = true →
      exec (.zeroNotice kid src) s = .next (put { k with wave1 := some (k.sent, k.recv) })) ∧
    (k.wave1 = none → exec (.quiescenceWave kid) s = .next s) ∧
    (k.wave1 = some (k.sent, k.recv) → ctxCompletes s kid.ctx = true → allQuiet s k = true → sum k.sent = sum k.recv →
      exec (.quiescenceWave kid) s = .next (put { k with st := .quiescent, wave1 := none })) ∧
    (∀ w, k.wave1 = some w → allQuiet s k = false → exec (.quiescenceWave kid) s = .next (put { k with wave1 := none })) ∧
    (k.st ≠ .quiescent ∨ kernelPerformed s kid = false ∨ completionParked s kid = true ∨ ctxCompletes s kid.ctx = false → exec (.completionAction kid) s = .next s) ∧
    (k.st = .quiescent → kernelPerformed s kid = true → completionParked s kid = false → ctxCompletes s kid.ctx = true →
      fabricPending (s.releaseAll kid.ctx) kid.ctx = false → LaunchRec.incr k.record = false →
      ∃ u, exec (.completionAction kid) s = .next u ∧ u.kernel kid = none))

/-- ContextEvents and FrontEndEvents together. -/
def Obligations.KernelsArePlacedAndSaved : Prop :=
  Sys2Proof.Claims.ContextEvents ∧ Sys2Proof.Claims.FrontEndEvents

/-! ## The instruction word (chapter 09) -/

/-- R211, R221: at issue the checks act in their order: an illegal word or one that the agent may not execute is
ILLEGAL_ENCODING; then PRIVILEGE; then the register, queue and role limits are RESOURCE. What passes them under a guard
that lets nothing take part only advances; a word that no instruction has is ILLEGAL_ENCODING. -/
def Obligations.ChecksActInOrder : Prop :=
  ∀ (i : Instr) (opc : Nat) (f : Fields) (w : BitVec 96) (s : State),
    (exec (.illegalWord w) s = .next (stops s .illegalEncoding)) ∧
    (coreParts i = some (opc, f) →
      (admitted s i f = false → exec i s = .next (s.raiseCv .illegalEncoding)) ∧
      (admitted s i f = true → privileged i = true → s.myCtx.priv = false → exec i s = .next (s.raiseCv .privilege)) ∧
      (admitted s i f = true → (privileged i = true → s.myCtx.priv = true) →
        (limitsOk s i f = false → exec i s = .next (s.raiseCv .resource)) ∧
        (limitsOk s i f = true → guardedOff s i f = true → exec i s = .next (goesOn s))))

/-- R68, R89, R215, R217: the limits of check 7: a V register below the caravan's count, a queue below NQ, a role that the
launch binds, no cross-word permutation with a single mask word. -/
def Sys2Proof.Claims.OperandLimits : Prop :=
  ∀ (s : State) (r : BitVec 8) (p u : BitVec 4) (q : BitVec 3) (n : BitVec 6) (t : BitVec 7) (x : BitVec 16),
    (operandFits s (.v r p u) = decide (r.toNat < s.me.nregs ∧ (p = 14 → s.me.width ≠ 32))) ∧
    (operandFits s (.role q t) = decide ((s.role s.me q.toNat).1 ≠ 0)) ∧
    (operandFits s (.queue q) = decide (q.toNat < s.me.nq)) ∧
    (operandFits s (.s n) = true) ∧ (operandFits s (.imm x) = true) ∧ (operandFits s (.pred n) = true)

/-- R216: an immediate is the same for every lane: sign-extended to the operand width, or zero-extended where the entry
reads it so, or OPA and OPB together as 32 bits. -/
def Obligations.ImmediatesAreExtended : Prop :=
  ∀ (s : State) (ty : SrcTy) (x y : BitVec 16) (L : Nat),
    ((s.src32 ty false (.imm x) L).toInt = x.toInt) ∧ ((s.src64 false (.imm x) L).toInt = x.toInt) ∧
    ((s.src32 ty true (.imm x) L).toNat = x.toNat) ∧ ((s.src64 true (.imm x) L).toNat = x.toNat) ∧
    ((s.srcS false (.imm x)).toInt = x.toInt) ∧ ((s.srcS true (.imm x)).toNat = x.toNat) ∧
    ((imm32 (.imm x) (.imm y)).toNat = (x.toNat ||| y.toNat <<< 16)) ∧
    (∀ f : Fields, legal (.movi f) = true ∨ legal (.smovi f) = true → ∃ x y, f.a = .imm x ∧ f.b = .imm y)

/-- R214, R217, R218, R229: a V source is the register of the lane that the permutation names, with HALF, ABS and NEG
applied in that order; an S source is its low half, or whole; a pair is permuted alike. -/
def Sys2Proof.Claims.SourcesAreRead : Prop :=
  ∀ (s : State) (ty : SrcTy) (z : Bool) (r : BitVec 8) (p u : BitVec 4) (n : BitVec 6) (L : Nat) (x : W32) (y : W64),
    let low := lowest s.me.width s.me.mask
    let from_ := permLane p.toNat L low
    (s.src32 ty z (.v r p u) L = subMod32 ty u (s.me.reg r.toNat from_)) ∧
    (s.src64 z (.v r p u) L = subMod64 u (s.me.reg (r.toNat + 1) from_ ++ s.me.reg r.toNat from_)) ∧
    (s.src32 ty z (.s n) L = (s.sreg n.toNat).extractLsb' 0 32) ∧ (s.src64 z (.s n) L = s.sreg n.toNat) ∧
    (permLane 0 L low = L) ∧
    (∀ k, 1 ≤ k → k ≤ 5 → permLane k L low = 32 * (L / 32) + ((L % 32) ^^^ 2 ^ (k - 1))) ∧
    (∀ k, 6 ≤ k → k ≤ 8 → permLane k L low = 32 * (L / 32) + 8 * (L % 32 / 8) + (L % 32 + 2 ^ (k - 6)) % 8) ∧
    (permLane 9 L low = 32 * (L / 32) + 31 - L % 32) ∧
    (permLane 10 L low = 32 * (L / 32) + 8 * (L % 32 / 8) + 7 - L % 8) ∧
    (permLane 11 L low = 32 * (L / 32)) ∧ (permLane 12 L low = 8 * (L / 8)) ∧ (permLane 13 L low = low) ∧
    (permLane 14 L low = 32 * ((L / 32) ^^^ 1) + L % 32) ∧
    (subMod32 ty u x = subMod32 ty (u &&& 1) (subMod32 ty (u &&& 2) (subMod32 ty (u &&& 12) x))) ∧
    (∀ i, i < 32 → (subMod32 ty 4 x).getLsbD i = x.getLsbD (i % 16) ∧ (subMod32 ty 8 x).getLsbD i = x.getLsbD (16 + i % 16)) ∧
    (∀ i, i < 32 → (subMod32 .fp32 2 x).getLsbD i = (x.getLsbD i && i ≠ 31) ∧
      (subMod32 .fp32 1 x).getLsbD i = (x.getLsbD i ^^ i = 31) ∧
      (subMod32 .fp16 2 x).getLsbD i = (x.getLsbD i && i % 16 ≠ 15) ∧
      (subMod32 .fp16 1 x).getLsbD i = (x.getLsbD i ^^ i % 16 = 15)) ∧
    (subMod32 .int 2 x = BitVec.ofInt 32 (x.toInt.natAbs : Int)) ∧ (subMod32 .int 1 x = BitVec.ofInt 32 (-x.toInt)) ∧
    (subMod64 u y = (if u.getLsbD 0 then fun b => b ^^^ 1#64 <<< 63 else id)
      (if u.getLsbD 1 then y &&& ~~~(1#64 <<< 63) else y))

/-- OperandLimits and SourcesAreRead together. -/
def Obligations.OperandsAreRead : Prop :=
  Sys2Proof.Claims.OperandLimits ∧ Sys2Proof.Claims.SourcesAreRead

/-- A few words of the spec's own listings decode to the instructions that they stand for (R209, R210, R213, R219, R139).
A sanity statement. -/
def Obligations.WordsDecode : Prop :=
  (decodeTableWord 96 0x0000000000000000_0000FC00 =
    some (.nop { g := ⟨63, false⟩, h := ⟨0, false, 0, 0⟩, d := .v 0 0 0, a := .v 0 0 0, b := .v 0 0 0, m := 0 })) ∧
  (decodeTableWord 96 0x00010020_0C040004_34040C80 = some (.fadd
    { g := ⟨3, false⟩, h := ⟨1, true, 2, 2⟩, d := .v 4 0 0, a := .v 1 3 0, b := .v 2 0 1, m := 0 })) ∧
  (decodeTableWord 96 0x68400000_00080009_0000FC98 = some (.cvt
    { g := ⟨63, false⟩, h := ⟨0, false, 0, 0⟩, d := .v 9 0 0, a := .v 2 0 0, b := .v 0 0 0, m := 417 })) ∧
  (decodeTableWord 96 0x98100084_000B2004_0000FDC6 = some (.cpt
    { g := ⟨63, false⟩, h := ⟨0, false, 0, 0⟩, d := .tile 4, a := .s 2, b := .s 8, m := 608 })) ∧
  (decodeTableWord 96 0x00F2001C_80033002_0000FE04 = some (.msl
    { g := ⟨63, false⟩, h := ⟨0, false, 0, 0⟩, d := .acc 2, a := .tile 0, b := .tile 1, m := 3 })) ∧
  (decodeTableWord 32 0x44000507 = some (.rdw 5 7)) ∧ (decodeTableWord 32 0x64000000 = some .halt) ∧
  (decodeTableWord 96 0x0000000000000000_0000FF40 = none) ∧ (decodeTableWord 32 0x6C000000 = none)

/-- R209 to R222: every core instruction that the checks of R221 call legal is read back from its word, with every field;
XMODE's five rows share one word. And every word that decodes is the word of what it decodes to, so that no bit of it is
dropped. -/
def Sys2Proof.Claims.CoreWordsRoundTrip : Prop :=
  (∀ (i : Instr) (opc : Nat) (f : Fields), coreParts i = some (opc, f) → legal i = true →
    encode i = some (.core (encodeFields opc f)) ∧ decodeCore (encodeFields opc f) = .ok (canonical i)) ∧
  (∀ (w : BitVec 96) (i : Instr), decodeCore w = .ok i → legal i = true ∧ encode i = some (.core w))

/-- R139, R140: the same of executor words. -/
def Sys2Proof.Claims.ExecutorWordsRoundTrip : Prop :=
  (∀ (i : Instr) (w : BitVec 32), encode i = some (.executor w) → legal i = true → decodeExecutor w = .ok i) ∧
  (∀ (w : BitVec 32) (i : Instr), decodeExecutor w = .ok i → legal i = true ∧ encode i = some (.executor w))

/-- CoreWordsRoundTrip and ExecutorWordsRoundTrip together. -/
def Obligations.WordsRoundTrip : Prop :=
  Sys2Proof.Claims.CoreWordsRoundTrip ∧ Sys2Proof.Claims.ExecutorWordsRoundTrip

/-- R209, R139 and log 1: when the agent whose turn it is fetches a word, the step is exec of the instruction that the word
decodes to, at the state that the fetch leaves; the word is three little-endian words read at PC, PC + 4 and PC + 8. An
executor's step is exec of its program word. A step of the device that stands in the agenda is exec of it. -/
def Obligations.StepRunsDecodedInstruction : Prop :=
  ∀ (s t u : State) (k n : Nat) (b : Bool) (i : Instr) (r : List Turn) (w : BitVec 96),
    let s' := { s with clock := s.clock + 1, want := .nothing }
    (s.posts = [] → s.advOpen = none → s.agenda = .unit k b :: r → { s' with agenda := r }.takeTurn k b = some t →
      t.fetch = (u, some w) → step s = exec (u.decoded w) u) ∧
    (s.posts = [] → s.advOpen = none → s.agenda = [] → s'.due = none → s'.nextTurn = some t →
      t.fetch = (u, some w) → step s = exec (u.decoded w) u) ∧
    (∀ rest, decodeBytes (toBytes 12 w.toNat) = .ok (i, rest) → (∀ f, i ≠ .xmodeOtherWord f) → s.decoded w = i) ∧
    (∀ x, decodeBytes (toBytes 12 w.toNat) = .error x → s.decoded w = .illegalWord w) ∧
    (decodeBytes (toBytes 12 w.toNat) = (decodeCore w).map (fun i => (i, []))) ∧
    (let v := t.dropFetch
      let a := serve v { v.user v.nextOp with fetch := true } false [] [[v.fetchReq 0], [v.fetchReq 1], [v.fetchReq 2]];
      t.fetchOp = none → a.causes = [] → a.parks = [] → a.todo = [] → a.remote = [] → t.fetch = (a.s, some (wordOf a.vals))) ∧
    (∀ j, t.fetchReq j = { lane := j, va := t.pc + BitVec.ofNat 64 (4 * j), w := 4, home := false, sys := false, deep := false,
                           priv := false, off := 0, strong := false, fill := false, act := .rd }) ∧
    (∀ x y z : BitVec 128, wordOf [(0, x), (1, y), (2, z)] =
      z.extractLsb' 0 32 ++ y.extractLsb' 0 32 ++ x.extractLsb' 0 32) ∧
    (∀ (ch : Nat) (todo : List Nat), s.posts = [] → s.advOpen = some ch → s.advTodo = n :: todo →
      let x := { s' with bank := n, advTodo := todo }
      let p : W32 := sget 0 (s.chan (bankChan n)).prog (s.executor n).pc.toNat
      (decodeExecutor p = .ok i → step s = exec i x) ∧
      (∀ e, decodeExecutor p = .error e → step s = .next (x.exFault 1 0 0))) ∧
    (s.posts = [] → s.advOpen = none → s.agenda = .input i :: r → isStep i = true → step s = exec i { s' with agenda := r })

/-- The model has no stop: every step is a next state (no instruction of the spec stops the machine). -/
def Obligations.EveryStepGoesOn : Prop := ∀ s : State, ∃ t, step s = .next t

/-- Memory stays in its canonical form under every step: addresses rise, and no entry equals what an unlisted address reads
as. -/
def Obligations.StepKeepsMemoryCanonical : Prop :=
  ∀ s t : State, Memory.wf s.mem = true → step s = .next t → Memory.wf t.mem = true

/-- The machine after device reset: no bring-up step done (R377), every context FREE (R16, R30), every port DOWN (R145),
channel NORMAL (R132) and energy counter 0 (R370), every source's next event number 0 (R372), H 0xFFFF_FFFF for every source
(R152), no caravan, nothing outstanding, memory canonical with nothing listed (the model's choice of what it then reads as:
logs 2 and 3). -/
def Obligations.ResetState : Prop :=
  let s := State.reset
  (s.dev.step = 0) ∧ (Memory.wf s.mem = true) ∧ (s.ops = []) ∧ (s.parks = []) ∧ (s.posts = []) ∧ (s.fab.out = []) ∧
  (∀ c, (s.ctx c).st = .free) ∧ (∀ p, (s.port p).st = .down) ∧ (∀ ch, (s.chan ch).mode = .normal) ∧
  (∀ k n, (s.cv k n).st = .absent) ∧ (∀ n, (s.executor n).st = .idle) ∧ (∀ d, d < 8 → s.dev.energy[d]? = some 0) ∧
  (∀ src, sget 0 s.dev.evSeq src = 0) ∧ (∀ src xfer, xferAhead s src xfer = xfer - 0xFFFFFFFF) ∧ (∀ a, mget s.mem a = 0)

/-! ## Every instruction completes -/

/-- Each of these completes lane by lane, on the same checks as its result: IADD ISUB IMUL IMULH IMAD IMIN IMAX IABS IADDC ISUBB SHL SHR
SAR ROTL AND OR XOR ANDN NOT TTAB BFE BFI POPC CLZ BREV PRMT ISET IADD64 IMAD64 SEL MOV MOVI, FADD FMUL FFMA FMIN FMAX FSET FRCP FRSQ
FSQRT FEX2 FLG2 FRND FSCL FCLASS DADD DMUL DFMA DMIN DMAX DSET PKADD PKMUL PKFMA PKSET CVT CVT.SI CVTDX, PLOP PMOV BALLOT VOTE LANEID
SHFL REDUX SCAN MATCH FIRST, VMASK VRSC MSV and PRF. The next state has the PC after it, the registers from the destination on, at most
three, written in the lanes that take part (CVTDX's second one in whole words), one predicate in those lanes, and flags only raised;
memory, S registers, mask, stack, trap record and every other part of the machine are as before (R167, R211, R218, R221, R239 to R262,
R324, R325). -/
def Obligations.LaneFormsComplete : Prop :=
  ∀ (s : State) (f : Fields),
    ∀ i ∈ [Instr.iadd f, .isub f, .imul f, .imulh f, .imad f, .imin f, .imax f, .iabs f, .iaddc f, .isubb f, .shl f, .shr f, .sar f,
        .rotl f, .andI f, .orI f, .xorI f, .andn f, .notI f, .ttab f, .bfe f, .bfi f, .popc f, .clz f, .brev f, .prmt f, .iset f,
        .iadd64 f, .imad64 f, .sel f, .mov f, .movi f,
        .fadd f, .fmul f, .ffma f, .fmin f, .fmax f, .fset f, .frcp f, .frsq f, .fsqrt f, .fex2 f, .flg2 f, .frnd f, .fscl f, .fclass f,
        .dadd f, .dmul f, .dfma f, .dmin f, .dmax f, .dset f, .pkadd f, .pkmul f, .pkfma f, .pkset f, .cvt f, .cvtsi f, .cvtdx f,
        .plop f, .pmov f, .ballot f, .vote f, .laneid f, .shfl f, .redux f, .scan f, .matchLanes f, .firstLane f,
        .vmask f, .vrsc f, .msv f, .prf f],
      LaneRuns i f s →
        ∃ t, exec i s = .next t ∧ OnlyMe s t ∧ t.me.pc = s.me.pc + 12 ∧
          { t.me with win := s.me.win, slots := s.me.slots, swr := s.me.swr, preds := s.me.preds, flags := s.me.flags, pc := s.me.pc } =
            s.me ∧
          (∀ r L, L < 1024 → (r < f.d.vreg ∨ f.d.vreg + 3 ≤ r) → t.me.reg r L = s.me.reg r L) ∧
          (∀ r L, L < 1024 → (s.part f).getLsbD L = false → (i = .cvtdx f → r ≠ f.d.vreg + 1) → t.me.reg r L = s.me.reg r L) ∧
          (∀ n, n ≠ f.d.pnum → n ≠ modBits f.m 0 6 → t.me.pred n = s.me.pred n) ∧
          (∀ n L, (s.part f).getLsbD L = false → (t.me.pred n).getLsbD L = (s.me.pred n).getLsbD L) ∧
          ∃ fl, t.me.flags = s.me.flags ||| fl

/-- Each of these completes for its agent where the checks of its entry pass, and the agent goes on with the lanes, the state and the
handler that it had: NOP BRA BRX BRANY BRALL CALL RET RECONV EXIT YIELD SLEEP TRAP BRK MSKGET MSKSET, SMOV SMOVI SADD SSUB SMUL SAND SOR SXOR
SSHL SSHR SSET SSEL SLD SST S2V V2S, LD ST LDL STL LDW STW LDR ATOM RED CAS MDLD MDST CCTL LDQ REGION, FENCE REL ACQ WAITC MARK BARINIT BARARV
BAREXP BARWAIT BARTEST JOIN LEAVE PARTYQ SPAWN TERMQ ACCALLOC ACCFREE, TDEF TFREE TSTAT TLD TST CPL CPT CPQ CPO QCLOSE QSTAT QPUSH AFOR AEND
AWAIT, MMA MMAS MMX MSCA MSL MZERO MLDA MCVT MSTAT. An access, a copy and a matrix operation are then outstanding (R73, R196, R211, R221,
R230 to R286, R294, R308 to R317). -/
def Obligations.AgentFormsComplete : Prop :=
  ∀ (s : State) (f : Fields),
    let goes := fun (i : Instr) => ∃ t, exec i s = .next t ∧ WentOn s t
    let leaves := fun (i : Instr) (c : Cls) => ∃ t, exec i s = .next t ∧ WentOn s t ∧ LeftOp s t c
    let goesTo := fun (i : Instr) (pc : W64) => ∃ t, exec i s = .next t ∧ t.me.pc = pc ∧ t.me.st = s.me.st ∧ t.me.mask = s.me.mask ∧
      t.mem = s.mem
    let c := s.me
    let k := s.cur.core
    let w := 2 ^ modBits f.m 0 3
    let ls := (List.range c.width).filter (fun L => (s.part f).getLsbD L)
    -- control
    (OnceRuns (.nop f) f s → goes (.nop f)) ∧
    (let taken := s.condMask f.d f.m
     let tgt := s.relTarget f.a
     (AgentRuns (.bra f) f s → modBits f.m 1 1 = 1 → ∃ t, exec (.bra f) s = .next t ∧ t.pc = tgt) ∧
     (OnceRuns (.bra f) f s → modBits f.m 1 1 = 0 → taken = c.mask → goesTo (.bra f) tgt) ∧
     (OnceRuns (.bra f) f s → modBits f.m 1 1 = 0 → taken ≠ c.mask → taken = 0 → goesTo (.bra f) (c.pc + 12)) ∧
     (OnceRuns (.bra f) f s → modBits f.m 1 1 = 0 → taken ≠ c.mask → taken ≠ 0 → c.depth < 16 →
       ∃ t, exec (.bra f) s = .next t ∧ t.me.pc = tgt ∧ t.me.mask = taken ∧ t.me.depth = c.depth + 1) ∧
     (OnceRuns (.brany f) f s → goesTo (.brany f) (if taken ≠ 0 then tgt else c.pc + 12)) ∧
     (OnceRuns (.brall f) f s → goesTo (.brall f) (if taken = c.mask then tgt else c.pc + 12))) ∧
    (let x := s.sreg f.a.sreg &&& ~~~(3 : W64)
     x.toNat < 2 ^ 57 → (∀ i ∈ [Instr.brx f, .ret f], OnceRuns i f s → goesTo i x) ∧
       (OnceRuns (.call f) f s → f.a.isS = true → goesTo (.call f) x)) ∧
    (OnceRuns (.call f) f s → f.a.isS = false → goesTo (.call f) (s.relTarget f.a)) ∧
    (OnceRuns (.reconv f) f s → (c.depth ≤ c.floor ∨ (c.entry (2 * (c.depth - 1))).pc ≠ c.pc) → goes (.reconv f)) ∧
    (OnceRuns (.exitI f) f s → c.trap.taken = false →
      let out := if modBits f.m 1 1 = 1 then s.condMask f.a f.m else c.mask
      c.mask &&& ~~~out ≠ 0 → ∃ t, exec (.exitI f) s = .next t ∧ t.me.mask = c.mask &&& ~~~out ∧ t.me.gone = c.gone ||| out ∧
        t.me.pc = c.pc + 12) ∧
    (∀ i ∈ [Instr.yield f, .mskget f], OnceRuns i f s → goes i) ∧
    (OnceRuns (.sleep f) f s → ∃ t, exec (.sleep f) s = .next t ∧ t.me.pc = c.pc + 12 ∧
      (if s.srcS true f.a = 0 then t.me.yielding = true else t.me.st = .sleeping)) ∧
    (OnceRuns (.mskset f) f s → maskWord c.mask f.b.immU ((s.sreg f.a.sreg).extractLsb' 0 32) ≠ 0 →
      ∃ t, exec (.mskset f) s = .next t ∧ t.me.pc = c.pc + 12 ∧
        t.me.mask = maskWord c.mask f.b.immU ((s.sreg f.a.sreg).extractLsb' 0 32)) ∧
    (∀ p ∈ [(Instr.trap f, CvCause.software), (.brk f, .breakpoint)], OnceRuns p.1 f s → c.trap.taken = false →
      s.myCtx.trapbase ≠ 0 → s.myCtx.privarea ≠ 0 →
      RecordPasses (s.setMe (inHandler s (trapFilled s p.2 (s.pc + 12) (BitVec.ofNat 16 f.a.immU)))) →
      ∃ t, exec p.1 s = .next t ∧ t.me.pc = s.myCtx.trapbase ∧ t.me.st = .trapped ∧ t.me.trap.rpc = c.pc + 12 ∧
        t.me.trap.ccause = BitVec.ofNat 8 p.2.code) ∧
    -- scalar
    (∀ i ∈ [Instr.smov f, .smovi f, .sadd f, .ssub f, .smul f, .sand f, .sor f, .sxor f, .sshl f, .sshr f, .sset f, .ssel f],
      AgentRuns i f s → ∃ t x, exec i s = .next t ∧ WroteS s t f.d.sreg x) ∧
    (OnceRuns (.s2v f) f s → goes (.s2v f)) ∧
    (OnceRuns (.v2s f) f s → f.m ≠ 0 ∨ f.b.immU < c.width → goes (.v2s f)) ∧
    (∀ p ∈ [(Instr.sld f, Cls.LD, Act.rd), (.sst f, .ST, .wr ((s.sreg f.d.sreg).setWidth 128))], AgentRuns p.1 f s →
      (∃ x, (s.perform (s.user s.nextOp) (mkReq s.lowLane (s.sreg f.a.sreg + BitVec.ofInt 64 f.b.immS) (2 ^ modBits f.m 6 3) p.2.2)).2 =
        .ok x) → leaves p.1 p.2.1) ∧
    -- memory
    (let each := fun (wd : Nat) (act : Nat → Act) => ls.map (fun L => [mkReq L (s.laneVa f L) wd (act L)])
     let ldst := fun (act : Nat → Act) => ls.map (fun L => [ldstReq f L (s.laneVa f L) w (act L)])
     let loadV := fun (wd : Nat) (sx : Bool) => OpKind.loadV f.d.vreg wd sx
     let sx := decide (modBits f.m 9 1 = 1)
     let s1 := if modBits f.m 5 1 = 1 then s.strongStore else s
     let priv := fun (act : Nat → Nat → Act) => ls.map (fun L => s.privReqs w (s.laneOff f L) L (act L))
     let good := ∀ L ∈ ls, s.laneOff f L % w = 0 ∧ s.laneOff f L + w ≤ 4096 ∧ s.myCtx.privarea ≠ 0
     let win := fun (act : Nat → Act) => ls.map (fun L =>
       [mkReq L (s.myCtx.winarea + BitVec.ofNat 64 (2 ^ 22 * modBits f.m 6 3 + s.laneOff f L)) w (act L)])
     let part4 := fun (L j : Nat) => Act.wr (if w ≤ 4 then s.laneValue f.d.vreg w L
       else (s.laneValue f.d.vreg w L >>> (32 * j)) &&& 0xFFFFFFFF)
     (LaneRuns (.ld f) f s → Passes s (loadV w sx) (ldst (fun _ => .rd)) → leaves (.ld f) .LD) ∧
     (LaneRuns (.st f) f s → Passes s1 .store (ldst (fun L => .wr (s.laneValue f.d.vreg w L))) → leaves (.st f) .ST) ∧
     (LaneRuns (.ldl f) f s → good → Passes s (loadV w sx) (priv (fun _ _ => .rd)) → leaves (.ldl f) .LD) ∧
     (LaneRuns (.stl f) f s → good → Passes s .store (priv part4) → leaves (.stl f) .ST) ∧
     (LaneRuns (.ldw f) f s → s.myCtx.winarea ≠ 0 → Passes s (loadV w sx) (win (fun _ => .rd)) → leaves (.ldw f) .LD) ∧
     (LaneRuns (.stw f) f s → s.myCtx.winarea ≠ 0 → Passes s .store (win (fun L => .wr (s.laneValue f.d.vreg w L))) → leaves (.stw f) .ST) ∧
     (LaneRuns (.ldr f) f s → Passes s (.loadR f.d.vreg w sx (s.part f))
       [[mkReq (lowest c.width (s.part f)) (s.sreg f.a.sreg + BitVec.ofInt 64 f.b.immS) w .rd]] → leaves (.ldr f) .LD) ∧
     (LaneRuns (.mdld f) f s → Passes s (loadV 4 false) (each 4 (fun _ => .mdrd)) → leaves (.mdld f) .LD) ∧
     (LaneRuns (.mdst f) f s → Passes s .store (each 4 (fun L => .mdwr (s.me.reg f.d.vreg L))) → leaves (.mdst f) .ST) ∧
     (LaneRuns (.cctl f) f s → (∀ L ∈ ls, (s.laneVa f L).toNat < 2 ^ 57) → leaves (.cctl f) .ST)) ∧
    (let t := modBits f.m 0 2
     let wa := if t ≥ 2 then 8 else 4
     let scope := modBits f.m 5 3
     let r := s.release scope none
     let s0 := (if modBits f.m 8 2 ≥ 2 then r else s).strongStore
     let ready := modBits f.m 8 2 ≥ 2 → s.memPending = false ∧ (scope = 5 → fabricPending r c.ctx = false)
     let each := fun (act : Nat → Act) => ls.map (fun L => [mkStrong L (s.laneBase f L) wa scope (act L)])
     let rmw := fun (L : Nat) => Act.rmw (modBits f.m 2 3) t (s.atomValue f f.b L) none
     let cas := fun (L : Nat) => Act.rmw 6 t (s.atomValue f f.b L) (some (s.atomOld f L))
     (LaneRuns (.atom f) f s → ready → Passes s0 (.loadV f.d.vreg wa false) (each rmw) → goes (.atom f)) ∧
     (LaneRuns (.red f) f s → ready → Passes s0 .store (each rmw) → goes (.red f)) ∧
     (LaneRuns (.cas f) f s → ready → Passes s0 (.loadV f.d.vreg wa false) (each cas) → goes (.cas f))) ∧
    (SliceRuns (.ldq f) f s →
      let q := s.queueOf f.d.qNum
      q.closed = false → q.ents.length < c.qdepth →
      Passes s (.ldq f.d.qNum q.nextSeq w (decide (modBits f.m 9 1 = 1))) ((List.range c.width).map (fun L =>
        [mkReq L (s.sreg f.a.sreg + BitVec.ofInt 64 f.b.immS + BitVec.ofNat 64 (w * L)) w .rd])) → leaves (.ldq f) .LD) ∧
    (OnceRuns (.region f) f s → goes (.region f)) ∧
    -- ordering, barriers, parties, granules
    (let scope := modBits f.m 6 3
     let bare := modBits f.m 9 1 = 0
     let deepOk := fun (x : Operand) (rel : Bool) => scope < 6 ∨ ∃ d, deepScope s c.ctx k (decide (scope = 7)) (s.sreg x.sreg) = some d ∧
       (rel = true → deepLeft (s.release scope (some d)) (some d) = false)
     (OnceRuns (.fence f) f s → modBits f.m 0 2 ≠ 1 → s.memPending = false → deepOk f.a true → goes (.fence f)) ∧
     (OnceRuns (.fence f) f s → modBits f.m 0 2 = 1 → s.readPending = false → deepOk f.a false → goes (.fence f)) ∧
     (OnceRuns (.rel f) f s → bare → s.memPending = false → deepOk f.b true → goes (.rel f)) ∧
     (OnceRuns (.acq f) f s → bare → s.readPending = false → deepOk f.b false → goes (.acq f))) ∧
    (AgentRuns (.waitc f) f s → s.waitcMet k s.cur.slot s.cur.slice (waitcOf f) = true → goes (.waitc f)) ∧
    (OnceRuns (.mark f) f s → modBits f.m 9 1 = 0 ∨ c.party = none → goes (.mark f)) ∧
    (∀ pk pe, c.party = some (pk, pe) → 16 * f.a.immU + 16 ≤ 256 * (s.party pk pe).scrSize →
      let b := f.a.immU
      let x := barrierOf s pk pe b
      let q := (s.srcS true f.b).getLsbD 0
      let n := (s.srcS true f.b).toNat + (if modBits f.m 9 1 = 1 then (s.party pk pe).joined else 0)
      let on := s.setMe { c with pc := c.pc + 12 }
      (OnceRuns (.barinit f) f s → Bar.init x = 0 ∨ (Bar.pend x = Bar.init x ∧ Bar.due x = 0) → 0 < n → n ≤ 65535 → goes (.barinit f)) ∧
      (OnceRuns (.barexp f) f s → Bar.init x ≠ 0 → exec (.barexp f) s =
        .next ((on.putBarrier pk pe b (Bar.addDue x (s.srcS true f.b).toInt)).settle k s.cur.slot)) ∧
      (OnceRuns (.bararv f) f s → s.memPending = false → exec (.bararv f) s =
        .next ((((s.release 1 none).setMe { c with pc := c.pc + 12 }).arrive pk pe b 0).settle k s.cur.slot)) ∧
      (OnceRuns (.barwait f) f s → Bar.err x = false → Bar.init x ≠ 0 → c.pending = false → Bar.phase x ≠ q → goes (.barwait f)) ∧
      (OnceRuns (.bartest f) f s → Bar.err x = false → Bar.init x ≠ 0 → goes (.bartest f))) ∧
    (let key := s.sreg f.a.sreg
     OnceRuns (.join f) f s → c.party = none → key ≠ 0 →
      (∀ pk pe, findParty s k c.ctx key = some (pk, pe) → (s.party pk pe).st = .forming →
        ∃ t, exec (.join f) s = .next t ∧ t.me.party = some (pk, pe) ∧ t.me.pc = c.pc + 12 ∧ t.me.mask = c.mask)) ∧
    (OnceRuns (.leave f) f s → c.party = none → goes (.leave f)) ∧
    (OnceRuns (.leave f) f s → c.party ≠ none →
      (∀ o ∈ s.ops, o.core = k → o.cslot = s.cur.slot → o.slice = false → o.cls ≠ .CP ∧ o.cls ≠ .MX ∧ o.cls ≠ .CL) →
      exec (.leave f) s = .next (((s.setMe { c with pc := c.pc + 12 }).leaveParty k s.cur.slot).settle k s.cur.slot)) ∧
    (OnceRuns (.partyq f) f s → ∃ t x, exec (.partyq f) s = .next t ∧ WroteS s t f.d.sreg x) ∧
    (∀ y, LaneRuns (.spawn f) f s → s.kernel c.kid = some y → (s.srcS true f.a).toNat < y.nspawn →
      let e := (s.srcS true f.a).toNat
      let d := dieOfCore k
      spawnWaits s d c.kid (y.spawn.getD e 0) ls.length = false → s.memPending = false → exec (.spawn f) s = .next
        (((ls.map (fun L => s.src64 false f.b L)).foldl (fun t x => t.appendItem d c.kid e (y.spawn.getD e 0) x) (s.release 4 none)).setMe
          { c with pc := c.pc + 12 })) ∧
    (OnceRuns (.termq f) f s → goes (.termq f)) ∧
    (∀ p, c.party = some p →
      let n := (s.srcS true f.b).toNat
      (OnceRuns (.accalloc f) f s → 0 < n → n ≤ 32 → zName s k p f.a.zNum = none →
        n ≤ (freeGranules s k).length ∨ holdsGranules s k p = true → goes (.accalloc f)) ∧
      (OnceRuns (.accfree f) f s → zName s k p f.a.zNum ≠ none → zInUse s k p f.a.zNum = false → goes (.accfree f))) ∧
    -- tiles, copies, queues and the access engine
    (let x := s.tile k f.d.tileNum
     let z := s.tile k f.a.tileNum
     let own := fun (y : Tile) => y.defined = true ∧ y.ctx = c.ctx
     let words := (x.bytes + 4 * c.width - 1) / (4 * c.width)
     let code := match x.st with
       | .empty => 0
       | .filling => 1
       | .ready => 2
       | .draining => 3
     (AgentRuns (.tfree f) f s → own x → tileHeld s k f.d.tileNum = false → x.st = .empty ∨ x.st = .ready → goes (.tfree f)) ∧
     (OnceRuns (.tstat f) f s → ∃ t y, exec (.tstat f) s = .next t ∧ WroteS s t f.d.sreg y) ∧
     (LaneRuns (.tld f) f s → own z → z.st = .ready → z.err = false →
       (∀ L ∈ ls, 4 * (c.width * (s.srcS true f.b).toNat + L) + 4 ≤ z.bytes) → leaves (.tld f) .LD) ∧
     (LaneRuns (.tst f) f s → own x → tileHeld s k f.d.tileNum = false → x.st = .empty → f.a.vreg + words ≤ c.nregs → leaves (.tst f) .ST) ∧
     (SliceRuns (.await f) f s → own x → code = f.a.immU → goes (.await f)) ∧
     (let desc := (s.sreg f.a.sreg).toNat
      let base := desc % 2 ^ 14
      let fmt := desc / 2 ^ 14 % 2 ^ 4
      let pitch := desc / 2 ^ 18 % 2 ^ 11
      let rows := desc / 2 ^ 29 % 2 ^ 9
      let cols := desc / 2 ^ 38 % 2 ^ 10
      AgentRuns (.tdef f) f s → desc / 2 ^ 48 = 0 → pitch ≠ 0 → pitch ≤ 1024 → (fmt = 2 ∨ fmt = 3 → (cols + 1) % 32 = 0) →
        ((cols + 1) * typeBits fmt + 7) / 8 ≤ 32 * pitch → inSpace s (256 * base) (32 * pitch * (rows + 1)) = true →
        x.defined = false ∨ (x.ctx = c.ctx ∧ x.st = .empty) → goes (.tdef f)) ∧
     (let box := s.boxRegs f.b.sreg
      let total := box.1.foldl (· * ·) 1
      let shaped := total ≠ 0 ∧ total = (x.rows + 1) * (x.cols + 1) ∧ (typeBits x.fmt < 16 ∨ (s.sreg f.a.sreg).toNat % (typeBits x.fmt / 8) = 0)
      let len := (s.srcS true f.b).toNat
      modBits f.m 9 1 = 0 ∨ (∃ p, c.party = some p ∧ 16 * modBits f.m 5 4 + 16 ≤ 256 * (s.party p.1 p.2).scrSize) →
      (AgentRuns (.cpl f) f s → 0 < len → len < 2 ^ 32 → leaves (.cpl f) .CP) ∧
      (AgentRuns (.cpt f) f s → own x → tileHeld s k f.d.tileNum = false → x.st = .empty → shaped → leaves (.cpt f) .CP) ∧
      (AgentRuns (.cpo f) f s → own x → tileHeld s k f.d.tileNum = false → x.st = .draining ∨ (x.st = .ready ∧ x.err = false) → shaped →
        leaves (.cpo f) .CP))) ∧
    (let q := f.d.qNum
     let x := s.queueOf q
     let cnt := (s.srcS true f.b).toNat
     (SliceRuns (.cpq f) f s → s.openCpq = none → 0 < cnt → cnt + x.ents.length ≤ c.qdepth → (s.sreg f.a.sreg).toNat % 4 = 0 → x.closed = false →
       q < c.queues.length → s.cur.slot < 16 → (∀ o ∈ s.ops, o.id < s.nextOp) → leaves (.cpq f) .CP) ∧
     (OnceRuns (.qclose f) f s → goes (.qclose f)) ∧
     (OnceRuns (.qstat f) f s → ∃ t y, exec (.qstat f) s = .next t ∧ WroteS s t f.d.sreg y) ∧
     (SliceRuns (.qpush f) f s → x.closed = true ∨ x.ents.length < c.qdepth → goes (.qpush f))) ∧
    (SliceRuns (.afor f) f s → (s.srcS true f.a).toNat ≠ 0 → c.slice.loops.length < 4 → goes (.afor f)) ∧
    (∀ e rest, SliceRuns (.aend f) f s → c.slice.loops = rest ++ [e] → ∃ t, exec (.aend f) s = .next t ∧ t.mem = s.mem ∧
      t.pc = if 1 < e.cnt then e.pc else s.pc + 12) ∧
    -- the matrix unit
    (∀ i m, i ∈ [Instr.mma f, .mmas f, .mmx f, .msca f, .msl f, .mzero f, .mlda f] → OnceRuns i f s →
      c.mask = maskWhere c.width (fun _ => true) → mxPlan s i = some m → mxOutstanding s k s.cur.slot = false →
      (∀ w ∈ mxWants s k m, mxBadTile s w = false ∧ (s.tile w.1 w.2.1).err = false ∧ (s.tile w.1 w.2.1).st = .ready) → leaves i .MX) ∧
    (∀ m, OnceRuns (.mcvt f) f s → c.mask = maskWhere c.width (fun _ => true) → mxPlan s (.mcvt f) = some m →
      mxOutstanding s k s.cur.slot = false →
      let x := s.tile k f.d.tileNum
      x.defined = true → x.ctx = c.ctx → x.rows = 63 → x.cols = 63 → x.fmt ≠ 2 → x.fmt ≠ 3 → x.st = .empty → leaves (.mcvt f) .MX) ∧
    (OnceRuns (.mstat f) f s → ∃ t y, exec (.mstat f) s = .next t ∧ WroteS s t f.d.sreg y)

/-- Each of these completes where the checks of its entry pass: RLD RST RATOM RST.BLK RRED COLL COLL.DONE GANGQ GANGACK; XMODE's Step1 Step2
Step3 Exit and other words, XPROG XCOL XREAD XSTAT XRESET; CSRR CSRW REPLAY TLBINV EVPOST LAUNCH RESUME KILL ENERGYQ; CTXOP Create Activate
Preempt Restore Reset Destroy Query Modify, whose answer is the status word. So does every executor instruction, which leaves its executor at
the next word: NOP LATCH STORE SETK SETM SHK CMP CMPA CMPO TNOT WR WRN TSAVE TLOAD TSHF TCNT TFST RDW RDW.F XOUT XIN REL ACQ FENCE LOOP SETC
HALT RTAG; ADVANCE takes a command; and a word that is no instruction's raises ILLEGAL_ENCODING (R33, R109, R113, R132 to R140, R159, R161, R203, R306, R320 to R334, R345). -/
def Obligations.SystemFormsComplete : Prop :=
  ∀ (s : State) (f : Fields),
    let goes := fun (i : Instr) => ∃ t, exec i s = .next t ∧ WentOn s t
    let leaves := fun (i : Instr) (c : Cls) => ∃ t, exec i s = .next t ∧ WentOn s t ∧ LeftOp s t c
    let c := s.me
    let k := s.cur.core
    let x := s.myCtx
    -- fabric
    (let word := s.sreg f.a.sreg
     let named := word.toNat / 2 ^ 24 = 0 ∧ (word.setWidth 16 : BitVec 16) ≠ 0 ∧ (word.setWidth 16 : BitVec 16) ≠ 0xFFFF
     let ls := (List.range c.width).filter (fun L => (s.part f).getLsbD L)
     let ok := fun (w : Nat) => ls ≠ [] ∧ ∀ L ∈ ls, (s.src64 false f.b L).toNat < 2 ^ 57 ∧ (s.src64 false f.b L).toNat % w = 0
     let t := s.tile k f.d.tileNum
     s.op s.nextOp = none → named →
      (∀ i ∈ [Instr.rld f, .rst f], LaneRuns i f s → ok (2 ^ modBits f.m 0 3) → leaves i .CL) ∧
      (LaneRuns (.ratom f) f s → modBits f.m 8 2 < 2 → ok (if modBits f.m 0 2 ≥ 2 then 8 else 4) → Unmarked s → leaves (.ratom f) .CL) ∧
      (OnceRuns (.rstBlk f) f s → t.defined = true → t.ctx = c.ctx → tileHeld s k f.d.tileNum = false →
        t.st = .draining ∨ (t.st = .ready ∧ t.err = false) → t.bytes % 256 = 0 → t.bytes ≤ 16777216 → (s.sreg f.b.sreg).toNat % 256 = 0 →
        leaves (.rstBlk f) .CL)) ∧
    (let td := f.d.tileNum
     let ta := f.a.tileNum
     let xa := s.tile k ta
     let xd := s.tile k td
     let ty := modBits f.m 1 4
     let w0 := (s.sreg f.b.sreg).toNat
     let y := s.comm c.ctx (w0 % 2 ^ 16)
     OnceRuns (.rred f) f s → td ≠ ta → xa.defined = true → xa.ctx = c.ctx → xd.defined = true → xd.ctx = c.ctx → tileHeld s k ta = false →
      Unasked s → xd.st = .empty → xd.rows = xa.rows → xd.cols = xa.cols → xd.pitch = xa.pitch → xd.fmt = ty → xa.fmt = ty →
      modBits f.m 8 1 = 0 → modBits f.m 5 3 ≠ 3 → xa.st = .ready → xa.err = false → w0 % 2 ^ 16 < 64 → y.read = true → y.on = true →
      y.st ≠ .broken → s.op s.nextOp = none →
      ∃ t o, exec (.rred f) s = .next t ∧ t.pc = s.pc + 12 ∧ t.op s.nextOp = some o ∧ o.cls = Cls.CL ∧ (t.tile k ta).st = .draining ∧
        (t.tile k td).st = .filling) ∧
    (∀ pk pe, Unasked s → c.party = some (pk, pe) → OnceRuns (.coll f) f s → s.openColl = none →
      let w0 := (s.sreg f.a.sreg).toNat
      let w1 := (s.sreg (f.a.sreg + 1)).toNat
      let y := s.comm c.ctx (w0 % 2 ^ 16)
      w0 / 2 ^ 24 % 2 ^ 8 = 0 → w0 / 2 ^ 16 % 2 ^ 3 ≤ 3 → w1 ≠ 0 → w1 ≤ 65535 → w0 % 2 ^ 16 < 64 → x.relayq ≠ 0 → y.read = true →
      y.on = true → y.st ≠ .broken → (s.party pk pe).coll = none → w0 / 2 ^ 32 % 2 ^ 32 = y.next → (s.party pk pe).joined ≠ 1 →
      (∀ i ∈ y.insts, i.inst % 2 = y.next % 2 → i.inst = y.next) → s.op s.nextOp = none → leaves (.coll f) .CL) ∧
    (let r := (s.sreg f.a.sreg).toNat + 2 ^ 64 * (s.sreg (f.a.sreg + 1)).toNat + 2 ^ 128 * (s.sreg (f.a.sreg + 2)).toNat +
       2 ^ 192 * (s.sreg (f.a.sreg + 3)).toNat
     let fld := fun (lo n : Nat) => r / 2 ^ lo % 2 ^ n
     let y := s.comm c.ctx (fld 0 16)
     ∀ i, OnceRuns (.collDone f) f s → y.insts = [i] → i.inst = fld 32 32 → i.posted = true → i.localDone = false → i.core = fld 80 10 →
      i.tile = fld 90 7 → placeOfCore i.bcore = fld 97 3 → i.bent = fld 100 4 → i.bar = fld 104 4 → modBits f.m 8 1 = 0 →
      (∀ m ∈ (s.party i.bcore i.bent).members, (s.cv m.1 m.2).st ≠ .blocked) →
      ∃ t, exec (.collDone f) s = .next t ∧ t.tile i.core i.tile = (s.tile i.core i.tile).sent) ∧
    (let w := s.sreg f.a.sreg
     let n := w.toNat % 2 ^ 16
     let y := s.comm c.ctx n
     Unasked s → n < 64 → y.read = true → y.on = true →
      (OnceRuns (.gangq f) f s → (∀ p, y.permit = some p → w.toNat / 2 ^ 32 % 2 ^ 32 < y.pinst ∨
        (w.toNat / 2 ^ 32 % 2 ^ 32 = y.pinst ∧ (s.sreg f.b.sreg).toNat ≤ p)) → goes (.gangq f)) ∧
      (OnceRuns (.gangack f) f s → goes (.gangack f))) ∧
    -- banks
    (∀ ch b, x.priv = true → deepScope s c.ctx k false (s.sreg f.a.sreg) = some (ch, b) →
      let w := (s.sreg f.b.sreg).toNat % 2 ^ 32
      let y := s.chan ch
      let code := fun (n : Nat) => w % 2 ^ 8 = 0 ∧ w / 2 ^ 8 % 2 ^ 8 = c.ctx ∧ w / 2 ^ 16 = n
      let gives := fun (i : Instr) (m : ChMode) => ∃ t, exec i s = .next t ∧ (t.chan ch).mode = m ∧ t.sreg f.d.sreg = 0 ∧ t.pc = s.pc + 12
      (OnceRuns (.xmodeStep1 f) f s → y.mode = .normal → code 0x3A71 → gives (.xmodeStep1 f) .arming) ∧
      (OnceRuns (.xmodeStep2 f) f s → y.mode = .arming → y.owner = c.ctx → y.steps = 1 → code 0x5C92 → gives (.xmodeStep2 f) .arming) ∧
      (OnceRuns (.xmodeStep3 f) f s → y.mode = .arming → y.owner = c.ctx → y.steps = 2 → code 0x7EB3 → gives (.xmodeStep3 f) .compute) ∧
      (OnceRuns (.xmodeExit f) f s → y.mode = .compute ∨ y.mode = .suspended → y.owner = c.ctx → code 0x9D04 →
        gives (.xmodeExit f) .exiting) ∧
      (OnceRuns (.xmodeOtherWord f) f s → y.mode = .normal → ¬code 0x3A71 →
        ∃ t, exec (.xmodeOtherWord f) s = .next t ∧ WroteS s t f.d.sreg 1)) ∧
    (∀ ch b,
      let at_ := fun (o : Operand) (bank : Bool) => deepScope s c.ctx k bank (s.sreg o.sreg)
      let y := s.chan ch
      let idle := ∀ o ∈ s.ops, ¬(o.done = false ∧ o.core = k ∧ o.cslot = s.cur.slot ∧ o.slice = false ∧ ∃ cmd rel, o.kind = .bank ch cmd rel)
      (y.mode = .compute ∨ y.mode = .suspended) → y.owner = c.ctx → s.op s.nextOp = none →
      (OnceRuns (.xcol f) f s → at_ f.a false = some (ch, none) → leaves (.xcol f) .BX) ∧
      (OnceRuns (.xread f) f s → at_ f.a true = some (ch, some b) → leaves (.xread f) .BX) ∧
      (OnceRuns (.xprog f) f s → at_ f.d false = some (ch, none) →
        let n := (s.srcS true f.b).toNat
        0 < n → n ≤ 256 → Passes s (.bank ch (.xprog n) false) ((List.range n).map (fun i =>
          [mkReq i (s.sreg f.a.sreg + BitVec.ofNat 64 (4 * i)) 4 .rd])) → leaves (.xprog f) .BX) ∧
      (OnceRuns (.xstat f) f s → at_ f.a true = some (ch, some b) → y.mode = .compute → s.advOpen ≠ some ch → idle →
        ∃ t z, exec (.xstat f) s = .next t ∧ WroteS s t f.d.sreg z) ∧
      (OnceRuns (.xreset f) f s → x.priv = true → at_ f.a false = some (ch, none) → y.mode = .compute → s.advOpen ≠ some ch → idle →
        goes (.xreset f))) ∧
    -- system
    (OnceRuns (.csrr f) f s → ∃ t, exec (.csrr f) s = .next t ∧ t.pc = s.pc + 12 ∧ t.mem = s.mem ∧ t.me.mask = c.mask ∧ t.me.st = c.st) ∧
    (OnceRuns (.csrw f) f s → f.d.csrNum ∈ [0x11, 0x31, 0x32, 0x33, 0x35, 0x36, 0x37] → x.priv = true → ∃ t, exec (.csrw f) s = .next t ∧
      t.pc = s.pc + 12 ∧ t.me.stall = .csrw ∧
        t.myCtx.csrws = x.csrws ++ [(f.d.csrNum, s.sreg f.a.sreg, k, s.cur.slot)]) ∧
    (OnceRuns (.csrw f) f s → f.d.csrNum = 0x04 ∨ f.d.csrNum = 0x06 → goes (.csrw f)) ∧
    (let u := s.release 5 none
     s.memPending = false → fabricPending u c.ctx = false →
      (OnceRuns (.evpost f) f s → goes (.evpost f)) ∧
      (OnceRuns (.replay f) f s → x.priv = true → (s.sreg f.a.sreg).toNat < 2 ^ 28 → (s.sreg f.b.sreg).toNat < 2 ^ 32 →
        (∀ p ∈ u.parks, p.id.toNat ≠ (s.sreg f.b.sreg).toNat) →
        exec (.replay f) s = .next (u.setMe { c with sregs := sset 0 c.sregs f.d.sreg 1, pc := c.pc + 12 })) ∧
      (∀ s1 s2 s3 s4 s5 cons idx r, OnceRuns (.launch f) f s → modBits f.m 9 1 = 0 ∨ x.priv = true →
        let qn := (s.sreg f.b.sreg).toNat
        let src := (s.sreg f.a.sreg).toNat
        let q := sget LaunchQ.zero x.queues qn
        let lu := u.launchUser
        qn ≤ 7 → src % 256 = 0 → q.on = true → u.pieces lu (.home true) q.consVa.toNat 8 1 = (s1, .inl cons) →
        s1.pieces lu (.home true) q.prodVa.toNat 8 1 = (s2, .inl idx) → s2.me = c → s2.cur = s.cur → s2.want = .nothing →
        (idx + 2 ^ 64 - cons) % 2 ^ 64 < 2 ^ q.log2n → s2.pieces lu .plain src 16 16 = (s3, .inl r) →
        s3.launchCheck (q.base.toNat + 256 * (idx % 2 ^ q.log2n)) 16 = (s4, none) → s4.launchCheck q.prodVa.toNat 8 = (s5, none) →
        let v := s5.launchNow f qn q idx r (decide (modBits f.m 9 1 = 1))
        v.want = .nothing → exec (.launch f) s = .next (v.dropAnswers.settle k s.cur.slot))) ∧
    (OnceRuns (.tlbinv f) f s → x.priv = true → (s.sreg f.b.sreg).toNat / 2 ^ 32 % 2 ^ 16 = 0 → goes (.tlbinv f)) ∧
    (let picked := fun (o : Operand) => maskWhere c.width (fun L => s.src32 .int false o L ≠ 0) &&& c.exist
     c.trap.taken = true →
      (OnceRuns (.resume f) f s → c.trap.tmask ||| (c.trap.dmask &&& picked f.b) ≠ 0 → ∃ t, exec (.resume f) s = .next t ∧ t.me.st = .ready ∧
        t.me.pc = s.sreg f.a.sreg ∧ t.me.mask = c.trap.tmask ||| (c.trap.dmask &&& picked f.b) ∧ t.me.trap = TrapRec.zero) ∧
      (OnceRuns (.kill f) f s → c.mask &&& ~~~picked f.a ≠ 0 → ∃ t, exec (.kill f) s = .next t ∧ t.me.mask = c.mask &&& ~~~picked f.a ∧
        t.me.pc = c.pc + 12)) ∧
    (OnceRuns (.energyq f) f s → f.a.immU < 8 → x.priv = true → f.a.immU < s.dev.energy.length → goes (.energyq f)) ∧
    (OnceRuns (.energyq f) f s → 8 ≤ f.a.immU → f.a.immU ≤ 10 → goes (.energyq f)) ∧
    (let n := (s.sreg f.a.sreg).toNat
     let u := s.release 4 none
     ∀ p ∈ [(Instr.ctxopCreate f, CtxOp.create), (.ctxopActivate f, .activate), (.ctxopPreempt f, .preempt), (.ctxopRestore f, .restore),
        (.ctxopReset f, .reset), (.ctxopDestroy f, .destroy), (.ctxopQuery f, .query), (.ctxopModify f, .modify)],
      ∀ t w, OnceRuns p.1 f s → x.priv = true → s.memPending = false → n ≤ 255 →
        u.ctxop (u.user devOp) p.2 n (s.sreg f.b.sreg).toNat false = (t, w) → t.me = c → t.cur = s.cur → t.want = .nothing →
        exec p.1 s = .next (t.dropAnswers.setMe { c with sregs := sset 0 c.sregs f.d.sreg w, pc := c.pc + 12 })) ∧
    -- executors
    (∀ (sel fn : BitVec 2) (v d : BitVec 1) (j : BitVec 3) (n5 : BitVec 5) (bk : BitVec 6) (n w t : BitVec 8) (y : BitVec 16),
      let e := s.executor s.bank
      let next := fun (i : Instr) => ∃ t, exec i s = .next t ∧ (t.executor s.bank).pc = e.pc + 1 ∧ (t.executor s.bank).st = e.st ∧
        (t.executor s.bank).cause = e.cause
      (∀ i ∈ [Instr.execNop, .setk sel y, .setm sel y, .shk d n5, .cmp v, .cmpa v, .cmpo v, .tnot v, .wr v, .wrn v, .tsave fn, .tload fn,
          .tshf v d n, .tcnt v j, .tfst v j, .rdw j w, .rdwF j v, .xout w, .xin bk w, .execRel sel, .execAcq sel, .execFence sel, .setc y,
          .rtag v], legal i = true → next i) ∧
      (exec (.loop t) s = .next (s.setExecutor s.bank (if e.lc ≠ 0 then { e with lc := e.lc - 1, pc := t } else { e with pc := e.pc + 1 }))) ∧
      (exec .halt s = .next (s.setExecutor s.bank { e with st := .halted }))) ∧
    (∀ w, exec (.illegalWord w) s = .next (stops s .illegalEncoding)) ∧
    (∀ (r : BitVec 15) (u v : State) (l : Leaf) (ls : List (BitVec 1024)),
      (s.rowLeaf r.toNat false = (u, some l) → u.rowRead
          { ctx := (u.chan (s.bank / 64)).owner, asid := (u.ctx (u.chan (s.bank / 64)).owner).asid.toNat, va := rowVa s.bank r.toNat }
          (Flat.dram (s.bank / 64) (rowVa s.bank r.toNat % 2 ^ 31)) l = (v, some ls) → u.bank = s.bank → v.bank = s.bank →
        ∃ t, exec (.latch r) s = .next t ∧ (t.executor s.bank).lrow = r ∧ (t.executor s.bank).lv = true) ∧
      (s.rowLeaf r.toNat true = (u, some l) → u.bank = s.bank → ∃ t, exec (.store r) s = .next t ∧
        r.toNat ∈ (t.executor t.bank).stored)) ∧
    (∀ (ch : Nat) (o : Op) (cmd : BankCmd) (rel : Bool) (rest : List Nat),
      let y := s.chan ch
      (y.mode = .compute ∨ y.mode = .exiting) → s.advOpen = none → y.cmds = o.id :: rest → s.op o.id = some o → o.kind = .bank ch cmd rel →
      (∀ n, cmd = .xprog n → n ≤ 256 → ∃ t, exec (.advance ch) s = .next t ∧ (t.chan ch).cmds = rest) ∧
      ((∃ z, cmd = .xcol z) ∨ (∃ sd b, cmd = .xread sd b) → ∃ t, exec (.advance ch) s = .next t ∧ t.advOpen = some ch))

/-- Each input and each step that the device takes by itself completes with its own effect where it is due: DEVICE_RESET BOOT
REPAIR MAP MEASURE LINKS NODEID_ASSIGNED SYSTEM GET_VERSION GET_CAPABILITIES NEGOTIATE_ALGORITHMS GET_DIGESTS GET_CERTIFICATE
CHALLENGE GET_MEASUREMENTS KEY_EXCHANGE FINISH END_SESSION LOAD_KEY ADMIT_HOST GET_BRINGUP SET_PINNED POWER_WINDOW
THERMAL_LIMIT THERMAL_SHUTDOWN FLIT_CHECK_FAIL RETRAIN_ENTRY TRAINING_COMPLETE TRAINING_FAILED RETRAIN_TIMEOUT LCTL_DIS_SET
LCTL_DIS_CLEAR DRAINED D1_EXPIRES D2_EXPIRES SAVED SAVE_FAULT RESTORE_COMPLETE RESET_DONE PRODUCER_INDEX_OBSERVED HEAD_READ
ADMISSION DEPENDENCE_REREAD PLACEMENT STEAL_REQUEST STEAL_REPLY REMAINING_COUNT SPAWN_BIN_TIMEOUT ZERO_NOTICE QUIESCENCE_WAVE
COMPLETION_ACTION CONTROL_INTERVAL_BOUNDARY CONTEXT_REGISTER_WRITE_COMPLETE PRIORITY_PROMOTION YIELD_EXPIRES SLEEP_END
WAIT_SATISFIED CARAVAN_EXIT PARTY_DEPARTURE ACCALLOC_GRANT RELEASE_COMPLETE LINE_EVICTION TLBINV_COMPLETE HELD_RECORD_RETRY
MEMORY_REPLY CHANNEL_REQUEST QUEUE_ENTRY_VISIBLE COPY_BYTES_LAND COPY_COMPLETE SEND_COMPLETE MATRIX_START MATRIX_STOP
MATRIX_COMPLETE MULTICAST_ROUND SWITCH_DECLINE SWITCH_ABORT PARKED_NOTICE FABRIC_TIMEOUT REMOTE_REPLY ARMING_TIMEOUT
EXITING_COMPLETE OBOUND_EXPIRES SNAPSHOT_SERVED RFM_BLOCK_END REFRESH_WINDOW_BOUNDARY REGISTER_WRITE EXTENT_GRANT
EXTENT_ORDERLY_RELEASE EXTENT_FORCED_RELEASE EXTENT_WRITEBACK_DONE REMOTE_REQUEST LOSSY_BLOCK END_MARKER NODE_RESET GANG_QUERY
PAUSE GANG_RESUME PEER_CONTEXT_RESET INSTANCE_DONE REPLAY_DOORBELL CONTEXT_COMMAND (R24 to R28, R39 to R54, R64 to R67, R77,
R87, R90, R107, R112, R116, R119, R129 to R134, R144 to R152, R159 to R161, R197, R264, R299 to R304, R311, R330, R371 to
R380). -/
def Obligations.DeviceStepsComplete : Prop :=
  -- bring-up, power and attestation
  (∀ (s : State) (n slot watts : Nat) (id node : BitVec 16) (key : BitVec 512) (dies : BitVec 8) (caps : BitVec 40),
    let d := s.dev
    let m := d.spdm
    let step := fun (i : Instr) (k : Nat) => d.step = k → d.failsafe = false → ∃ t, exec i s = .next t ∧ t.dev.step = k + 1
    let up := d.failsafe = true ∨ 4 ≤ d.step
    let answers := fun (i : Instr) => ∃ t x, exec i s = .next t ∧ t.fab.out = s.fab.out ++ [x]
    let trusted := m.session = true ∧ m.measured = 0x3F
    (∀ i ∈ [Instr.deviceReset, .thermalShutdown], ∃ t, exec i s = .next t ∧ t.dev.step = 0 ∧ t.mem = [] ∧ t.cvs = []) ∧
    (d.fuse ≤ n → step (.boot true n) 0) ∧ step .repairStep 1 ∧ step .mapStep 2 ∧ step .measure 3 ∧ step .systemStep 5 ∧
    (d.failsafe = true ∨ d.step = 4 → ∃ t, exec .links s = .next t ∧
      ((s.port 0).st = .down → (s.port 0).dis = false → (t.port 0).st = .training)) ∧
    (d.failsafe = false → d.step = 4 → (∃ p ∈ s.fab.ports, p.2.st ≠ .down) → id ≠ 0 → id ≠ 0xFFFF →
      ∃ t, exec (.nodeidAssigned id) s = .next t ∧ t.dev.nodeid = id ∧ t.dev.step = 5) ∧
    (up → answers .getVersion ∧ answers .getBringup ∧ (m.versioned = true → answers .getCapabilities) ∧
      (m.capable = true → answers .negotiateAlgorithms) ∧
      (m.negotiated = true → answers .getDigests ∧ answers .getCertificate ∧ answers .challenge ∧ answers .keyExchange ∧
        (1 ≤ n → n ≤ 6 → d.measured ≠ none → answers (.getMeasurements n))) ∧
      (m.exchanged = true → answers .finish) ∧ (m.session = true → answers .endSession) ∧
      (trusted → 0 < slot → slot < 4096 → ∃ t, exec (.loadKey slot key) s = .next t ∧ (t.keySlot slot).full = true ∧ (t.keySlot slot).key = key) ∧
      (trusted → node ∉ d.admitted → d.admitted.length < 4 →
        ∃ t, exec (.admitHost node) s = .next t ∧ t.dev.admitted = d.admitted ++ [node]) ∧
      (trusted → (∀ k, k < 8 → dies.getLsbD k = true → caps.toNat / 2 ^ (5 * k) % 32 ≤ 16) → ∃ t, exec (.setPinned dies caps) s = .next t ∧
        ∀ k, k < 8 → dies.getLsbD k = true → sget 0 t.dev.store k = caps.toNat / 2 ^ (5 * k) % 32)) ∧
    ((∀ k, k < 8 → (s.die k).mhz = (s.die 0).mhz) →
      (2400 < watts → ∃ t, exec (.powerWindow watts) s = .next t ∧ (t.die 0).mhz = max 1500 ((s.die 0).mhz - 100)) ∧
      (∃ t, exec .thermalLimit s = .next t ∧ (t.die 0).mhz = max 1500 ((s.die 0).mhz - 100)))) ∧
  -- links
  (∀ (s : State) (p : Nat) (cls : TrafficClass) (peer : BitVec 16) (peerPort : BitVec 8), p < 36 →
    let x := s.port p
    let gives := fun (i : Instr) (st : LinkState) => ∃ t, exec i s = .next t ∧ (t.port p).st = st
    (x.st = .up → ∃ t, exec (.flitCheckFail p ⟨cls, false⟩) s = .next t ∧ (t.port p).check = x.check + 1) ∧
    (x.st = .up → gives (.retrainEntry p) .retrain) ∧
    (x.st = .training ∨ x.st = .retrain → gives (.trainingComplete p peer peerPort) .up) ∧
    (x.st = .training → 2 ≤ x.attempts → gives (.trainingFailed p) .failed) ∧
    (x.st = .retrain → s.fab.comms = [] → gives (.retrainTimeout p) .failed) ∧
    (s.fab.comms = [] → gives (.lctlDisSet p) .down) ∧ (x.st = .down → gives (.lctlDisClear p) .training)) ∧
  -- contexts, queues and kernels
  (∀ (s : State) (c q die bin : Nat),
    let y := s.ctx c
    let z := s.queue c q
    let gives := fun (i : Instr) (st : CtxState) => ∃ t, exec i s = .next t ∧ (t.ctx c).st = st
    (y.st = .draining → (∀ p ∈ s.cvs, ¬(p.2.ctx = c ∧ p.2.st ≠ .absent)) → (∀ p ∈ s.chans, p.2.heldBy c = false) → gives (.drained c) .saving) ∧
    (y.st = .draining → (∀ p ∈ s.chans, p.2.heldBy c = false) → gives (.d1Expires c) .saving) ∧
    (y.st = .draining ∨ y.st = .saving → gives (.d2Expires c) .resetting) ∧ (y.st = .resetting → gives (.resetDone c) .dead) ∧
    (y.st = .saving → saveReady s c = true → exec (.saved c) s = .next (s.save c)) ∧
    (∀ t, y.st = .saving → ((s.settleContext c).writePrivate c).trySave c = (t, false) → t.want = .nothing →
      gives (.saveFault c) .resetting) ∧
    (y.st = .saved → y.restoring = true → y.image = SaveImage.zero →
      (∀ q ∈ [y.faultq, y.eventq], q.held = [] ∧ q.waiting = [] ∧ q.ovfDue = false) →
      ((List.range 8).foldl (fun s q => s.readKernels c q) ((s.setCtx c { y with st := .active, restoring := false, image := SaveImage.zero }).takeQueues
        (User.device c) c)).want = .nothing → gives (.restoreComplete c) .active) ∧
    (∀ t p, z.open_ = true → ctxRuns s c = true → s.feRead c z.prodVa.toNat 8 1 = (t, .inl p) → t.want = .nothing →
      exec (.producerIndexObserved c q) s = .next (t.setLQ c q { t.queue c q with prod := min p (z.cons + 2 ^ z.log2n) }).dropAnswers) ∧
    (∀ t r, z.open_ = true → y.st = .active → z.consDue = false → z.headOk = false → z.cons < z.prod →
      s.feRead c (z.base.toNat + 256 * (z.cons % 2 ^ z.log2n)) 16 16 = (t, .inl r) → recordCode (BitVec.ofNat 2048 r) = none →
      LaunchRec.nspawn (BitVec.ofNat 2048 r) = 0 → (t.takeHead c q (BitVec.ofNat 2048 r) []).want = .nothing →
      exec (.headRead c q) s = .next (t.takeHead c q (BitVec.ofNat 2048 r) []).dropAnswers) ∧
    (∀ t b, z.open_ = true → z.headOk = true → z.depOk = false → y.st = .active → s.readDeps c z.head 4 = (t, .inl b) → t.want = .nothing →
      exec (.dependenceReread c q) s = .next (t.setLQ c q { t.queue c q with depOk := b }).dropAnswers) ∧
    (y.eallot = 0 → bestQueue s c = some q → exec (.admission c q) s = .next ((s.setCtx c { y with
      kernels := y.kernels ++ [s.newKernel c q], admittedAny := true,
      admittedE := y.admittedE + energyCharge (LaunchRec.eclass z.head) }).popHead c q)) ∧
    (∀ t, die < 8 → s.nextPlacement die = some t → exec (.placement die) s = .next t) ∧
    (let b := sget Bin.zero (s.die die).bins bin
     ∀ k, b.items ≠ [] → (s.ctx b.ctx).st = .active → s.kernel b.kid = some k → k.kid = b.kid →
      ∃ t, exec (.spawnBinTimeout die bin) s = .next t ∧ (sget Bin.zero (t.die die).bins bin).items = []) ∧
    (∃ t, exec .controlIntervalBoundary s = .next t ∧ ∀ p ∈ t.ctxs, p.2.energyUse = 0 ∧ p.2.admittedE = 0) ∧
    (∀ n v k slot rest, y.csrws = (n, v, k, slot) :: rest → ∃ t, exec (.contextRegisterWriteComplete c) s = .next t ∧ (t.ctx c).csrws = rest)) ∧
  (∀ (s : State) (kid : KernelId) (k : Kernel) (thief victim count : Nat), s.kernel kid = some k → k.kid = kid →
    let x := sget Share.none k.shares victim
    let g := LaunchRec.cgrp k.record
    let keep := ((x.count + 1) / 2 + 2 ^ g - 1) / 2 ^ g * 2 ^ g
    (thief < 8 → (s.ctx kid.ctx).st = .active → k.steals thief = true → k.victim thief = some victim → 2 * 2 ^ g ≤ x.count → keep < x.count →
      ∃ t k', exec (.stealRequest kid thief victim) s = .next t ∧ t.kernel kid = some k' ∧
        k'.replies = k.replies ++ [(thief, { x with cursor := x.nth keep })]) ∧
    (∀ y rest, k.replies = (thief, y) :: rest → ∃ t k', exec (.stealReply kid thief) s = .next t ∧ t.kernel kid = some k' ∧
      sget Share.none k'.shares thief = y) ∧
    (thief < 8 → victim < 8 → count = x.count → advertDue (sget 0 k.adverts (8 * thief + victim)) count = true →
      ∃ t k', exec (.remainingCount kid victim thief count) s = .next t ∧ t.kernel kid = some k' ∧
        sget 0 k'.adverts (8 * thief + victim) = count) ∧
    (k.st = .running → ctxCompletes s kid.ctx = true → victim < 8 → allQuiet s k = true →
      exec (.zeroNotice kid victim) s = .next (s.setKernel { k with wave1 := some (k.sent, k.recv) })) ∧
    (k.wave1 = some (k.sent, k.recv) → ctxCompletes s kid.ctx = true → allQuiet s k = true → (k.sent.map (·.2)).sum = (k.recv.map (·.2)).sum →
      exec (.quiescenceWave kid) s = .next (s.setKernel { k with st := .quiescent, wave1 := none })) ∧
    (k.st = .quiescent → kernelPerformed s kid = true → completionParked s kid = false → ctxCompletes s kid.ctx = true →
      fabricPending (s.releaseAll kid.ctx) kid.ctx = false → LaunchRec.incr k.record = false →
      ∃ t, exec (.completionAction kid) s = .next t ∧ t.kernel kid = none)) ∧
  -- caravans
  (∀ (s : State) (k n : Nat) (asid : BitVec 16) (line : Nat),
    let c := s.cv k n
    let quiet := c.mask ≠ 0 ∧ c.pending = false
    (256 ≤ c.passed → exec (.priorityPromotion k n) s = .next (s.setCv k n { c with passed := 0, eprio := min 4 (c.eprio + 1) })) ∧
    (exec (.yieldExpires k n) s = .next (s.setCv k n { c with yielding := false })) ∧
    (c.st = .sleeping → quiet → exec (.sleepEnd k n) s = .next (s.setCv k n { c with st := c.runState, sleep := 0 })) ∧
    (∀ t, c.st = .blocked → c.wait = .tileFree t → (s.tile k t).st ≠ .draining → quiet →
      exec (.waitSatisfied k n) s = .next (s.setCv k n { c with st := c.runState, wait := .none })) ∧
    (exitReady s k n = true → c.party = none → ∃ t, exec (.caravanExit k n) s = .next t ∧ t.cv k n = Caravan.blank) ∧
    (leaveReady s k n = true → c.party = none → quiet →
      exec (.partyDeparture k n) s = .next (s.setCv k n { c with st := c.runState, wait := .none, pc := c.pc + 12 })) ∧
    (∀ w p, (s.core k).accq = [w] → w.n ≤ (freeGranules s k).length → (s.cv k w.slot).party = some p → holdsGranules s k p = false →
      zName s k p w.z = none → (s.cv k w.slot).mask ≠ 0 → (s.cv k w.slot).pending = false → ∃ t b, exec (.accallocGrant k) s = .next t ∧
        (t.core k).accq = [] ∧ zName t k p w.z = some b ∧ b.grans = (freeGranules s k).take w.n) ∧
    (∀ scope, scope ≠ 5 → c.stall = .release scope false → ∃ t, exec (.releaseComplete k n) s = .next t ∧ (t.cv k n).stall = .none) ∧
    (∃ t, exec (.lineEviction (.l1 k) asid line) s = .next t ∧ ∀ l ∈ (t.core k).l1, ¬(l.asid = asid ∧ l.tag = line)) ∧
    (∀ va m, c.stall = .tlbinv asid va m →
      let hi := min (va.toNat + 4096 * m) (2 ^ 57)
      rangeLeft ((s.dropTranslations asid va.toNat hi).flushRange asid va.toNat hi) asid va.toNat hi = false →
      ∃ t, exec (.tlbinvComplete k n) s = .next t ∧ (t.cv k n).stall = .none) ∧
    ((∀ q ∈ [(s.ctx k).faultq, (s.ctx k).eventq], q.held = [] ∧ q.waiting = [] ∧ q.ovfDue = false) →
      ∃ t, exec (.heldRecordRetry k none) s = .next t ∧ (t.ctx k).faultq.failing = false ∧ (t.ctx k).eventq.failing = false)) ∧
  -- outstanding operations
  (∀ (s : State) (o : Op), s.op o.id = some o → o.done = false →
    let c := s.cv o.core o.cslot
    let served := o.todo = [] ∧ o.remote = [] ∧ o.held = []
    let retires := fun (i : Instr) => ∃ t, exec i s = .next t ∧ ∀ p ∈ t.ops, p.id = o.id → p.done = true
    (served → o.cls = .ST → o.kind = .store → retires (.memoryReply o.id)) ∧
    (∀ rd w sx, o.kind = .loadV rd w sx → o.id ≠ devOp → (∀ w ∈ s.fab.waits, w.id ≠ o.id) → o.ready ≠ [] →
      exec (.channelRequest o.id) s = .next (s.serveOp o o.ready)) ∧
    (∀ q seq w sx y e, served → o.cls = .LD → o.slice = true → c.st ≠ .absent → o.kind = .ldq q seq w sx → c.queues[q]? = some y → e ∈ y.ents →
      e.seq = seq → (∀ p ∈ s.ops, p.core = o.core → p.cslot = o.cslot → p.slice = true → p = o) →
      retires (.queueEntryVisible o.core o.cslot q)) ∧
    (∀ cp, o.kind = .copy cp → s.copyGoes o = true →
      (∀ src dst len, cp.kind = .cpl src dst len → len ≤ cp.pos → cp.bar = none → retires (.copyComplete o.id)) ∧
      (∀ src dst len, cp.kind = .cpl src dst len → exec (.copyBytesLand o.id) s = .next (s.copyRun o.id (cp.unit s o))) ∧
      (∀ n base ext str, cp.kind = .cpo n base ext str → cp.total s o ≤ cp.pos → cp.ended = false →
        ∃ t, exec (.sendComplete o.id) s = .next t ∧ t.tile o.core n = (s.tile o.core n).sent)) ∧
    (∀ m, o.kind = .matrix m →
      (mxMayStart s o = true → (∀ p ∈ s.ops, p.core = o.core → p.id < o.id → mxMayStart s p = false) → ∃ t, exec (.matrixStart o.id) s = .next t ∧
        t.op o.id = some { o with kind := .matrix { m with started := true, stopped := false } }) ∧
      (m.kind = .mzero → m.started = true → m.stopped = false → m.rounds = [] → o.held = [] → o.remote = [] → retires (.matrixComplete o.id)) ∧
      ((s.ctx o.ctx).st = .saving → m.kind.stops = true → m.stopped = false → m.started = false → ∃ t, exec (.matrixStop o.id) s = .next t ∧
        t.op o.id = some { o with kind := .matrix { m with stopped := true } }) ∧
      (∀ r tile, o.core < 192 → o.core % 96 < 96 → m.stopped = false → m.rounds = [(1#8 <<< (o.core % 8), r, tile)] → r < 8 →
        (∀ p ∈ s.ops, p.core = o.core → p = o) → ∃ t, exec (.multicastRound (o.core / 96) (o.core % 96 / 8) (2 ^ (o.core % 8)) tile) s = .next t ∧
          t.op o.id = some { o with kind := .matrix { m with rounds := [] } })) ∧
    (∀ td ta k inst chunk op ty lossy rv rc, o.kind = .rred td ta k inst chunk op ty true lossy rv rc true → o.todo = [] →
      exec (.switchDecline o.id) s = .next (s.setOp { o with kind := .rred td ta k inst chunk op ty false lossy rv rc true }) ∧
      ∃ t, exec (.switchAbort o.id) s = .next t ∧ ∀ p ∈ t.ops, p.id = o.id → ∃ b, p.kind = .rred td ta k inst chunk op ty false lossy rv rc b) ∧
    (∀ lane x node tctx rd w sx ret, o.remote = [x] → x.lane = lane → o.held = [] → o.todo = [] → o.kind = .remote node tctx rd w sx ret →
      (∃ t, exec (.parkedNotice o.id lane) s = .next t ∧ ∀ p ∈ t.ops, p.id = o.id → p = { o with held := [lane] }) ∧
      (ret = true → ∃ t, exec (.fabricTimeout o.id lane) s = .next t ∧ ∀ p ∈ t.ops, p.id = o.id → p.done = true) ∧
      (∀ v, w = 4 → ret = true → o.cls = .CL → lane < 1024 → c.gone.getLsbD lane = false → c.st ≠ .absent →
        (∀ n sc ad, c.stall ≠ .acquireOp n sc ad) → retires (.remoteReply o.id lane .performed v)))) ∧
  -- channels, registers and extents
  (∀ (s : State) (ch bank id size owner : Nat) (va x : W64) (node : BitVec 16) (base : W64),
    let c := s.chan ch
    let e := s.extent id
    let gives := fun (i : Instr) (m : ChMode) => ∃ t, exec i s = .next t ∧ (t.chan ch).mode = m
    (c.mode = .arming → gives (.armingTimeout ch) .normal) ∧
    (c.mode = .exiting → (∀ o ∈ s.ops, o.done = false → ∀ cmd rel, o.kind ≠ .bank ch cmd rel) → s.advOpen ≠ some ch →
      gives (.exitingComplete ch) .normal) ∧
    (c.mode = .compute → s.advOpen ≠ some ch → waitingAt s ch ≠ [] → gives (.oboundExpires ch) .suspended) ∧
    (c.mode = .suspended → (∀ n ∈ c.snap, n ≠ devOp → n ∉ waitingAt s ch) → gives (.snapshotServed ch) .compute) ∧
    (∃ t, exec (.rfmBlockEnd ch bank) s = .next t ∧ bank ∉ (t.chan ch).blocked) ∧
    ((∀ p ∈ c.captured, p.2.2 = false) → ∃ t, exec (.refreshWindowBoundary ch) s = .next t ∧ (t.chan ch).hot = [] ∧ (t.chan ch).captured = []) ∧
    (∀ d, (s.ctx 0).st ≠ .free → va.toNat = 0x1ED * 2 ^ 48 + 16384 * ch + 8 * d → ch < 512 → 3 ≤ d → d ≤ 9 → route s 0 none va.toNat = .regs →
      ∃ t, exec (.registerWrite va x) s = .next t ∧ chanReg (t.chan ch) (8 * d) = some x) ∧
    (id < 4096 → e.st = .free ∨ e.st = .gone → exec (.extentGrant id node base size owner) s =
      .next (s.setExtent id { st := .granted, node := node, base := base, size := size, owner := owner })) ∧
    (e.st = .granted → exec (.extentOrderlyRelease id) s = .next (s.setExtent id { e with st := .releasing })) ∧
    (e.st = .granted ∨ e.st = .releasing → ∃ t, exec (.extentForcedRelease id) s = .next t ∧ t.extent id = { e with st := .gone }) ∧
    (let t1 := s.cores.foldl (fun s kc => (kc.2.l1.filter (fun l => l.ofExtent id)).foldl (fun s l => s.cleanL1 kc.1 l.asid l.tag) s) s
     let u := ((List.range 8).foldl (fun s d => s.flushL2 d (fun l => l.ofExtent id) false) t1).flushExt (fun l => l.extent = some id) true
     e.st = .releasing → extentDirty u id = 0 → (∀ o ∈ u.ops, ¬(o.ctx = e.owner ∧ o.kind = .wback)) →
      ∃ t, exec (.extentWritebackDone id) s = .next t ∧ t.extent id = { e with st := .gone } ∧ .extentAck id ∈ t.fab.out)) ∧
  -- messages of other nodes
  (∀ (s : State) (c k inst peer cstar port : Nat) (node : BitVec 16) (sctx : BitVec 8) (w : BitVec 128) (cmd : BitVec 256) (r : RemoteReq)
      (b : LossyBlock) (m : EndMarker),
    let x := s.comm c k
    let id := 2 ^ 64 + s.nextDev
    let s1 := { s with nextDev := s.nextDev + 1 }
    let serves := fun (c : Nat) => (s.ctx c).st ≠ .free ∧ (s.ctx c).st ≠ .resetting ∧ (s.ctx c).st ≠ .dead
    let shut := fun (i : Instr) (t : State) => exec i s = .next (t.dropAnswers.unwait id)
    (x.st = .active → ∃ t, exec (.gangQuery c k) s = .next t ∧ (t.comm c k).st = .queried) ∧
    (x.st = .queried → x.own = false → ∃ t, exec (.pause c k cstar) s = .next t ∧ (t.comm c k).st = .pausing ∧ (t.comm c k).cstar = cstar) ∧
    (x.st = .paused → ∃ t, exec (.gangResume c k) s = .next t ∧ (t.comm c k).st = .active) ∧
    (x.read = true → x.st ≠ .broken → ∃ t, exec (.peerContextReset c k) s = .next t ∧ (t.comm c k).st = .broken) ∧
    ((∀ i ∈ x.insts, i.inst ≠ inst) → x.next ≤ inst → ∃ t, exec (.instanceDone c k inst peer) s = .next t ∧ (inst, peer) ∈ (t.comm c k).early) ∧
    (∃ t, exec (.nodeReset node) s = .next t ∧ sget 0 t.fab.h node.toNat = 0) ∧
    (Unasked s →
      (let a := s1.admits r.tctx.toNat r.node r.sctx (reqRight r)
       ∀ t v, serves r.tctx.toNat → a.2 = true →
        a.1.askChecked (remoteUser r.tctx.toNat id) (reqPlace r) r.va r.size (reqAct r) = (t, .ok v) → t.want = .nothing →
        shut (.remoteRequest r) (t.send (.reply r .performed (BitVec.ofNat 128 v)))) ∧
      (let l := s1.admits b.tctx.toNat b.src b.sctx .lossy
       let u := l.1.admits b.tctx.toNat b.src b.sctx .wr
       let late := b.xfer - (sget 0 s.fab.h b.src.toNat - 1)
       ∀ t, b.chkOk = true → late ≠ 0 → late.toNat < 2 ^ 31 → s.fab.opened.length < 4096 → serves b.tctx.toNat → l.2 = true → u.2 = true →
        u.1.lossyBytes b.tctx.toNat id b.va b.payload.toNat = some t → t.want = .nothing →
        ∃ v, exec (.lossyBlock port b) s = .next v ∧ ∃ e ∈ v.fab.opened, e.src = b.src ∧ e.xfer = b.xfer ∧ b.index.toNat ∈ e.got) ∧
      (let a := s1.admits m.tctx.toNat m.src m.sctx .wr
       let got := match openXfer s m.src m.xfer with
         | some e => e.got
         | none => []
       ∀ t, behindMarker s1 id m = false → serves m.tctx.toNat → a.2 = true → a.1.markerWrites id m got = (t, none) → t.want = .nothing →
        m.notVa = 0 → ∃ v, exec (.endMarker m) s = .next v ∧ v.fab.out.getLast? = some (.markerAck m .performed))) ∧
    (let a := s1.admits 0 node sctx .wr
     let y := a.1.replayPark (w.toNat % 2 ^ 8) (w.toNat / 2 ^ 8 % 2 ^ 4) (w.toNat / 2 ^ 12 % 2 ^ 16) (w.toNat / 2 ^ 64 % 2 ^ 32)
     a.1.want = .nothing → a.2 = true → w.toNat / 2 ^ 28 % 2 ^ 36 = 0 → w.toNat / 2 ^ 96 = 0 → y.1.want = .nothing →
      shut (.replayDoorbell node sctx w) y.1) ∧
    (let a := s1.admits 0 node sctx .wr
     let v := cmd.toNat
     let u := remoteUser 0 id
     ∀ op y, a.2 = true → ctxOpOf (v % 2 ^ 4) = some op → v / 2 ^ 4 % 2 ^ 4 = 0 → v / 2 ^ 16 % 2 ^ 48 = 0 → v / 2 ^ 192 % 2 ^ 64 = 0 →
      y = a.1.ctxop u op (v / 2 ^ 8 % 2 ^ 8) (v / 2 ^ 64 % 2 ^ 64) true → (y.1.answerCommand u cmd y.2).want = .nothing →
      shut (.contextCommand node sctx cmd) (y.1.answerCommand u cmd y.2)))
end

