-- ==== Sys2Proof/Laws/Sparse.lean ====
section
/-! SUPPORT. Sparse data and memory: what a read sees after a write, and that every operation keeps the canonical form. -/

namespace Sys2Proof.Machine

/-! ## Reads after writes -/

theorem sget_sput {β : Type} (d : β) (m : List (Nat × β)) (a b : Nat) (x : β) :
    sget d (sput m a x) b = if b = a then x else sget d m b := by
  induction m with
  | nil => simp only [sput, sget, eq_comm (a := a)]
  | cons p r ih =>
    obtain ⟨k, v⟩ := p
    simp only [sput]
    split
    · simp only [sget, eq_comm (a := a)]
    · split
      · subst_vars; simp only [sget, eq_comm (a := k)]; split <;> rfl
      · simp only [sget, ih]; split
        · have : b ≠ a := by omega
          simp [this]
        · rfl

theorem sget_sdel {β : Type} (d : β) (m : List (Nat × β)) (a b : Nat) :
    sget d (sdel m a) b = if b = a then d else sget d m b := by
  induction m with
  | nil => simp [sdel, sget]
  | cons p r ih =>
    obtain ⟨k, v⟩ := p
    by_cases hk : k = a
    · subst hk
      have e : sdel ((k, v) :: r) k = sdel r k := by simp [sdel]
      rw [e, ih]
      by_cases hb : b = k
      · simp [hb]
      · have hb' : k ≠ b := fun h => hb h.symm
        simp [sget, hb, hb']
    · have e : sdel ((k, v) :: r) a = (k, v) :: sdel r a := by simp [sdel, hk]
      rw [e]
      simp only [sget, ih]
      by_cases hb : k = b
      · subst hb; simp [hk]
      · simp [hb]

theorem sget_sset {β : Type} [DecidableEq β] (d : β) (m : List (Nat × β)) (a b : Nat) (x : β) :
    sget d (sset d m a x) b = if b = a then x else sget d m b := by
  unfold sset
  split
  · rename_i h; rw [sget_sdel, h]
  · rw [sget_sput, sget_sdel]; split <;> rfl

@[simp] theorem sget_sset_same {β : Type} [DecidableEq β] (d : β) (m : List (Nat × β)) (a : Nat) (x : β) :
    sget d (sset d m a x) a = x := by simp [sget_sset]

theorem sget_sset_other {β : Type} [DecidableEq β] (d : β) (m : List (Nat × β)) (a b : Nat) (x : β) (h : b ≠ a) :
    sget d (sset d m a x) b = sget d m b := by simp [sget_sset, h]

@[simp] theorem sget_nil {β : Type} (d : β) (a : Nat) : sget d [] a = d := rfl

/-! ## The canonical form -/

theorem swfFrom_mono {β : Type} [DecidableEq β] (d : β) (m : List (Nat × β)) (lo hi : Nat) (h : lo ≤ hi)
    (w : swfFrom d hi m = true) : swfFrom d lo m = true := by
  cases m with
  | nil => rfl
  | cons p r => simp only [swfFrom, Bool.and_eq_true, decide_eq_true_eq] at *; exact ⟨⟨by omega, w.1.2⟩, w.2⟩

theorem swfFrom_sput {β : Type} [DecidableEq β] (d : β) (m : List (Nat × β)) (lo a : Nat) (x : β) (ha : lo ≤ a)
    (hx : x ≠ d) (w : swfFrom d lo m = true) : swfFrom d lo (sput m a x) = true := by
  induction m generalizing lo with
  | nil => simp [sput, swfFrom, ha, hx]
  | cons p r ih =>
    obtain ⟨k, v⟩ := p
    simp only [swfFrom, Bool.and_eq_true, decide_eq_true_eq] at w
    obtain ⟨⟨h1, h2⟩, h3⟩ := w
    simp only [sput]
    split
    · simp only [swfFrom, Bool.and_eq_true, decide_eq_true_eq]
      exact ⟨⟨ha, hx⟩, ⟨⟨by omega, h2⟩, h3⟩⟩
    · split
      · subst_vars
        simp only [swfFrom, Bool.and_eq_true, decide_eq_true_eq]
        exact ⟨⟨ha, hx⟩, h3⟩
      · simp only [swfFrom, Bool.and_eq_true, decide_eq_true_eq]
        exact ⟨⟨h1, h2⟩, ih (k + 1) (by omega) h3⟩

theorem swfFrom_filter {β : Type} [DecidableEq β] (d : β) (m : List (Nat × β)) (p : Nat × β → Bool) (lo : Nat)
    (w : swfFrom d lo m = true) : swfFrom d lo (m.filter p) = true := by
  induction m generalizing lo with
  | nil => rfl
  | cons q r ih =>
    obtain ⟨k, v⟩ := q
    simp only [swfFrom, Bool.and_eq_true, decide_eq_true_eq] at w
    obtain ⟨⟨h1, h2⟩, h3⟩ := w
    rw [List.filter_cons]
    split
    · simp only [swfFrom, Bool.and_eq_true, decide_eq_true_eq]; exact ⟨⟨h1, h2⟩, ih _ h3⟩
    · exact swfFrom_mono d _ lo (k + 1) (by omega) (ih _ h3)

theorem swf_sset {β : Type} [DecidableEq β] (d : β) (m : List (Nat × β)) (a : Nat) (x : β) (w : swf d m = true) :
    swf d (sset d m a x) = true := by
  unfold swf sset at *
  split
  · exact swfFrom_filter d m _ 0 w
  · exact swfFrom_sput d _ 0 a x (Nat.zero_le _) ‹_› (swfFrom_filter d m _ 0 w)

/-- Two canonical lists that read alike at every key are the same list. -/
theorem swfFrom_ext {β : Type} [DecidableEq β] (d : β) (m n : List (Nat × β)) (lo : Nat) (hm : swfFrom d lo m = true)
    (hn : swfFrom d lo n = true) (h : ∀ a, sget d m a = sget d n a) : m = n := by
  have below : ∀ (l : List (Nat × β)) (lo a : Nat), swfFrom d lo l = true → a < lo → sget d l a = d := by
    intro l
    induction l with
    | nil => intros; rfl
    | cons p r ih =>
      intro lo a w ha
      obtain ⟨k, v⟩ := p
      simp only [swfFrom, Bool.and_eq_true, decide_eq_true_eq] at w
      have hk : k ≠ a := by omega
      simp only [sget, hk, if_false]
      exact ih (k + 1) a w.2 (by omega)
  induction m generalizing n lo with
  | nil =>
    cases n with
    | nil => rfl
    | cons q r =>
      obtain ⟨k, v⟩ := q
      simp only [swfFrom, Bool.and_eq_true, decide_eq_true_eq] at hn
      have := h k
      simp [sget] at this
      exact absurd this.symm hn.1.2
  | cons p r ih =>
    obtain ⟨k, v⟩ := p
    have hm' := hm
    simp only [swfFrom, Bool.and_eq_true, decide_eq_true_eq] at hm
    cases n with
    | nil =>
      have := h k
      simp [sget] at this
      exact absurd this hm.1.2
    | cons q t =>
      obtain ⟨j, w⟩ := q
      have hn' := hn
      simp only [swfFrom, Bool.and_eq_true, decide_eq_true_eq] at hn
      have hjk : j = k := by
        rcases Nat.lt_trichotomy j k with hlt | heq | hgt
        · have e := h j
          have e1 : sget d ((k, v) :: r) j = d := below _ k j (by simp [swfFrom, hm]) hlt
          rw [e1] at e
          simp only [sget, if_true] at e
          exact absurd e.symm hn.1.2
        · exact heq
        · have e := h k
          have e1 : sget d ((j, w) :: t) k = d := below _ j k (by simp [swfFrom, hn]) hgt
          rw [e1] at e
          simp only [sget, if_true] at e
          exact absurd e hm.1.2
      subst hjk
      have hvw : v = w := by have := h j; simpa [sget] using this
      subst hvw
      rw [ih t (j + 1) hm.2 hn.2]
      intro a
      by_cases ha : j = a
      · subst ha; rw [below r (j + 1) j hm.2 (by omega), below t (j + 1) j hn.2 (by omega)]
      · have := h a
        simpa [sget, ha] using this

/-- A canonical list in which a key is set to what it reads as already stays as it is. -/
theorem sset_self {β : Type} [DecidableEq β] (d : β) (m : List (Nat × β)) (a : Nat) (w : swf d m = true) :
    sset d m a (sget d m a) = m := by
  apply swfFrom_ext d _ _ 0 (swf_sset d m a _ w) w
  intro b
  rw [sget_sset]
  split
  · rename_i h; rw [h]
  · rfl

/-- Of two settings of one key the later stands. -/
theorem sput_sput {β : Type} (m : List (Nat × β)) (a : Nat) (x y : β) : sput (sput m a x) a y = sput m a y := by
  induction m with
  | nil => simp [sput]
  | cons p r ih =>
    obtain ⟨k, v⟩ := p
    simp only [sput]
    split
    · simp [sput]
    · split
      · simp [sput]
      · rename_i h1 h2; simp [sput, h1, h2, ih]

theorem sdel_sdel {β : Type} (m : List (Nat × β)) (a : Nat) : sdel (sdel m a) a = sdel m a := by
  simp [sdel, List.filter_filter]

theorem sdel_sput {β : Type} (m : List (Nat × β)) (a : Nat) (x : β) : sdel (sput m a x) a = sdel m a := by
  induction m with
  | nil => simp [sput, sdel]
  | cons p r ih =>
    obtain ⟨k, v⟩ := p
    simp only [sput]
    split
    · simp [sdel]
    · split
      · rename_i h; subst h; simp [sdel]
      · rename_i h1 h2
        have h : (k != a) = true := by simp; omega
        have e : ∀ q : List (Nat × β), sdel ((k, v) :: q) a = (k, v) :: sdel q a := fun q => by simp [sdel, h]
        rw [e, e, ih]

/-- Of two settings of one key the later stands, in any list. -/
@[simp] theorem sset_sset {β : Type} [DecidableEq β] (d : β) (m : List (Nat × β)) (a : Nat) (x y : β) :
    sset d (sset d m a x) a y = sset d m a y := by
  have h : sdel (sset d m a x) a = sdel m a := by
    unfold sset
    split
    · exact sdel_sdel m a
    · rw [sdel_sput, sdel_sdel]
  conv_lhs => unfold sset
  rw [show (if x = d then sdel m a else sput (sdel m a) a x) = sset d m a x from rfl, h]
  rfl

/-! ## Memory -/

@[simp] theorem mget_nil (a : Nat) : mget [] a = 0 := rfl

theorem mget_mset (m : Memory) (a b : Nat) (x : Byte) : mget (mset m a x) b = if b = a then x else mget m b :=
  sget_sset _ m a b x

theorem mset_keeps_wf (m : Memory) (a : Nat) (x : Byte) (h : Memory.wf m = true) : Memory.wf (mset m a x) = true :=
  swf_sset _ m a x h

theorem mstore_keeps_wf (m : Memory) (a n x : Nat) (h : Memory.wf m = true) : Memory.wf (mstore m a n x) = true := by
  induction n generalizing m a x with
  | zero => exact h
  | succ n ih => exact ih _ _ _ (mset_keeps_wf m a _ h)

theorem mzero_keeps_wf (m : Memory) (a n : Nat) (h : Memory.wf m = true) : Memory.wf (mzero m a n) = true :=
  swfFrom_filter _ m _ 0 h

theorem filter_keeps_wf (m : Memory) (p : Nat × Byte → Bool) (h : Memory.wf m = true) : Memory.wf (m.filter p) = true :=
  swfFrom_filter _ m p 0 h

/-- A fold of operations that each keep the canonical form keeps it. -/
theorem foldl_keeps_wf {α : Type} (l : List α) (f : Memory → α → Memory) (m : Memory)
    (hf : ∀ m x, Memory.wf m = true → Memory.wf (f m x) = true) (h : Memory.wf m = true) :
    Memory.wf (l.foldl f m) = true := by
  induction l generalizing m with
  | nil => exact h
  | cons x r ih => exact ih _ (hf m x h)

/-- A store leaves every byte outside its own alone. -/
theorem mget_mstore_outside (m : Memory) (a n x b : Nat) (h : b < a ∨ a + n ≤ b) : mget (mstore m a n x) b = mget m b := by
  induction n generalizing m a x with
  | zero => rfl
  | succ n ih =>
    simp only [mstore]
    rw [ih _ _ _ (by omega), mget_mset]
    have : b ≠ a := by omega
    simp [this]

/-- Byte i of a store is byte i of the number stored (R4). -/
theorem mget_mstore_inside (m : Memory) (a n x i : Nat) (h : i < n) :
    mget (mstore m a n x) (a + i) = BitVec.ofNat 8 (x / 256 ^ i) := by
  induction n generalizing m a x i with
  | zero => omega
  | succ n ih =>
    simp only [mstore]
    cases i with
    | zero => rw [mget_mstore_outside _ _ _ _ _ (by omega), mget_mset]; simp
    | succ i =>
      have e : a + (i + 1) = a + 1 + i := by omega
      rw [e, ih _ _ _ _ (by omega), Nat.div_div_eq_div_mul, Nat.pow_succ, Nat.mul_comm]

/-- What is stored is read back. -/
theorem mload_mstore (m : Memory) (a n x : Nat) : mload (mstore m a n x) a n = x % 256 ^ n := by
  induction n generalizing m a x with
  | zero => simp [mload, Nat.mod_one]
  | succ n ih =>
    simp only [mload, mstore, ih]
    rw [mget_mstore_outside _ _ _ _ _ (by omega), mget_mset]
    simp only [if_true, BitVec.toNat_ofNat]
    rw [show 256 ^ (n + 1) = 256 * 256 ^ n by rw [Nat.pow_succ, Nat.mul_comm], Nat.mod_mul]

/-- A load sees only the bytes that it reads. -/
theorem mload_congr (m k : Memory) (a n : Nat) (h : ∀ i, i < n → mget m (a + i) = mget k (a + i)) :
    mload m a n = mload k a n := by
  induction n generalizing a with
  | zero => rfl
  | succ n ih =>
    simp only [mload]
    rw [show mget m a = mget k a from h 0 (by omega)]
    rw [ih (a + 1) (fun i hi => by have := h (i + 1) (by omega); rwa [show a + (i + 1) = a + 1 + i by omega] at this)]

theorem mload_mstore_outside (m : Memory) (a n x b k : Nat) (h : b + k ≤ a ∨ a + n ≤ b) :
    mload (mstore m a n x) b k = mload m b k :=
  mload_congr _ _ _ _ (fun i hi => mget_mstore_outside m a n x (b + i) (by omega))

theorem mload_lt (m : Memory) (a n : Nat) : mload m a n < 256 ^ n := by
  induction n generalizing a with
  | zero => simp [mload]
  | succ n ih =>
    simp only [mload]
    have h1 := (mget m a).isLt
    have h2 := ih (a + 1)
    rw [Nat.pow_succ]
    omega

/-- The bytes made zero read as zero, and the others as before. -/
theorem mget_mzero (m : Memory) (a n b : Nat) : mget (mzero m a n) b = if a ≤ b ∧ b < a + n then 0 else mget m b := by
  unfold mget mzero
  induction m with
  | nil => simp [sget, Memory.unlisted]
  | cons p r ih =>
    obtain ⟨k, v⟩ := p
    rw [List.filter_cons]
    split
    · rename_i h
      simp only [Bool.not_eq_true', Bool.and_eq_false_iff, decide_eq_false_iff_not] at h
      simp only [sget, ih]
      by_cases hk : k = b
      · subst hk
        have : ¬(a ≤ k ∧ k < a + n) := by omega
        simp [this]
      · simp [hk]
    · rename_i h
      simp only [Bool.not_eq_true', Bool.and_eq_false_iff, decide_eq_false_iff_not, not_or, not_not] at h
      rw [ih]
      by_cases hk : k = b
      · subst hk; simp [h]
      · simp [sget, hk]

end Sys2Proof.Machine
end

