-- ==== Sys2Proof/Laws/State.lean ====
section
/-! SUPPORT. What each update of the state leaves of each field, and what an accessor reads after an update. -/

namespace Sys2Proof.Machine.State

/-! ## setCv -/

@[simp] theorem setCv_dev (s : State) (k n : Nat) (x : Caravan) : (s.setCv k n x).dev = s.dev := rfl
@[simp] theorem setCv_mem (s : State) (k n : Nat) (x : Caravan) : (s.setCv k n x).mem = s.mem := rfl
@[simp] theorem setCv_sectors (s : State) (k n : Nat) (x : Caravan) : (s.setCv k n x).sectors = s.sectors := rfl
@[simp] theorem setCv_ctxs (s : State) (k n : Nat) (x : Caravan) : (s.setCv k n x).ctxs = s.ctxs := rfl
@[simp] theorem setCv_cores (s : State) (k n : Nat) (x : Caravan) : (s.setCv k n x).cores = s.cores := rfl
@[simp] theorem setCv_dies (s : State) (k n : Nat) (x : Caravan) : (s.setCv k n x).dies = s.dies := rfl
@[simp] theorem setCv_ops (s : State) (k n : Nat) (x : Caravan) : (s.setCv k n x).ops = s.ops := rfl
@[simp] theorem setCv_parks (s : State) (k n : Nat) (x : Caravan) : (s.setCv k n x).parks = s.parks := rfl
@[simp] theorem setCv_veils (s : State) (k n : Nat) (x : Caravan) : (s.setCv k n x).veils = s.veils := rfl
@[simp] theorem setCv_chans (s : State) (k n : Nat) (x : Caravan) : (s.setCv k n x).chans = s.chans := rfl
@[simp] theorem setCv_execs (s : State) (k n : Nat) (x : Caravan) : (s.setCv k n x).execs = s.execs := rfl
@[simp] theorem setCv_extents (s : State) (k n : Nat) (x : Caravan) : (s.setCv k n x).extents = s.extents := rfl
@[simp] theorem setCv_fab (s : State) (k n : Nat) (x : Caravan) : (s.setCv k n x).fab = s.fab := rfl
@[simp] theorem setCv_cur (s : State) (k n : Nat) (x : Caravan) : (s.setCv k n x).cur = s.cur := rfl
@[simp] theorem setCv_bank (s : State) (k n : Nat) (x : Caravan) : (s.setCv k n x).bank = s.bank := rfl
@[simp] theorem setCv_advOpen (s : State) (k n : Nat) (x : Caravan) : (s.setCv k n x).advOpen = s.advOpen := rfl
@[simp] theorem setCv_advTodo (s : State) (k n : Nat) (x : Caravan) : (s.setCv k n x).advTodo = s.advTodo := rfl
@[simp] theorem setCv_agenda (s : State) (k n : Nat) (x : Caravan) : (s.setCv k n x).agenda = s.agenda := rfl
@[simp] theorem setCv_posts (s : State) (k n : Nat) (x : Caravan) : (s.setCv k n x).posts = s.posts := rfl
@[simp] theorem setCv_want (s : State) (k n : Nat) (x : Caravan) : (s.setCv k n x).want = s.want := rfl
@[simp] theorem setCv_nextOp (s : State) (k n : Nat) (x : Caravan) : (s.setCv k n x).nextOp = s.nextOp := rfl
@[simp] theorem setCv_nextDev (s : State) (k n : Nat) (x : Caravan) : (s.setCv k n x).nextDev = s.nextDev := rfl
@[simp] theorem setCv_nextCv (s : State) (k n : Nat) (x : Caravan) : (s.setCv k n x).nextCv = s.nextCv := rfl
@[simp] theorem setCv_clock (s : State) (k n : Nat) (x : Caravan) : (s.setCv k n x).clock = s.clock := rfl
@[simp] theorem setCv_freeCtr (s : State) (k n : Nat) (x : Caravan) : (s.setCv k n x).freeCtr = s.freeCtr := rfl
@[simp] theorem setCv_core (s : State) (k n : Nat) (x : Caravan) (j : Nat) : (s.setCv k n x).core j = s.core j := rfl
@[simp] theorem setCv_die (s : State) (k n : Nat) (x : Caravan) (j : Nat) : (s.setCv k n x).die j = s.die j := rfl
@[simp] theorem setCv_ctx (s : State) (k n : Nat) (x : Caravan) (j : Nat) : (s.setCv k n x).ctx j = s.ctx j := rfl
@[simp] theorem setCv_chan (s : State) (k n : Nat) (x : Caravan) (j : Nat) : (s.setCv k n x).chan j = s.chan j := rfl
@[simp] theorem setCv_executor (s : State) (k n : Nat) (x : Caravan) (j : Nat) : (s.setCv k n x).executor j = s.executor j := rfl
@[simp] theorem setCv_sector (s : State) (k n : Nat) (x : Caravan) (j : Nat) : (s.setCv k n x).sector j = s.sector j := rfl
@[simp] theorem setCv_extent (s : State) (k n : Nat) (x : Caravan) (j : Nat) : (s.setCv k n x).extent j = s.extent j := rfl
@[simp] theorem setCv_port (s : State) (k n : Nat) (x : Caravan) (j : Nat) : (s.setCv k n x).port j = s.port j := rfl
@[simp] theorem setCv_comm (s : State) (k n : Nat) (x : Caravan) (j i : Nat) : (s.setCv k n x).comm j i = s.comm j i := rfl
@[simp] theorem setCv_keySlot (s : State) (k n : Nat) (x : Caravan) (j : Nat) : (s.setCv k n x).keySlot j = s.keySlot j := rfl
@[simp] theorem setCv_tile (s : State) (k n : Nat) (x : Caravan) (j i : Nat) : (s.setCv k n x).tile j i = s.tile j i := rfl
@[simp] theorem setCv_party (s : State) (k n : Nat) (x : Caravan) (j i : Nat) : (s.setCv k n x).party j i = s.party j i := rfl

/-! ## setCore -/

@[simp] theorem setCore_dev (s : State) (k : Nat) (x : Core) : (s.setCore k x).dev = s.dev := rfl
@[simp] theorem setCore_mem (s : State) (k : Nat) (x : Core) : (s.setCore k x).mem = s.mem := rfl
@[simp] theorem setCore_sectors (s : State) (k : Nat) (x : Core) : (s.setCore k x).sectors = s.sectors := rfl
@[simp] theorem setCore_ctxs (s : State) (k : Nat) (x : Core) : (s.setCore k x).ctxs = s.ctxs := rfl
@[simp] theorem setCore_dies (s : State) (k : Nat) (x : Core) : (s.setCore k x).dies = s.dies := rfl
@[simp] theorem setCore_cvs (s : State) (k : Nat) (x : Core) : (s.setCore k x).cvs = s.cvs := rfl
@[simp] theorem setCore_ops (s : State) (k : Nat) (x : Core) : (s.setCore k x).ops = s.ops := rfl
@[simp] theorem setCore_parks (s : State) (k : Nat) (x : Core) : (s.setCore k x).parks = s.parks := rfl
@[simp] theorem setCore_veils (s : State) (k : Nat) (x : Core) : (s.setCore k x).veils = s.veils := rfl
@[simp] theorem setCore_chans (s : State) (k : Nat) (x : Core) : (s.setCore k x).chans = s.chans := rfl
@[simp] theorem setCore_execs (s : State) (k : Nat) (x : Core) : (s.setCore k x).execs = s.execs := rfl
@[simp] theorem setCore_extents (s : State) (k : Nat) (x : Core) : (s.setCore k x).extents = s.extents := rfl
@[simp] theorem setCore_fab (s : State) (k : Nat) (x : Core) : (s.setCore k x).fab = s.fab := rfl
@[simp] theorem setCore_cur (s : State) (k : Nat) (x : Core) : (s.setCore k x).cur = s.cur := rfl
@[simp] theorem setCore_bank (s : State) (k : Nat) (x : Core) : (s.setCore k x).bank = s.bank := rfl
@[simp] theorem setCore_advOpen (s : State) (k : Nat) (x : Core) : (s.setCore k x).advOpen = s.advOpen := rfl
@[simp] theorem setCore_advTodo (s : State) (k : Nat) (x : Core) : (s.setCore k x).advTodo = s.advTodo := rfl
@[simp] theorem setCore_agenda (s : State) (k : Nat) (x : Core) : (s.setCore k x).agenda = s.agenda := rfl
@[simp] theorem setCore_posts (s : State) (k : Nat) (x : Core) : (s.setCore k x).posts = s.posts := rfl
@[simp] theorem setCore_want (s : State) (k : Nat) (x : Core) : (s.setCore k x).want = s.want := rfl
@[simp] theorem setCore_nextOp (s : State) (k : Nat) (x : Core) : (s.setCore k x).nextOp = s.nextOp := rfl
@[simp] theorem setCore_nextDev (s : State) (k : Nat) (x : Core) : (s.setCore k x).nextDev = s.nextDev := rfl
@[simp] theorem setCore_nextCv (s : State) (k : Nat) (x : Core) : (s.setCore k x).nextCv = s.nextCv := rfl
@[simp] theorem setCore_clock (s : State) (k : Nat) (x : Core) : (s.setCore k x).clock = s.clock := rfl
@[simp] theorem setCore_freeCtr (s : State) (k : Nat) (x : Core) : (s.setCore k x).freeCtr = s.freeCtr := rfl
@[simp] theorem setCore_cv (s : State) (k : Nat) (x : Core) (j i : Nat) : (s.setCore k x).cv j i = s.cv j i := rfl
@[simp] theorem setCore_die (s : State) (k : Nat) (x : Core) (j : Nat) : (s.setCore k x).die j = s.die j := rfl
@[simp] theorem setCore_ctx (s : State) (k : Nat) (x : Core) (j : Nat) : (s.setCore k x).ctx j = s.ctx j := rfl
@[simp] theorem setCore_chan (s : State) (k : Nat) (x : Core) (j : Nat) : (s.setCore k x).chan j = s.chan j := rfl
@[simp] theorem setCore_executor (s : State) (k : Nat) (x : Core) (j : Nat) : (s.setCore k x).executor j = s.executor j := rfl
@[simp] theorem setCore_sector (s : State) (k : Nat) (x : Core) (j : Nat) : (s.setCore k x).sector j = s.sector j := rfl
@[simp] theorem setCore_extent (s : State) (k : Nat) (x : Core) (j : Nat) : (s.setCore k x).extent j = s.extent j := rfl
@[simp] theorem setCore_port (s : State) (k : Nat) (x : Core) (j : Nat) : (s.setCore k x).port j = s.port j := rfl
@[simp] theorem setCore_comm (s : State) (k : Nat) (x : Core) (j i : Nat) : (s.setCore k x).comm j i = s.comm j i := rfl
@[simp] theorem setCore_keySlot (s : State) (k : Nat) (x : Core) (j : Nat) : (s.setCore k x).keySlot j = s.keySlot j := rfl

/-! ## setDie -/

@[simp] theorem setDie_dev (s : State) (d : Nat) (x : Die) : (s.setDie d x).dev = s.dev := rfl
@[simp] theorem setDie_mem (s : State) (d : Nat) (x : Die) : (s.setDie d x).mem = s.mem := rfl
@[simp] theorem setDie_sectors (s : State) (d : Nat) (x : Die) : (s.setDie d x).sectors = s.sectors := rfl
@[simp] theorem setDie_ctxs (s : State) (d : Nat) (x : Die) : (s.setDie d x).ctxs = s.ctxs := rfl
@[simp] theorem setDie_cores (s : State) (d : Nat) (x : Die) : (s.setDie d x).cores = s.cores := rfl
@[simp] theorem setDie_cvs (s : State) (d : Nat) (x : Die) : (s.setDie d x).cvs = s.cvs := rfl
@[simp] theorem setDie_ops (s : State) (d : Nat) (x : Die) : (s.setDie d x).ops = s.ops := rfl
@[simp] theorem setDie_parks (s : State) (d : Nat) (x : Die) : (s.setDie d x).parks = s.parks := rfl
@[simp] theorem setDie_veils (s : State) (d : Nat) (x : Die) : (s.setDie d x).veils = s.veils := rfl
@[simp] theorem setDie_chans (s : State) (d : Nat) (x : Die) : (s.setDie d x).chans = s.chans := rfl
@[simp] theorem setDie_execs (s : State) (d : Nat) (x : Die) : (s.setDie d x).execs = s.execs := rfl
@[simp] theorem setDie_extents (s : State) (d : Nat) (x : Die) : (s.setDie d x).extents = s.extents := rfl
@[simp] theorem setDie_fab (s : State) (d : Nat) (x : Die) : (s.setDie d x).fab = s.fab := rfl
@[simp] theorem setDie_cur (s : State) (d : Nat) (x : Die) : (s.setDie d x).cur = s.cur := rfl
@[simp] theorem setDie_bank (s : State) (d : Nat) (x : Die) : (s.setDie d x).bank = s.bank := rfl
@[simp] theorem setDie_advOpen (s : State) (d : Nat) (x : Die) : (s.setDie d x).advOpen = s.advOpen := rfl
@[simp] theorem setDie_advTodo (s : State) (d : Nat) (x : Die) : (s.setDie d x).advTodo = s.advTodo := rfl
@[simp] theorem setDie_agenda (s : State) (d : Nat) (x : Die) : (s.setDie d x).agenda = s.agenda := rfl
@[simp] theorem setDie_posts (s : State) (d : Nat) (x : Die) : (s.setDie d x).posts = s.posts := rfl
@[simp] theorem setDie_want (s : State) (d : Nat) (x : Die) : (s.setDie d x).want = s.want := rfl
@[simp] theorem setDie_nextOp (s : State) (d : Nat) (x : Die) : (s.setDie d x).nextOp = s.nextOp := rfl
@[simp] theorem setDie_nextDev (s : State) (d : Nat) (x : Die) : (s.setDie d x).nextDev = s.nextDev := rfl
@[simp] theorem setDie_nextCv (s : State) (d : Nat) (x : Die) : (s.setDie d x).nextCv = s.nextCv := rfl
@[simp] theorem setDie_clock (s : State) (d : Nat) (x : Die) : (s.setDie d x).clock = s.clock := rfl
@[simp] theorem setDie_freeCtr (s : State) (d : Nat) (x : Die) : (s.setDie d x).freeCtr = s.freeCtr := rfl
@[simp] theorem setDie_cv (s : State) (d : Nat) (x : Die) (j i : Nat) : (s.setDie d x).cv j i = s.cv j i := rfl
@[simp] theorem setDie_core (s : State) (d : Nat) (x : Die) (j : Nat) : (s.setDie d x).core j = s.core j := rfl
@[simp] theorem setDie_ctx (s : State) (d : Nat) (x : Die) (j : Nat) : (s.setDie d x).ctx j = s.ctx j := rfl
@[simp] theorem setDie_chan (s : State) (d : Nat) (x : Die) (j : Nat) : (s.setDie d x).chan j = s.chan j := rfl
@[simp] theorem setDie_executor (s : State) (d : Nat) (x : Die) (j : Nat) : (s.setDie d x).executor j = s.executor j := rfl
@[simp] theorem setDie_sector (s : State) (d : Nat) (x : Die) (j : Nat) : (s.setDie d x).sector j = s.sector j := rfl
@[simp] theorem setDie_extent (s : State) (d : Nat) (x : Die) (j : Nat) : (s.setDie d x).extent j = s.extent j := rfl
@[simp] theorem setDie_port (s : State) (d : Nat) (x : Die) (j : Nat) : (s.setDie d x).port j = s.port j := rfl
@[simp] theorem setDie_comm (s : State) (d : Nat) (x : Die) (j i : Nat) : (s.setDie d x).comm j i = s.comm j i := rfl
@[simp] theorem setDie_keySlot (s : State) (d : Nat) (x : Die) (j : Nat) : (s.setDie d x).keySlot j = s.keySlot j := rfl
@[simp] theorem setDie_tile (s : State) (d : Nat) (x : Die) (j i : Nat) : (s.setDie d x).tile j i = s.tile j i := rfl
@[simp] theorem setDie_party (s : State) (d : Nat) (x : Die) (j i : Nat) : (s.setDie d x).party j i = s.party j i := rfl

/-! ## setCtx -/

@[simp] theorem setCtx_dev (s : State) (c : Nat) (x : Context) : (s.setCtx c x).dev = s.dev := rfl
@[simp] theorem setCtx_mem (s : State) (c : Nat) (x : Context) : (s.setCtx c x).mem = s.mem := rfl
@[simp] theorem setCtx_sectors (s : State) (c : Nat) (x : Context) : (s.setCtx c x).sectors = s.sectors := rfl
@[simp] theorem setCtx_cores (s : State) (c : Nat) (x : Context) : (s.setCtx c x).cores = s.cores := rfl
@[simp] theorem setCtx_dies (s : State) (c : Nat) (x : Context) : (s.setCtx c x).dies = s.dies := rfl
@[simp] theorem setCtx_cvs (s : State) (c : Nat) (x : Context) : (s.setCtx c x).cvs = s.cvs := rfl
@[simp] theorem setCtx_ops (s : State) (c : Nat) (x : Context) : (s.setCtx c x).ops = s.ops := rfl
@[simp] theorem setCtx_parks (s : State) (c : Nat) (x : Context) : (s.setCtx c x).parks = s.parks := rfl
@[simp] theorem setCtx_veils (s : State) (c : Nat) (x : Context) : (s.setCtx c x).veils = s.veils := rfl
@[simp] theorem setCtx_chans (s : State) (c : Nat) (x : Context) : (s.setCtx c x).chans = s.chans := rfl
@[simp] theorem setCtx_execs (s : State) (c : Nat) (x : Context) : (s.setCtx c x).execs = s.execs := rfl
@[simp] theorem setCtx_extents (s : State) (c : Nat) (x : Context) : (s.setCtx c x).extents = s.extents := rfl
@[simp] theorem setCtx_fab (s : State) (c : Nat) (x : Context) : (s.setCtx c x).fab = s.fab := rfl
@[simp] theorem setCtx_cur (s : State) (c : Nat) (x : Context) : (s.setCtx c x).cur = s.cur := rfl
@[simp] theorem setCtx_bank (s : State) (c : Nat) (x : Context) : (s.setCtx c x).bank = s.bank := rfl
@[simp] theorem setCtx_advOpen (s : State) (c : Nat) (x : Context) : (s.setCtx c x).advOpen = s.advOpen := rfl
@[simp] theorem setCtx_advTodo (s : State) (c : Nat) (x : Context) : (s.setCtx c x).advTodo = s.advTodo := rfl
@[simp] theorem setCtx_agenda (s : State) (c : Nat) (x : Context) : (s.setCtx c x).agenda = s.agenda := rfl
@[simp] theorem setCtx_posts (s : State) (c : Nat) (x : Context) : (s.setCtx c x).posts = s.posts := rfl
@[simp] theorem setCtx_want (s : State) (c : Nat) (x : Context) : (s.setCtx c x).want = s.want := rfl
@[simp] theorem setCtx_nextOp (s : State) (c : Nat) (x : Context) : (s.setCtx c x).nextOp = s.nextOp := rfl
@[simp] theorem setCtx_nextDev (s : State) (c : Nat) (x : Context) : (s.setCtx c x).nextDev = s.nextDev := rfl
@[simp] theorem setCtx_nextCv (s : State) (c : Nat) (x : Context) : (s.setCtx c x).nextCv = s.nextCv := rfl
@[simp] theorem setCtx_clock (s : State) (c : Nat) (x : Context) : (s.setCtx c x).clock = s.clock := rfl
@[simp] theorem setCtx_freeCtr (s : State) (c : Nat) (x : Context) : (s.setCtx c x).freeCtr = s.freeCtr := rfl
@[simp] theorem setCtx_cv (s : State) (c : Nat) (x : Context) (j i : Nat) : (s.setCtx c x).cv j i = s.cv j i := rfl
@[simp] theorem setCtx_core (s : State) (c : Nat) (x : Context) (j : Nat) : (s.setCtx c x).core j = s.core j := rfl
@[simp] theorem setCtx_die (s : State) (c : Nat) (x : Context) (j : Nat) : (s.setCtx c x).die j = s.die j := rfl
@[simp] theorem setCtx_chan (s : State) (c : Nat) (x : Context) (j : Nat) : (s.setCtx c x).chan j = s.chan j := rfl
@[simp] theorem setCtx_executor (s : State) (c : Nat) (x : Context) (j : Nat) : (s.setCtx c x).executor j = s.executor j := rfl
@[simp] theorem setCtx_sector (s : State) (c : Nat) (x : Context) (j : Nat) : (s.setCtx c x).sector j = s.sector j := rfl
@[simp] theorem setCtx_extent (s : State) (c : Nat) (x : Context) (j : Nat) : (s.setCtx c x).extent j = s.extent j := rfl
@[simp] theorem setCtx_port (s : State) (c : Nat) (x : Context) (j : Nat) : (s.setCtx c x).port j = s.port j := rfl
@[simp] theorem setCtx_comm (s : State) (c : Nat) (x : Context) (j i : Nat) : (s.setCtx c x).comm j i = s.comm j i := rfl
@[simp] theorem setCtx_keySlot (s : State) (c : Nat) (x : Context) (j : Nat) : (s.setCtx c x).keySlot j = s.keySlot j := rfl
@[simp] theorem setCtx_tile (s : State) (c : Nat) (x : Context) (j i : Nat) : (s.setCtx c x).tile j i = s.tile j i := rfl
@[simp] theorem setCtx_party (s : State) (c : Nat) (x : Context) (j i : Nat) : (s.setCtx c x).party j i = s.party j i := rfl

/-! ## setChan -/

@[simp] theorem setChan_dev (s : State) (c : Nat) (x : Channel) : (s.setChan c x).dev = s.dev := rfl
@[simp] theorem setChan_mem (s : State) (c : Nat) (x : Channel) : (s.setChan c x).mem = s.mem := rfl
@[simp] theorem setChan_sectors (s : State) (c : Nat) (x : Channel) : (s.setChan c x).sectors = s.sectors := rfl
@[simp] theorem setChan_ctxs (s : State) (c : Nat) (x : Channel) : (s.setChan c x).ctxs = s.ctxs := rfl
@[simp] theorem setChan_cores (s : State) (c : Nat) (x : Channel) : (s.setChan c x).cores = s.cores := rfl
@[simp] theorem setChan_dies (s : State) (c : Nat) (x : Channel) : (s.setChan c x).dies = s.dies := rfl
@[simp] theorem setChan_cvs (s : State) (c : Nat) (x : Channel) : (s.setChan c x).cvs = s.cvs := rfl
@[simp] theorem setChan_ops (s : State) (c : Nat) (x : Channel) : (s.setChan c x).ops = s.ops := rfl
@[simp] theorem setChan_parks (s : State) (c : Nat) (x : Channel) : (s.setChan c x).parks = s.parks := rfl
@[simp] theorem setChan_veils (s : State) (c : Nat) (x : Channel) : (s.setChan c x).veils = s.veils := rfl
@[simp] theorem setChan_execs (s : State) (c : Nat) (x : Channel) : (s.setChan c x).execs = s.execs := rfl
@[simp] theorem setChan_extents (s : State) (c : Nat) (x : Channel) : (s.setChan c x).extents = s.extents := rfl
@[simp] theorem setChan_fab (s : State) (c : Nat) (x : Channel) : (s.setChan c x).fab = s.fab := rfl
@[simp] theorem setChan_cur (s : State) (c : Nat) (x : Channel) : (s.setChan c x).cur = s.cur := rfl
@[simp] theorem setChan_bank (s : State) (c : Nat) (x : Channel) : (s.setChan c x).bank = s.bank := rfl
@[simp] theorem setChan_advOpen (s : State) (c : Nat) (x : Channel) : (s.setChan c x).advOpen = s.advOpen := rfl
@[simp] theorem setChan_advTodo (s : State) (c : Nat) (x : Channel) : (s.setChan c x).advTodo = s.advTodo := rfl
@[simp] theorem setChan_agenda (s : State) (c : Nat) (x : Channel) : (s.setChan c x).agenda = s.agenda := rfl
@[simp] theorem setChan_posts (s : State) (c : Nat) (x : Channel) : (s.setChan c x).posts = s.posts := rfl
@[simp] theorem setChan_want (s : State) (c : Nat) (x : Channel) : (s.setChan c x).want = s.want := rfl
@[simp] theorem setChan_nextOp (s : State) (c : Nat) (x : Channel) : (s.setChan c x).nextOp = s.nextOp := rfl
@[simp] theorem setChan_nextDev (s : State) (c : Nat) (x : Channel) : (s.setChan c x).nextDev = s.nextDev := rfl
@[simp] theorem setChan_nextCv (s : State) (c : Nat) (x : Channel) : (s.setChan c x).nextCv = s.nextCv := rfl
@[simp] theorem setChan_clock (s : State) (c : Nat) (x : Channel) : (s.setChan c x).clock = s.clock := rfl
@[simp] theorem setChan_freeCtr (s : State) (c : Nat) (x : Channel) : (s.setChan c x).freeCtr = s.freeCtr := rfl
@[simp] theorem setChan_cv (s : State) (c : Nat) (x : Channel) (j i : Nat) : (s.setChan c x).cv j i = s.cv j i := rfl
@[simp] theorem setChan_core (s : State) (c : Nat) (x : Channel) (j : Nat) : (s.setChan c x).core j = s.core j := rfl
@[simp] theorem setChan_die (s : State) (c : Nat) (x : Channel) (j : Nat) : (s.setChan c x).die j = s.die j := rfl
@[simp] theorem setChan_ctx (s : State) (c : Nat) (x : Channel) (j : Nat) : (s.setChan c x).ctx j = s.ctx j := rfl
@[simp] theorem setChan_executor (s : State) (c : Nat) (x : Channel) (j : Nat) : (s.setChan c x).executor j = s.executor j := rfl
@[simp] theorem setChan_sector (s : State) (c : Nat) (x : Channel) (j : Nat) : (s.setChan c x).sector j = s.sector j := rfl
@[simp] theorem setChan_extent (s : State) (c : Nat) (x : Channel) (j : Nat) : (s.setChan c x).extent j = s.extent j := rfl
@[simp] theorem setChan_port (s : State) (c : Nat) (x : Channel) (j : Nat) : (s.setChan c x).port j = s.port j := rfl
@[simp] theorem setChan_comm (s : State) (c : Nat) (x : Channel) (j i : Nat) : (s.setChan c x).comm j i = s.comm j i := rfl
@[simp] theorem setChan_keySlot (s : State) (c : Nat) (x : Channel) (j : Nat) : (s.setChan c x).keySlot j = s.keySlot j := rfl
@[simp] theorem setChan_tile (s : State) (c : Nat) (x : Channel) (j i : Nat) : (s.setChan c x).tile j i = s.tile j i := rfl
@[simp] theorem setChan_party (s : State) (c : Nat) (x : Channel) (j i : Nat) : (s.setChan c x).party j i = s.party j i := rfl

/-! ## setExecutor -/

@[simp] theorem setExecutor_dev (s : State) (n : Nat) (x : Executor) : (s.setExecutor n x).dev = s.dev := rfl
@[simp] theorem setExecutor_mem (s : State) (n : Nat) (x : Executor) : (s.setExecutor n x).mem = s.mem := rfl
@[simp] theorem setExecutor_sectors (s : State) (n : Nat) (x : Executor) : (s.setExecutor n x).sectors = s.sectors := rfl
@[simp] theorem setExecutor_ctxs (s : State) (n : Nat) (x : Executor) : (s.setExecutor n x).ctxs = s.ctxs := rfl
@[simp] theorem setExecutor_cores (s : State) (n : Nat) (x : Executor) : (s.setExecutor n x).cores = s.cores := rfl
@[simp] theorem setExecutor_dies (s : State) (n : Nat) (x : Executor) : (s.setExecutor n x).dies = s.dies := rfl
@[simp] theorem setExecutor_cvs (s : State) (n : Nat) (x : Executor) : (s.setExecutor n x).cvs = s.cvs := rfl
@[simp] theorem setExecutor_ops (s : State) (n : Nat) (x : Executor) : (s.setExecutor n x).ops = s.ops := rfl
@[simp] theorem setExecutor_parks (s : State) (n : Nat) (x : Executor) : (s.setExecutor n x).parks = s.parks := rfl
@[simp] theorem setExecutor_veils (s : State) (n : Nat) (x : Executor) : (s.setExecutor n x).veils = s.veils := rfl
@[simp] theorem setExecutor_chans (s : State) (n : Nat) (x : Executor) : (s.setExecutor n x).chans = s.chans := rfl
@[simp] theorem setExecutor_extents (s : State) (n : Nat) (x : Executor) : (s.setExecutor n x).extents = s.extents := rfl
@[simp] theorem setExecutor_fab (s : State) (n : Nat) (x : Executor) : (s.setExecutor n x).fab = s.fab := rfl
@[simp] theorem setExecutor_cur (s : State) (n : Nat) (x : Executor) : (s.setExecutor n x).cur = s.cur := rfl
@[simp] theorem setExecutor_bank (s : State) (n : Nat) (x : Executor) : (s.setExecutor n x).bank = s.bank := rfl
@[simp] theorem setExecutor_advOpen (s : State) (n : Nat) (x : Executor) : (s.setExecutor n x).advOpen = s.advOpen := rfl
@[simp] theorem setExecutor_advTodo (s : State) (n : Nat) (x : Executor) : (s.setExecutor n x).advTodo = s.advTodo := rfl
@[simp] theorem setExecutor_agenda (s : State) (n : Nat) (x : Executor) : (s.setExecutor n x).agenda = s.agenda := rfl
@[simp] theorem setExecutor_posts (s : State) (n : Nat) (x : Executor) : (s.setExecutor n x).posts = s.posts := rfl
@[simp] theorem setExecutor_want (s : State) (n : Nat) (x : Executor) : (s.setExecutor n x).want = s.want := rfl
@[simp] theorem setExecutor_nextOp (s : State) (n : Nat) (x : Executor) : (s.setExecutor n x).nextOp = s.nextOp := rfl
@[simp] theorem setExecutor_nextDev (s : State) (n : Nat) (x : Executor) : (s.setExecutor n x).nextDev = s.nextDev := rfl
@[simp] theorem setExecutor_nextCv (s : State) (n : Nat) (x : Executor) : (s.setExecutor n x).nextCv = s.nextCv := rfl
@[simp] theorem setExecutor_clock (s : State) (n : Nat) (x : Executor) : (s.setExecutor n x).clock = s.clock := rfl
@[simp] theorem setExecutor_freeCtr (s : State) (n : Nat) (x : Executor) : (s.setExecutor n x).freeCtr = s.freeCtr := rfl
@[simp] theorem setExecutor_cv (s : State) (n : Nat) (x : Executor) (j i : Nat) : (s.setExecutor n x).cv j i = s.cv j i := rfl
@[simp] theorem setExecutor_core (s : State) (n : Nat) (x : Executor) (j : Nat) : (s.setExecutor n x).core j = s.core j := rfl
@[simp] theorem setExecutor_die (s : State) (n : Nat) (x : Executor) (j : Nat) : (s.setExecutor n x).die j = s.die j := rfl
@[simp] theorem setExecutor_ctx (s : State) (n : Nat) (x : Executor) (j : Nat) : (s.setExecutor n x).ctx j = s.ctx j := rfl
@[simp] theorem setExecutor_chan (s : State) (n : Nat) (x : Executor) (j : Nat) : (s.setExecutor n x).chan j = s.chan j := rfl
@[simp] theorem setExecutor_sector (s : State) (n : Nat) (x : Executor) (j : Nat) : (s.setExecutor n x).sector j = s.sector j := rfl
@[simp] theorem setExecutor_extent (s : State) (n : Nat) (x : Executor) (j : Nat) : (s.setExecutor n x).extent j = s.extent j := rfl
@[simp] theorem setExecutor_port (s : State) (n : Nat) (x : Executor) (j : Nat) : (s.setExecutor n x).port j = s.port j := rfl
@[simp] theorem setExecutor_comm (s : State) (n : Nat) (x : Executor) (j i : Nat) : (s.setExecutor n x).comm j i = s.comm j i := rfl
@[simp] theorem setExecutor_keySlot (s : State) (n : Nat) (x : Executor) (j : Nat) : (s.setExecutor n x).keySlot j = s.keySlot j := rfl
@[simp] theorem setExecutor_tile (s : State) (n : Nat) (x : Executor) (j i : Nat) : (s.setExecutor n x).tile j i = s.tile j i := rfl
@[simp] theorem setExecutor_party (s : State) (n : Nat) (x : Executor) (j i : Nat) : (s.setExecutor n x).party j i = s.party j i := rfl

/-! ## setSector -/

@[simp] theorem setSector_dev (s : State) (n : Nat) (x : Sector) : (s.setSector n x).dev = s.dev := rfl
@[simp] theorem setSector_mem (s : State) (n : Nat) (x : Sector) : (s.setSector n x).mem = s.mem := rfl
@[simp] theorem setSector_ctxs (s : State) (n : Nat) (x : Sector) : (s.setSector n x).ctxs = s.ctxs := rfl
@[simp] theorem setSector_cores (s : State) (n : Nat) (x : Sector) : (s.setSector n x).cores = s.cores := rfl
@[simp] theorem setSector_dies (s : State) (n : Nat) (x : Sector) : (s.setSector n x).dies = s.dies := rfl
@[simp] theorem setSector_cvs (s : State) (n : Nat) (x : Sector) : (s.setSector n x).cvs = s.cvs := rfl
@[simp] theorem setSector_ops (s : State) (n : Nat) (x : Sector) : (s.setSector n x).ops = s.ops := rfl
@[simp] theorem setSector_parks (s : State) (n : Nat) (x : Sector) : (s.setSector n x).parks = s.parks := rfl
@[simp] theorem setSector_veils (s : State) (n : Nat) (x : Sector) : (s.setSector n x).veils = s.veils := rfl
@[simp] theorem setSector_chans (s : State) (n : Nat) (x : Sector) : (s.setSector n x).chans = s.chans := rfl
@[simp] theorem setSector_execs (s : State) (n : Nat) (x : Sector) : (s.setSector n x).execs = s.execs := rfl
@[simp] theorem setSector_extents (s : State) (n : Nat) (x : Sector) : (s.setSector n x).extents = s.extents := rfl
@[simp] theorem setSector_fab (s : State) (n : Nat) (x : Sector) : (s.setSector n x).fab = s.fab := rfl
@[simp] theorem setSector_cur (s : State) (n : Nat) (x : Sector) : (s.setSector n x).cur = s.cur := rfl
@[simp] theorem setSector_bank (s : State) (n : Nat) (x : Sector) : (s.setSector n x).bank = s.bank := rfl
@[simp] theorem setSector_advOpen (s : State) (n : Nat) (x : Sector) : (s.setSector n x).advOpen = s.advOpen := rfl
@[simp] theorem setSector_advTodo (s : State) (n : Nat) (x : Sector) : (s.setSector n x).advTodo = s.advTodo := rfl
@[simp] theorem setSector_agenda (s : State) (n : Nat) (x : Sector) : (s.setSector n x).agenda = s.agenda := rfl
@[simp] theorem setSector_posts (s : State) (n : Nat) (x : Sector) : (s.setSector n x).posts = s.posts := rfl
@[simp] theorem setSector_want (s : State) (n : Nat) (x : Sector) : (s.setSector n x).want = s.want := rfl
@[simp] theorem setSector_nextOp (s : State) (n : Nat) (x : Sector) : (s.setSector n x).nextOp = s.nextOp := rfl
@[simp] theorem setSector_nextDev (s : State) (n : Nat) (x : Sector) : (s.setSector n x).nextDev = s.nextDev := rfl
@[simp] theorem setSector_nextCv (s : State) (n : Nat) (x : Sector) : (s.setSector n x).nextCv = s.nextCv := rfl
@[simp] theorem setSector_clock (s : State) (n : Nat) (x : Sector) : (s.setSector n x).clock = s.clock := rfl
@[simp] theorem setSector_freeCtr (s : State) (n : Nat) (x : Sector) : (s.setSector n x).freeCtr = s.freeCtr := rfl
@[simp] theorem setSector_cv (s : State) (n : Nat) (x : Sector) (j i : Nat) : (s.setSector n x).cv j i = s.cv j i := rfl
@[simp] theorem setSector_core (s : State) (n : Nat) (x : Sector) (j : Nat) : (s.setSector n x).core j = s.core j := rfl
@[simp] theorem setSector_die (s : State) (n : Nat) (x : Sector) (j : Nat) : (s.setSector n x).die j = s.die j := rfl
@[simp] theorem setSector_ctx (s : State) (n : Nat) (x : Sector) (j : Nat) : (s.setSector n x).ctx j = s.ctx j := rfl
@[simp] theorem setSector_chan (s : State) (n : Nat) (x : Sector) (j : Nat) : (s.setSector n x).chan j = s.chan j := rfl
@[simp] theorem setSector_executor (s : State) (n : Nat) (x : Sector) (j : Nat) : (s.setSector n x).executor j = s.executor j := rfl
@[simp] theorem setSector_extent (s : State) (n : Nat) (x : Sector) (j : Nat) : (s.setSector n x).extent j = s.extent j := rfl
@[simp] theorem setSector_port (s : State) (n : Nat) (x : Sector) (j : Nat) : (s.setSector n x).port j = s.port j := rfl
@[simp] theorem setSector_comm (s : State) (n : Nat) (x : Sector) (j i : Nat) : (s.setSector n x).comm j i = s.comm j i := rfl
@[simp] theorem setSector_keySlot (s : State) (n : Nat) (x : Sector) (j : Nat) : (s.setSector n x).keySlot j = s.keySlot j := rfl
@[simp] theorem setSector_tile (s : State) (n : Nat) (x : Sector) (j i : Nat) : (s.setSector n x).tile j i = s.tile j i := rfl
@[simp] theorem setSector_party (s : State) (n : Nat) (x : Sector) (j i : Nat) : (s.setSector n x).party j i = s.party j i := rfl

/-! ## setExtent -/

@[simp] theorem setExtent_dev (s : State) (n : Nat) (x : Extent) : (s.setExtent n x).dev = s.dev := rfl
@[simp] theorem setExtent_mem (s : State) (n : Nat) (x : Extent) : (s.setExtent n x).mem = s.mem := rfl
@[simp] theorem setExtent_sectors (s : State) (n : Nat) (x : Extent) : (s.setExtent n x).sectors = s.sectors := rfl
@[simp] theorem setExtent_ctxs (s : State) (n : Nat) (x : Extent) : (s.setExtent n x).ctxs = s.ctxs := rfl
@[simp] theorem setExtent_cores (s : State) (n : Nat) (x : Extent) : (s.setExtent n x).cores = s.cores := rfl
@[simp] theorem setExtent_dies (s : State) (n : Nat) (x : Extent) : (s.setExtent n x).dies = s.dies := rfl
@[simp] theorem setExtent_cvs (s : State) (n : Nat) (x : Extent) : (s.setExtent n x).cvs = s.cvs := rfl
@[simp] theorem setExtent_ops (s : State) (n : Nat) (x : Extent) : (s.setExtent n x).ops = s.ops := rfl
@[simp] theorem setExtent_parks (s : State) (n : Nat) (x : Extent) : (s.setExtent n x).parks = s.parks := rfl
@[simp] theorem setExtent_veils (s : State) (n : Nat) (x : Extent) : (s.setExtent n x).veils = s.veils := rfl
@[simp] theorem setExtent_chans (s : State) (n : Nat) (x : Extent) : (s.setExtent n x).chans = s.chans := rfl
@[simp] theorem setExtent_execs (s : State) (n : Nat) (x : Extent) : (s.setExtent n x).execs = s.execs := rfl
@[simp] theorem setExtent_fab (s : State) (n : Nat) (x : Extent) : (s.setExtent n x).fab = s.fab := rfl
@[simp] theorem setExtent_cur (s : State) (n : Nat) (x : Extent) : (s.setExtent n x).cur = s.cur := rfl
@[simp] theorem setExtent_bank (s : State) (n : Nat) (x : Extent) : (s.setExtent n x).bank = s.bank := rfl
@[simp] theorem setExtent_advOpen (s : State) (n : Nat) (x : Extent) : (s.setExtent n x).advOpen = s.advOpen := rfl
@[simp] theorem setExtent_advTodo (s : State) (n : Nat) (x : Extent) : (s.setExtent n x).advTodo = s.advTodo := rfl
@[simp] theorem setExtent_agenda (s : State) (n : Nat) (x : Extent) : (s.setExtent n x).agenda = s.agenda := rfl
@[simp] theorem setExtent_posts (s : State) (n : Nat) (x : Extent) : (s.setExtent n x).posts = s.posts := rfl
@[simp] theorem setExtent_want (s : State) (n : Nat) (x : Extent) : (s.setExtent n x).want = s.want := rfl
@[simp] theorem setExtent_nextOp (s : State) (n : Nat) (x : Extent) : (s.setExtent n x).nextOp = s.nextOp := rfl
@[simp] theorem setExtent_nextDev (s : State) (n : Nat) (x : Extent) : (s.setExtent n x).nextDev = s.nextDev := rfl
@[simp] theorem setExtent_nextCv (s : State) (n : Nat) (x : Extent) : (s.setExtent n x).nextCv = s.nextCv := rfl
@[simp] theorem setExtent_clock (s : State) (n : Nat) (x : Extent) : (s.setExtent n x).clock = s.clock := rfl
@[simp] theorem setExtent_freeCtr (s : State) (n : Nat) (x : Extent) : (s.setExtent n x).freeCtr = s.freeCtr := rfl
@[simp] theorem setExtent_cv (s : State) (n : Nat) (x : Extent) (j i : Nat) : (s.setExtent n x).cv j i = s.cv j i := rfl
@[simp] theorem setExtent_core (s : State) (n : Nat) (x : Extent) (j : Nat) : (s.setExtent n x).core j = s.core j := rfl
@[simp] theorem setExtent_die (s : State) (n : Nat) (x : Extent) (j : Nat) : (s.setExtent n x).die j = s.die j := rfl
@[simp] theorem setExtent_ctx (s : State) (n : Nat) (x : Extent) (j : Nat) : (s.setExtent n x).ctx j = s.ctx j := rfl
@[simp] theorem setExtent_chan (s : State) (n : Nat) (x : Extent) (j : Nat) : (s.setExtent n x).chan j = s.chan j := rfl
@[simp] theorem setExtent_executor (s : State) (n : Nat) (x : Extent) (j : Nat) : (s.setExtent n x).executor j = s.executor j := rfl
@[simp] theorem setExtent_sector (s : State) (n : Nat) (x : Extent) (j : Nat) : (s.setExtent n x).sector j = s.sector j := rfl
@[simp] theorem setExtent_port (s : State) (n : Nat) (x : Extent) (j : Nat) : (s.setExtent n x).port j = s.port j := rfl
@[simp] theorem setExtent_comm (s : State) (n : Nat) (x : Extent) (j i : Nat) : (s.setExtent n x).comm j i = s.comm j i := rfl
@[simp] theorem setExtent_keySlot (s : State) (n : Nat) (x : Extent) (j : Nat) : (s.setExtent n x).keySlot j = s.keySlot j := rfl
@[simp] theorem setExtent_tile (s : State) (n : Nat) (x : Extent) (j i : Nat) : (s.setExtent n x).tile j i = s.tile j i := rfl
@[simp] theorem setExtent_party (s : State) (n : Nat) (x : Extent) (j i : Nat) : (s.setExtent n x).party j i = s.party j i := rfl

/-! ## setPort -/

@[simp] theorem setPort_dev (s : State) (p : Nat) (x : Port) : (s.setPort p x).dev = s.dev := rfl
@[simp] theorem setPort_mem (s : State) (p : Nat) (x : Port) : (s.setPort p x).mem = s.mem := rfl
@[simp] theorem setPort_sectors (s : State) (p : Nat) (x : Port) : (s.setPort p x).sectors = s.sectors := rfl
@[simp] theorem setPort_ctxs (s : State) (p : Nat) (x : Port) : (s.setPort p x).ctxs = s.ctxs := rfl
@[simp] theorem setPort_cores (s : State) (p : Nat) (x : Port) : (s.setPort p x).cores = s.cores := rfl
@[simp] theorem setPort_dies (s : State) (p : Nat) (x : Port) : (s.setPort p x).dies = s.dies := rfl
@[simp] theorem setPort_cvs (s : State) (p : Nat) (x : Port) : (s.setPort p x).cvs = s.cvs := rfl
@[simp] theorem setPort_ops (s : State) (p : Nat) (x : Port) : (s.setPort p x).ops = s.ops := rfl
@[simp] theorem setPort_parks (s : State) (p : Nat) (x : Port) : (s.setPort p x).parks = s.parks := rfl
@[simp] theorem setPort_veils (s : State) (p : Nat) (x : Port) : (s.setPort p x).veils = s.veils := rfl
@[simp] theorem setPort_chans (s : State) (p : Nat) (x : Port) : (s.setPort p x).chans = s.chans := rfl
@[simp] theorem setPort_execs (s : State) (p : Nat) (x : Port) : (s.setPort p x).execs = s.execs := rfl
@[simp] theorem setPort_extents (s : State) (p : Nat) (x : Port) : (s.setPort p x).extents = s.extents := rfl
@[simp] theorem setPort_cur (s : State) (p : Nat) (x : Port) : (s.setPort p x).cur = s.cur := rfl
@[simp] theorem setPort_bank (s : State) (p : Nat) (x : Port) : (s.setPort p x).bank = s.bank := rfl
@[simp] theorem setPort_advOpen (s : State) (p : Nat) (x : Port) : (s.setPort p x).advOpen = s.advOpen := rfl
@[simp] theorem setPort_advTodo (s : State) (p : Nat) (x : Port) : (s.setPort p x).advTodo = s.advTodo := rfl
@[simp] theorem setPort_agenda (s : State) (p : Nat) (x : Port) : (s.setPort p x).agenda = s.agenda := rfl
@[simp] theorem setPort_posts (s : State) (p : Nat) (x : Port) : (s.setPort p x).posts = s.posts := rfl
@[simp] theorem setPort_want (s : State) (p : Nat) (x : Port) : (s.setPort p x).want = s.want := rfl
@[simp] theorem setPort_nextOp (s : State) (p : Nat) (x : Port) : (s.setPort p x).nextOp = s.nextOp := rfl
@[simp] theorem setPort_nextDev (s : State) (p : Nat) (x : Port) : (s.setPort p x).nextDev = s.nextDev := rfl
@[simp] theorem setPort_nextCv (s : State) (p : Nat) (x : Port) : (s.setPort p x).nextCv = s.nextCv := rfl
@[simp] theorem setPort_clock (s : State) (p : Nat) (x : Port) : (s.setPort p x).clock = s.clock := rfl
@[simp] theorem setPort_freeCtr (s : State) (p : Nat) (x : Port) : (s.setPort p x).freeCtr = s.freeCtr := rfl
@[simp] theorem setPort_cv (s : State) (p : Nat) (x : Port) (j i : Nat) : (s.setPort p x).cv j i = s.cv j i := rfl
@[simp] theorem setPort_core (s : State) (p : Nat) (x : Port) (j : Nat) : (s.setPort p x).core j = s.core j := rfl
@[simp] theorem setPort_die (s : State) (p : Nat) (x : Port) (j : Nat) : (s.setPort p x).die j = s.die j := rfl
@[simp] theorem setPort_ctx (s : State) (p : Nat) (x : Port) (j : Nat) : (s.setPort p x).ctx j = s.ctx j := rfl
@[simp] theorem setPort_chan (s : State) (p : Nat) (x : Port) (j : Nat) : (s.setPort p x).chan j = s.chan j := rfl
@[simp] theorem setPort_executor (s : State) (p : Nat) (x : Port) (j : Nat) : (s.setPort p x).executor j = s.executor j := rfl
@[simp] theorem setPort_sector (s : State) (p : Nat) (x : Port) (j : Nat) : (s.setPort p x).sector j = s.sector j := rfl
@[simp] theorem setPort_extent (s : State) (p : Nat) (x : Port) (j : Nat) : (s.setPort p x).extent j = s.extent j := rfl
@[simp] theorem setPort_keySlot (s : State) (p : Nat) (x : Port) (j : Nat) : (s.setPort p x).keySlot j = s.keySlot j := rfl
@[simp] theorem setPort_tile (s : State) (p : Nat) (x : Port) (j i : Nat) : (s.setPort p x).tile j i = s.tile j i := rfl
@[simp] theorem setPort_party (s : State) (p : Nat) (x : Port) (j i : Nat) : (s.setPort p x).party j i = s.party j i := rfl

/-! ## setComm -/

@[simp] theorem setComm_dev (s : State) (c k : Nat) (x : Comm) : (s.setComm c k x).dev = s.dev := rfl
@[simp] theorem setComm_mem (s : State) (c k : Nat) (x : Comm) : (s.setComm c k x).mem = s.mem := rfl
@[simp] theorem setComm_sectors (s : State) (c k : Nat) (x : Comm) : (s.setComm c k x).sectors = s.sectors := rfl
@[simp] theorem setComm_ctxs (s : State) (c k : Nat) (x : Comm) : (s.setComm c k x).ctxs = s.ctxs := rfl
@[simp] theorem setComm_cores (s : State) (c k : Nat) (x : Comm) : (s.setComm c k x).cores = s.cores := rfl
@[simp] theorem setComm_dies (s : State) (c k : Nat) (x : Comm) : (s.setComm c k x).dies = s.dies := rfl
@[simp] theorem setComm_cvs (s : State) (c k : Nat) (x : Comm) : (s.setComm c k x).cvs = s.cvs := rfl
@[simp] theorem setComm_ops (s : State) (c k : Nat) (x : Comm) : (s.setComm c k x).ops = s.ops := rfl
@[simp] theorem setComm_parks (s : State) (c k : Nat) (x : Comm) : (s.setComm c k x).parks = s.parks := rfl
@[simp] theorem setComm_veils (s : State) (c k : Nat) (x : Comm) : (s.setComm c k x).veils = s.veils := rfl
@[simp] theorem setComm_chans (s : State) (c k : Nat) (x : Comm) : (s.setComm c k x).chans = s.chans := rfl
@[simp] theorem setComm_execs (s : State) (c k : Nat) (x : Comm) : (s.setComm c k x).execs = s.execs := rfl
@[simp] theorem setComm_extents (s : State) (c k : Nat) (x : Comm) : (s.setComm c k x).extents = s.extents := rfl
@[simp] theorem setComm_cur (s : State) (c k : Nat) (x : Comm) : (s.setComm c k x).cur = s.cur := rfl
@[simp] theorem setComm_bank (s : State) (c k : Nat) (x : Comm) : (s.setComm c k x).bank = s.bank := rfl
@[simp] theorem setComm_advOpen (s : State) (c k : Nat) (x : Comm) : (s.setComm c k x).advOpen = s.advOpen := rfl
@[simp] theorem setComm_advTodo (s : State) (c k : Nat) (x : Comm) : (s.setComm c k x).advTodo = s.advTodo := rfl
@[simp] theorem setComm_agenda (s : State) (c k : Nat) (x : Comm) : (s.setComm c k x).agenda = s.agenda := rfl
@[simp] theorem setComm_posts (s : State) (c k : Nat) (x : Comm) : (s.setComm c k x).posts = s.posts := rfl
@[simp] theorem setComm_want (s : State) (c k : Nat) (x : Comm) : (s.setComm c k x).want = s.want := rfl
@[simp] theorem setComm_nextOp (s : State) (c k : Nat) (x : Comm) : (s.setComm c k x).nextOp = s.nextOp := rfl
@[simp] theorem setComm_nextDev (s : State) (c k : Nat) (x : Comm) : (s.setComm c k x).nextDev = s.nextDev := rfl
@[simp] theorem setComm_nextCv (s : State) (c k : Nat) (x : Comm) : (s.setComm c k x).nextCv = s.nextCv := rfl
@[simp] theorem setComm_clock (s : State) (c k : Nat) (x : Comm) : (s.setComm c k x).clock = s.clock := rfl
@[simp] theorem setComm_freeCtr (s : State) (c k : Nat) (x : Comm) : (s.setComm c k x).freeCtr = s.freeCtr := rfl
@[simp] theorem setComm_cv (s : State) (c k : Nat) (x : Comm) (j i : Nat) : (s.setComm c k x).cv j i = s.cv j i := rfl
@[simp] theorem setComm_core (s : State) (c k : Nat) (x : Comm) (j : Nat) : (s.setComm c k x).core j = s.core j := rfl
@[simp] theorem setComm_die (s : State) (c k : Nat) (x : Comm) (j : Nat) : (s.setComm c k x).die j = s.die j := rfl
@[simp] theorem setComm_ctx (s : State) (c k : Nat) (x : Comm) (j : Nat) : (s.setComm c k x).ctx j = s.ctx j := rfl
@[simp] theorem setComm_chan (s : State) (c k : Nat) (x : Comm) (j : Nat) : (s.setComm c k x).chan j = s.chan j := rfl
@[simp] theorem setComm_executor (s : State) (c k : Nat) (x : Comm) (j : Nat) : (s.setComm c k x).executor j = s.executor j := rfl
@[simp] theorem setComm_sector (s : State) (c k : Nat) (x : Comm) (j : Nat) : (s.setComm c k x).sector j = s.sector j := rfl
@[simp] theorem setComm_extent (s : State) (c k : Nat) (x : Comm) (j : Nat) : (s.setComm c k x).extent j = s.extent j := rfl
@[simp] theorem setComm_keySlot (s : State) (c k : Nat) (x : Comm) (j : Nat) : (s.setComm c k x).keySlot j = s.keySlot j := rfl
@[simp] theorem setComm_tile (s : State) (c k : Nat) (x : Comm) (j i : Nat) : (s.setComm c k x).tile j i = s.tile j i := rfl
@[simp] theorem setComm_party (s : State) (c k : Nat) (x : Comm) (j i : Nat) : (s.setComm c k x).party j i = s.party j i := rfl

/-! ## setTile -/

@[simp] theorem setTile_dev (s : State) (k t : Nat) (x : Tile) : (s.setTile k t x).dev = s.dev := rfl
@[simp] theorem setTile_mem (s : State) (k t : Nat) (x : Tile) : (s.setTile k t x).mem = s.mem := rfl
@[simp] theorem setTile_sectors (s : State) (k t : Nat) (x : Tile) : (s.setTile k t x).sectors = s.sectors := rfl
@[simp] theorem setTile_ctxs (s : State) (k t : Nat) (x : Tile) : (s.setTile k t x).ctxs = s.ctxs := rfl
@[simp] theorem setTile_dies (s : State) (k t : Nat) (x : Tile) : (s.setTile k t x).dies = s.dies := rfl
@[simp] theorem setTile_cvs (s : State) (k t : Nat) (x : Tile) : (s.setTile k t x).cvs = s.cvs := rfl
@[simp] theorem setTile_ops (s : State) (k t : Nat) (x : Tile) : (s.setTile k t x).ops = s.ops := rfl
@[simp] theorem setTile_parks (s : State) (k t : Nat) (x : Tile) : (s.setTile k t x).parks = s.parks := rfl
@[simp] theorem setTile_veils (s : State) (k t : Nat) (x : Tile) : (s.setTile k t x).veils = s.veils := rfl
@[simp] theorem setTile_chans (s : State) (k t : Nat) (x : Tile) : (s.setTile k t x).chans = s.chans := rfl
@[simp] theorem setTile_execs (s : State) (k t : Nat) (x : Tile) : (s.setTile k t x).execs = s.execs := rfl
@[simp] theorem setTile_extents (s : State) (k t : Nat) (x : Tile) : (s.setTile k t x).extents = s.extents := rfl
@[simp] theorem setTile_fab (s : State) (k t : Nat) (x : Tile) : (s.setTile k t x).fab = s.fab := rfl
@[simp] theorem setTile_cur (s : State) (k t : Nat) (x : Tile) : (s.setTile k t x).cur = s.cur := rfl
@[simp] theorem setTile_bank (s : State) (k t : Nat) (x : Tile) : (s.setTile k t x).bank = s.bank := rfl
@[simp] theorem setTile_advOpen (s : State) (k t : Nat) (x : Tile) : (s.setTile k t x).advOpen = s.advOpen := rfl
@[simp] theorem setTile_advTodo (s : State) (k t : Nat) (x : Tile) : (s.setTile k t x).advTodo = s.advTodo := rfl
@[simp] theorem setTile_agenda (s : State) (k t : Nat) (x : Tile) : (s.setTile k t x).agenda = s.agenda := rfl
@[simp] theorem setTile_posts (s : State) (k t : Nat) (x : Tile) : (s.setTile k t x).posts = s.posts := rfl
@[simp] theorem setTile_want (s : State) (k t : Nat) (x : Tile) : (s.setTile k t x).want = s.want := rfl
@[simp] theorem setTile_nextOp (s : State) (k t : Nat) (x : Tile) : (s.setTile k t x).nextOp = s.nextOp := rfl
@[simp] theorem setTile_nextDev (s : State) (k t : Nat) (x : Tile) : (s.setTile k t x).nextDev = s.nextDev := rfl
@[simp] theorem setTile_nextCv (s : State) (k t : Nat) (x : Tile) : (s.setTile k t x).nextCv = s.nextCv := rfl
@[simp] theorem setTile_clock (s : State) (k t : Nat) (x : Tile) : (s.setTile k t x).clock = s.clock := rfl
@[simp] theorem setTile_freeCtr (s : State) (k t : Nat) (x : Tile) : (s.setTile k t x).freeCtr = s.freeCtr := rfl
@[simp] theorem setTile_cv (s : State) (k t : Nat) (x : Tile) (j i : Nat) : (s.setTile k t x).cv j i = s.cv j i := rfl
@[simp] theorem setTile_die (s : State) (k t : Nat) (x : Tile) (j : Nat) : (s.setTile k t x).die j = s.die j := rfl
@[simp] theorem setTile_ctx (s : State) (k t : Nat) (x : Tile) (j : Nat) : (s.setTile k t x).ctx j = s.ctx j := rfl
@[simp] theorem setTile_chan (s : State) (k t : Nat) (x : Tile) (j : Nat) : (s.setTile k t x).chan j = s.chan j := rfl
@[simp] theorem setTile_executor (s : State) (k t : Nat) (x : Tile) (j : Nat) : (s.setTile k t x).executor j = s.executor j := rfl
@[simp] theorem setTile_sector (s : State) (k t : Nat) (x : Tile) (j : Nat) : (s.setTile k t x).sector j = s.sector j := rfl
@[simp] theorem setTile_extent (s : State) (k t : Nat) (x : Tile) (j : Nat) : (s.setTile k t x).extent j = s.extent j := rfl
@[simp] theorem setTile_port (s : State) (k t : Nat) (x : Tile) (j : Nat) : (s.setTile k t x).port j = s.port j := rfl
@[simp] theorem setTile_comm (s : State) (k t : Nat) (x : Tile) (j i : Nat) : (s.setTile k t x).comm j i = s.comm j i := rfl
@[simp] theorem setTile_keySlot (s : State) (k t : Nat) (x : Tile) (j : Nat) : (s.setTile k t x).keySlot j = s.keySlot j := rfl

/-! ## setParty -/

@[simp] theorem setParty_dev (s : State) (k e : Nat) (x : Party) : (s.setParty k e x).dev = s.dev := rfl
@[simp] theorem setParty_mem (s : State) (k e : Nat) (x : Party) : (s.setParty k e x).mem = s.mem := rfl
@[simp] theorem setParty_sectors (s : State) (k e : Nat) (x : Party) : (s.setParty k e x).sectors = s.sectors := rfl
@[simp] theorem setParty_ctxs (s : State) (k e : Nat) (x : Party) : (s.setParty k e x).ctxs = s.ctxs := rfl
@[simp] theorem setParty_dies (s : State) (k e : Nat) (x : Party) : (s.setParty k e x).dies = s.dies := rfl
@[simp] theorem setParty_cvs (s : State) (k e : Nat) (x : Party) : (s.setParty k e x).cvs = s.cvs := rfl
@[simp] theorem setParty_ops (s : State) (k e : Nat) (x : Party) : (s.setParty k e x).ops = s.ops := rfl
@[simp] theorem setParty_parks (s : State) (k e : Nat) (x : Party) : (s.setParty k e x).parks = s.parks := rfl
@[simp] theorem setParty_veils (s : State) (k e : Nat) (x : Party) : (s.setParty k e x).veils = s.veils := rfl
@[simp] theorem setParty_chans (s : State) (k e : Nat) (x : Party) : (s.setParty k e x).chans = s.chans := rfl
@[simp] theorem setParty_execs (s : State) (k e : Nat) (x : Party) : (s.setParty k e x).execs = s.execs := rfl
@[simp] theorem setParty_extents (s : State) (k e : Nat) (x : Party) : (s.setParty k e x).extents = s.extents := rfl
@[simp] theorem setParty_fab (s : State) (k e : Nat) (x : Party) : (s.setParty k e x).fab = s.fab := rfl
@[simp] theorem setParty_cur (s : State) (k e : Nat) (x : Party) : (s.setParty k e x).cur = s.cur := rfl
@[simp] theorem setParty_bank (s : State) (k e : Nat) (x : Party) : (s.setParty k e x).bank = s.bank := rfl
@[simp] theorem setParty_advOpen (s : State) (k e : Nat) (x : Party) : (s.setParty k e x).advOpen = s.advOpen := rfl
@[simp] theorem setParty_advTodo (s : State) (k e : Nat) (x : Party) : (s.setParty k e x).advTodo = s.advTodo := rfl
@[simp] theorem setParty_agenda (s : State) (k e : Nat) (x : Party) : (s.setParty k e x).agenda = s.agenda := rfl
@[simp] theorem setParty_posts (s : State) (k e : Nat) (x : Party) : (s.setParty k e x).posts = s.posts := rfl
@[simp] theorem setParty_want (s : State) (k e : Nat) (x : Party) : (s.setParty k e x).want = s.want := rfl
@[simp] theorem setParty_nextOp (s : State) (k e : Nat) (x : Party) : (s.setParty k e x).nextOp = s.nextOp := rfl
@[simp] theorem setParty_nextDev (s : State) (k e : Nat) (x : Party) : (s.setParty k e x).nextDev = s.nextDev := rfl
@[simp] theorem setParty_nextCv (s : State) (k e : Nat) (x : Party) : (s.setParty k e x).nextCv = s.nextCv := rfl
@[simp] theorem setParty_clock (s : State) (k e : Nat) (x : Party) : (s.setParty k e x).clock = s.clock := rfl
@[simp] theorem setParty_freeCtr (s : State) (k e : Nat) (x : Party) : (s.setParty k e x).freeCtr = s.freeCtr := rfl
@[simp] theorem setParty_cv (s : State) (k e : Nat) (x : Party) (j i : Nat) : (s.setParty k e x).cv j i = s.cv j i := rfl
@[simp] theorem setParty_die (s : State) (k e : Nat) (x : Party) (j : Nat) : (s.setParty k e x).die j = s.die j := rfl
@[simp] theorem setParty_ctx (s : State) (k e : Nat) (x : Party) (j : Nat) : (s.setParty k e x).ctx j = s.ctx j := rfl
@[simp] theorem setParty_chan (s : State) (k e : Nat) (x : Party) (j : Nat) : (s.setParty k e x).chan j = s.chan j := rfl
@[simp] theorem setParty_executor (s : State) (k e : Nat) (x : Party) (j : Nat) : (s.setParty k e x).executor j = s.executor j := rfl
@[simp] theorem setParty_sector (s : State) (k e : Nat) (x : Party) (j : Nat) : (s.setParty k e x).sector j = s.sector j := rfl
@[simp] theorem setParty_extent (s : State) (k e : Nat) (x : Party) (j : Nat) : (s.setParty k e x).extent j = s.extent j := rfl
@[simp] theorem setParty_port (s : State) (k e : Nat) (x : Party) (j : Nat) : (s.setParty k e x).port j = s.port j := rfl
@[simp] theorem setParty_comm (s : State) (k e : Nat) (x : Party) (j i : Nat) : (s.setParty k e x).comm j i = s.comm j i := rfl
@[simp] theorem setParty_keySlot (s : State) (k e : Nat) (x : Party) (j : Nat) : (s.setParty k e x).keySlot j = s.keySlot j := rfl

/-! ## setMe -/

@[simp] theorem setMe_dev (s : State) (x : Caravan) : (s.setMe x).dev = s.dev := rfl
@[simp] theorem setMe_mem (s : State) (x : Caravan) : (s.setMe x).mem = s.mem := rfl
@[simp] theorem setMe_sectors (s : State) (x : Caravan) : (s.setMe x).sectors = s.sectors := rfl
@[simp] theorem setMe_ctxs (s : State) (x : Caravan) : (s.setMe x).ctxs = s.ctxs := rfl
@[simp] theorem setMe_cores (s : State) (x : Caravan) : (s.setMe x).cores = s.cores := rfl
@[simp] theorem setMe_dies (s : State) (x : Caravan) : (s.setMe x).dies = s.dies := rfl
@[simp] theorem setMe_ops (s : State) (x : Caravan) : (s.setMe x).ops = s.ops := rfl
@[simp] theorem setMe_parks (s : State) (x : Caravan) : (s.setMe x).parks = s.parks := rfl
@[simp] theorem setMe_veils (s : State) (x : Caravan) : (s.setMe x).veils = s.veils := rfl
@[simp] theorem setMe_chans (s : State) (x : Caravan) : (s.setMe x).chans = s.chans := rfl
@[simp] theorem setMe_execs (s : State) (x : Caravan) : (s.setMe x).execs = s.execs := rfl
@[simp] theorem setMe_extents (s : State) (x : Caravan) : (s.setMe x).extents = s.extents := rfl
@[simp] theorem setMe_fab (s : State) (x : Caravan) : (s.setMe x).fab = s.fab := rfl
@[simp] theorem setMe_cur (s : State) (x : Caravan) : (s.setMe x).cur = s.cur := rfl
@[simp] theorem setMe_bank (s : State) (x : Caravan) : (s.setMe x).bank = s.bank := rfl
@[simp] theorem setMe_advOpen (s : State) (x : Caravan) : (s.setMe x).advOpen = s.advOpen := rfl
@[simp] theorem setMe_advTodo (s : State) (x : Caravan) : (s.setMe x).advTodo = s.advTodo := rfl
@[simp] theorem setMe_agenda (s : State) (x : Caravan) : (s.setMe x).agenda = s.agenda := rfl
@[simp] theorem setMe_posts (s : State) (x : Caravan) : (s.setMe x).posts = s.posts := rfl
@[simp] theorem setMe_want (s : State) (x : Caravan) : (s.setMe x).want = s.want := rfl
@[simp] theorem setMe_nextOp (s : State) (x : Caravan) : (s.setMe x).nextOp = s.nextOp := rfl
@[simp] theorem setMe_nextDev (s : State) (x : Caravan) : (s.setMe x).nextDev = s.nextDev := rfl
@[simp] theorem setMe_nextCv (s : State) (x : Caravan) : (s.setMe x).nextCv = s.nextCv := rfl
@[simp] theorem setMe_clock (s : State) (x : Caravan) : (s.setMe x).clock = s.clock := rfl
@[simp] theorem setMe_freeCtr (s : State) (x : Caravan) : (s.setMe x).freeCtr = s.freeCtr := rfl
@[simp] theorem setMe_core (s : State) (x : Caravan) (j : Nat) : (s.setMe x).core j = s.core j := rfl
@[simp] theorem setMe_die (s : State) (x : Caravan) (j : Nat) : (s.setMe x).die j = s.die j := rfl
@[simp] theorem setMe_ctx (s : State) (x : Caravan) (j : Nat) : (s.setMe x).ctx j = s.ctx j := rfl
@[simp] theorem setMe_chan (s : State) (x : Caravan) (j : Nat) : (s.setMe x).chan j = s.chan j := rfl
@[simp] theorem setMe_executor (s : State) (x : Caravan) (j : Nat) : (s.setMe x).executor j = s.executor j := rfl
@[simp] theorem setMe_sector (s : State) (x : Caravan) (j : Nat) : (s.setMe x).sector j = s.sector j := rfl
@[simp] theorem setMe_extent (s : State) (x : Caravan) (j : Nat) : (s.setMe x).extent j = s.extent j := rfl
@[simp] theorem setMe_port (s : State) (x : Caravan) (j : Nat) : (s.setMe x).port j = s.port j := rfl
@[simp] theorem setMe_comm (s : State) (x : Caravan) (j i : Nat) : (s.setMe x).comm j i = s.comm j i := rfl
@[simp] theorem setMe_keySlot (s : State) (x : Caravan) (j : Nat) : (s.setMe x).keySlot j = s.keySlot j := rfl
@[simp] theorem setMe_tile (s : State) (x : Caravan) (j i : Nat) : (s.setMe x).tile j i = s.tile j i := rfl
@[simp] theorem setMe_party (s : State) (x : Caravan) (j i : Nat) : (s.setMe x).party j i = s.party j i := rfl

/-! ## send -/

/-- A message is sent after what was sent before. -/
theorem send_out (s : State) (m : Msg) : (s.send m).fab.out = s.fab.out ++ [m] := by
  simp only [send]
  split <;> rfl

@[simp] theorem send_comms (s : State) (m : Msg) : (s.send m).fab.comms = s.fab.comms := by
  simp only [send]
  split <;> rfl

@[simp] theorem send_dev (s : State) (m : Msg) : (s.send m).dev = s.dev := rfl
@[simp] theorem send_mem (s : State) (m : Msg) : (s.send m).mem = s.mem := rfl
@[simp] theorem send_sectors (s : State) (m : Msg) : (s.send m).sectors = s.sectors := rfl
@[simp] theorem send_ctxs (s : State) (m : Msg) : (s.send m).ctxs = s.ctxs := rfl
@[simp] theorem send_cores (s : State) (m : Msg) : (s.send m).cores = s.cores := rfl
@[simp] theorem send_dies (s : State) (m : Msg) : (s.send m).dies = s.dies := rfl
@[simp] theorem send_cvs (s : State) (m : Msg) : (s.send m).cvs = s.cvs := rfl
@[simp] theorem send_ops (s : State) (m : Msg) : (s.send m).ops = s.ops := rfl
@[simp] theorem send_parks (s : State) (m : Msg) : (s.send m).parks = s.parks := rfl
@[simp] theorem send_veils (s : State) (m : Msg) : (s.send m).veils = s.veils := rfl
@[simp] theorem send_chans (s : State) (m : Msg) : (s.send m).chans = s.chans := rfl
@[simp] theorem send_execs (s : State) (m : Msg) : (s.send m).execs = s.execs := rfl
@[simp] theorem send_extents (s : State) (m : Msg) : (s.send m).extents = s.extents := rfl
@[simp] theorem send_cur (s : State) (m : Msg) : (s.send m).cur = s.cur := rfl
@[simp] theorem send_bank (s : State) (m : Msg) : (s.send m).bank = s.bank := rfl
@[simp] theorem send_advOpen (s : State) (m : Msg) : (s.send m).advOpen = s.advOpen := rfl
@[simp] theorem send_advTodo (s : State) (m : Msg) : (s.send m).advTodo = s.advTodo := rfl
@[simp] theorem send_agenda (s : State) (m : Msg) : (s.send m).agenda = s.agenda := rfl
@[simp] theorem send_posts (s : State) (m : Msg) : (s.send m).posts = s.posts := rfl
@[simp] theorem send_want (s : State) (m : Msg) : (s.send m).want = s.want := rfl
@[simp] theorem send_nextOp (s : State) (m : Msg) : (s.send m).nextOp = s.nextOp := rfl
@[simp] theorem send_nextDev (s : State) (m : Msg) : (s.send m).nextDev = s.nextDev := rfl
@[simp] theorem send_nextCv (s : State) (m : Msg) : (s.send m).nextCv = s.nextCv := rfl
@[simp] theorem send_clock (s : State) (m : Msg) : (s.send m).clock = s.clock := rfl
@[simp] theorem send_freeCtr (s : State) (m : Msg) : (s.send m).freeCtr = s.freeCtr := rfl
@[simp] theorem send_cv (s : State) (m : Msg) (j i : Nat) : (s.send m).cv j i = s.cv j i := rfl
@[simp] theorem send_core (s : State) (m : Msg) (j : Nat) : (s.send m).core j = s.core j := rfl
@[simp] theorem send_die (s : State) (m : Msg) (j : Nat) : (s.send m).die j = s.die j := rfl
@[simp] theorem send_ctx (s : State) (m : Msg) (j : Nat) : (s.send m).ctx j = s.ctx j := rfl
@[simp] theorem send_chan (s : State) (m : Msg) (j : Nat) : (s.send m).chan j = s.chan j := rfl
@[simp] theorem send_executor (s : State) (m : Msg) (j : Nat) : (s.send m).executor j = s.executor j := rfl
@[simp] theorem send_sector (s : State) (m : Msg) (j : Nat) : (s.send m).sector j = s.sector j := rfl
@[simp] theorem send_extent (s : State) (m : Msg) (j : Nat) : (s.send m).extent j = s.extent j := rfl
@[simp] theorem send_comm (s : State) (m : Msg) (j i : Nat) : (s.send m).comm j i = s.comm j i := by simp [comm]
@[simp] theorem send_keySlot (s : State) (m : Msg) (j : Nat) : (s.send m).keySlot j = s.keySlot j := rfl
@[simp] theorem send_tile (s : State) (m : Msg) (j i : Nat) : (s.send m).tile j i = s.tile j i := rfl
@[simp] theorem send_party (s : State) (m : Msg) (j i : Nat) : (s.send m).party j i = s.party j i := rfl

/-! ## coreStore -/

@[simp] theorem coreStore_dev (s : State) (k o n x : Nat) : (s.coreStore k o n x).dev = s.dev := rfl
@[simp] theorem coreStore_sectors (s : State) (k o n x : Nat) : (s.coreStore k o n x).sectors = s.sectors := rfl
@[simp] theorem coreStore_ctxs (s : State) (k o n x : Nat) : (s.coreStore k o n x).ctxs = s.ctxs := rfl
@[simp] theorem coreStore_cores (s : State) (k o n x : Nat) : (s.coreStore k o n x).cores = s.cores := rfl
@[simp] theorem coreStore_dies (s : State) (k o n x : Nat) : (s.coreStore k o n x).dies = s.dies := rfl
@[simp] theorem coreStore_cvs (s : State) (k o n x : Nat) : (s.coreStore k o n x).cvs = s.cvs := rfl
@[simp] theorem coreStore_ops (s : State) (k o n x : Nat) : (s.coreStore k o n x).ops = s.ops := rfl
@[simp] theorem coreStore_parks (s : State) (k o n x : Nat) : (s.coreStore k o n x).parks = s.parks := rfl
@[simp] theorem coreStore_veils (s : State) (k o n x : Nat) : (s.coreStore k o n x).veils = s.veils := rfl
@[simp] theorem coreStore_chans (s : State) (k o n x : Nat) : (s.coreStore k o n x).chans = s.chans := rfl
@[simp] theorem coreStore_execs (s : State) (k o n x : Nat) : (s.coreStore k o n x).execs = s.execs := rfl
@[simp] theorem coreStore_extents (s : State) (k o n x : Nat) : (s.coreStore k o n x).extents = s.extents := rfl
@[simp] theorem coreStore_fab (s : State) (k o n x : Nat) : (s.coreStore k o n x).fab = s.fab := rfl
@[simp] theorem coreStore_cur (s : State) (k o n x : Nat) : (s.coreStore k o n x).cur = s.cur := rfl
@[simp] theorem coreStore_bank (s : State) (k o n x : Nat) : (s.coreStore k o n x).bank = s.bank := rfl
@[simp] theorem coreStore_advOpen (s : State) (k o n x : Nat) : (s.coreStore k o n x).advOpen = s.advOpen := rfl
@[simp] theorem coreStore_advTodo (s : State) (k o n x : Nat) : (s.coreStore k o n x).advTodo = s.advTodo := rfl
@[simp] theorem coreStore_agenda (s : State) (k o n x : Nat) : (s.coreStore k o n x).agenda = s.agenda := rfl
@[simp] theorem coreStore_posts (s : State) (k o n x : Nat) : (s.coreStore k o n x).posts = s.posts := rfl
@[simp] theorem coreStore_want (s : State) (k o n x : Nat) : (s.coreStore k o n x).want = s.want := rfl
@[simp] theorem coreStore_nextOp (s : State) (k o n x : Nat) : (s.coreStore k o n x).nextOp = s.nextOp := rfl
@[simp] theorem coreStore_nextDev (s : State) (k o n x : Nat) : (s.coreStore k o n x).nextDev = s.nextDev := rfl
@[simp] theorem coreStore_nextCv (s : State) (k o n x : Nat) : (s.coreStore k o n x).nextCv = s.nextCv := rfl
@[simp] theorem coreStore_clock (s : State) (k o n x : Nat) : (s.coreStore k o n x).clock = s.clock := rfl
@[simp] theorem coreStore_freeCtr (s : State) (k o n x : Nat) : (s.coreStore k o n x).freeCtr = s.freeCtr := rfl
@[simp] theorem coreStore_cv (s : State) (k o n x : Nat) (j i : Nat) : (s.coreStore k o n x).cv j i = s.cv j i := rfl
@[simp] theorem coreStore_core (s : State) (k o n x : Nat) (j : Nat) : (s.coreStore k o n x).core j = s.core j := rfl
@[simp] theorem coreStore_die (s : State) (k o n x : Nat) (j : Nat) : (s.coreStore k o n x).die j = s.die j := rfl
@[simp] theorem coreStore_ctx (s : State) (k o n x : Nat) (j : Nat) : (s.coreStore k o n x).ctx j = s.ctx j := rfl
@[simp] theorem coreStore_chan (s : State) (k o n x : Nat) (j : Nat) : (s.coreStore k o n x).chan j = s.chan j := rfl
@[simp] theorem coreStore_executor (s : State) (k o n x : Nat) (j : Nat) : (s.coreStore k o n x).executor j = s.executor j := rfl
@[simp] theorem coreStore_sector (s : State) (k o n x : Nat) (j : Nat) : (s.coreStore k o n x).sector j = s.sector j := rfl
@[simp] theorem coreStore_extent (s : State) (k o n x : Nat) (j : Nat) : (s.coreStore k o n x).extent j = s.extent j := rfl
@[simp] theorem coreStore_port (s : State) (k o n x : Nat) (j : Nat) : (s.coreStore k o n x).port j = s.port j := rfl
@[simp] theorem coreStore_comm (s : State) (k o n x : Nat) (j i : Nat) : (s.coreStore k o n x).comm j i = s.comm j i := rfl
@[simp] theorem coreStore_keySlot (s : State) (k o n x : Nat) (j : Nat) : (s.coreStore k o n x).keySlot j = s.keySlot j := rfl
@[simp] theorem coreStore_tile (s : State) (k o n x : Nat) (j i : Nat) : (s.coreStore k o n x).tile j i = s.tile j i := rfl
@[simp] theorem coreStore_party (s : State) (k o n x : Nat) (j i : Nat) : (s.coreStore k o n x).party j i = s.party j i := rfl

/-! ## An accessor after the update of what it reads -/

theorem cv_setCv (s : State) (k n : Nat) (x : Caravan) (j i : Nat) :
    (s.setCv k n x).cv j i = if 16 * j + i = 16 * k + n then x else s.cv j i := sget_sset _ _ _ _ _
@[simp] theorem cv_setCv_same (s : State) (k n : Nat) (x : Caravan) : (s.setCv k n x).cv k n = x := by simp [cv_setCv]
theorem core_setCore (s : State) (k : Nat) (x : Core) (j : Nat) :
    (s.setCore k x).core j = if j = k then x else s.core j := sget_sset _ _ _ _ _
@[simp] theorem core_setCore_same (s : State) (k : Nat) (x : Core) : (s.setCore k x).core k = x := by simp [core_setCore]
theorem die_setDie (s : State) (d : Nat) (x : Die) (j : Nat) : (s.setDie d x).die j = if j = d then x else s.die j :=
  sget_sset _ _ _ _ _
@[simp] theorem die_setDie_same (s : State) (d : Nat) (x : Die) : (s.setDie d x).die d = x := by simp [die_setDie]
theorem ctx_setCtx (s : State) (c : Nat) (x : Context) (j : Nat) :
    (s.setCtx c x).ctx j = if j = c then x else s.ctx j := sget_sset _ _ _ _ _
@[simp] theorem ctx_setCtx_same (s : State) (c : Nat) (x : Context) : (s.setCtx c x).ctx c = x := by simp [ctx_setCtx]
theorem chan_setChan (s : State) (c : Nat) (x : Channel) (j : Nat) :
    (s.setChan c x).chan j = if j = c then x else s.chan j := sget_sset _ _ _ _ _
@[simp] theorem chan_setChan_same (s : State) (c : Nat) (x : Channel) : (s.setChan c x).chan c = x := by simp [chan_setChan]
theorem executor_setExecutor (s : State) (n : Nat) (x : Executor) (j : Nat) :
    (s.setExecutor n x).executor j = if j = n then x else s.executor j := sget_sset _ _ _ _ _
@[simp] theorem executor_setExecutor_same (s : State) (n : Nat) (x : Executor) : (s.setExecutor n x).executor n = x := by
  simp [executor_setExecutor]
theorem sector_setSector (s : State) (n : Nat) (x : Sector) (j : Nat) :
    (s.setSector n x).sector j = if j = n then x else s.sector j := sget_sset _ _ _ _ _
@[simp] theorem sector_setSector_same (s : State) (n : Nat) (x : Sector) : (s.setSector n x).sector n = x := by
  simp [sector_setSector]
theorem extent_setExtent (s : State) (n : Nat) (x : Extent) (j : Nat) :
    (s.setExtent n x).extent j = if j = n then x else s.extent j := sget_sset _ _ _ _ _
@[simp] theorem extent_setExtent_same (s : State) (n : Nat) (x : Extent) : (s.setExtent n x).extent n = x := by
  simp [extent_setExtent]
theorem port_setPort (s : State) (p : Nat) (x : Port) (j : Nat) :
    (s.setPort p x).port j = if j = p then x else s.port j := sget_sset _ _ _ _ _
@[simp] theorem port_setPort_same (s : State) (p : Nat) (x : Port) : (s.setPort p x).port p = x := by simp [port_setPort]
theorem comm_setComm (s : State) (c k : Nat) (x : Comm) (j i : Nat) :
    (s.setComm c k x).comm j i = if 64 * j + i = 64 * c + k then x else s.comm j i := sget_sset _ _ _ _ _
@[simp] theorem comm_setComm_same (s : State) (c k : Nat) (x : Comm) : (s.setComm c k x).comm c k = x := by
  simp [comm_setComm]
@[simp] theorem port_setComm (s : State) (c k : Nat) (x : Comm) (j : Nat) : (s.setComm c k x).port j = s.port j := rfl
@[simp] theorem comm_setPort (s : State) (p : Nat) (x : Port) (j i : Nat) : (s.setPort p x).comm j i = s.comm j i := rfl
theorem tile_setTile (s : State) (k t : Nat) (x : Tile) (j i : Nat) :
    (s.setTile k t x).tile j i = if j = k ∧ i = t then x else s.tile j i := by
  unfold setTile tile
  rw [core_setCore]
  by_cases h : j = k
  · subst h; simp [sget_sset]
  · simp [h]
@[simp] theorem tile_setTile_same (s : State) (k t : Nat) (x : Tile) : (s.setTile k t x).tile k t = x := by simp [tile_setTile]
theorem party_setParty (s : State) (k e : Nat) (x : Party) (j i : Nat) :
    (s.setParty k e x).party j i = if j = k ∧ i = e then x else s.party j i := by
  unfold setParty party
  rw [core_setCore]
  by_cases h : j = k
  · subst h; simp [sget_sset]
  · simp [h]
@[simp] theorem party_setParty_same (s : State) (k e : Nat) (x : Party) : (s.setParty k e x).party k e = x := by
  simp [party_setParty]
@[simp] theorem party_setTile (s : State) (k t : Nat) (x : Tile) (j i : Nat) : (s.setTile k t x).party j i = s.party j i := by
  unfold setTile party
  rw [core_setCore]
  by_cases h : j = k
  · subst h; simp
  · simp [h]
@[simp] theorem tile_setParty (s : State) (k e : Nat) (x : Party) (j i : Nat) : (s.setParty k e x).tile j i = s.tile j i := by
  unfold setParty tile
  rw [core_setCore]
  by_cases h : j = k
  · subst h; simp
  · simp [h]
@[simp] theorem me_setMe (s : State) (x : Caravan) : (s.setMe x).me = x := by simp [me, setMe]

/-! ## Updates one after another -/

@[simp] theorem setCv_setCv (s : State) (k n : Nat) (x y : Caravan) : (s.setCv k n x).setCv k n y = s.setCv k n y := by
  simp [setCv]
@[simp] theorem setCore_setCore (s : State) (k : Nat) (x y : Core) : (s.setCore k x).setCore k y = s.setCore k y := by
  simp [setCore]
@[simp] theorem setDie_setDie (s : State) (d : Nat) (x y : Die) : (s.setDie d x).setDie d y = s.setDie d y := by
  simp [setDie]
@[simp] theorem setCtx_setCtx (s : State) (c : Nat) (x y : Context) : (s.setCtx c x).setCtx c y = s.setCtx c y := by
  simp [setCtx]
@[simp] theorem setChan_setChan (s : State) (c : Nat) (x y : Channel) : (s.setChan c x).setChan c y = s.setChan c y := by
  simp [setChan]
@[simp] theorem setExecutor_setExecutor (s : State) (n : Nat) (x y : Executor) : (s.setExecutor n x).setExecutor n y = s.setExecutor n y := by
  simp [setExecutor]
@[simp] theorem setSector_setSector (s : State) (n : Nat) (x y : Sector) : (s.setSector n x).setSector n y = s.setSector n y := by
  simp [setSector]
@[simp] theorem setExtent_setExtent (s : State) (n : Nat) (x y : Extent) : (s.setExtent n x).setExtent n y = s.setExtent n y := by
  simp [setExtent]
@[simp] theorem setPort_setPort (s : State) (p : Nat) (x y : Port) : (s.setPort p x).setPort p y = s.setPort p y := by
  simp [setPort]
@[simp] theorem setComm_setComm (s : State) (c k : Nat) (x y : Comm) : (s.setComm c k x).setComm c k y = s.setComm c k y := by
  simp [setComm]

end Sys2Proof.Machine.State
end

