-- ==== Sys2Proof/Laws/Lanes.lean ====
section
/-! SUPPORT. Instructions that act on the issuing agent alone: what the checks of R221 come to when they pass, that R63 has
nothing to do after an instruction that keeps its caravan running, and what the writes of registers, predicates and S
registers leave. -/

namespace Sys2Proof.Machine

open Host (Outcome)

/-! ## Updates of the issuing caravan -/

@[simp] theorem State.setMe_setMe (s : State) (c d : Caravan) : (s.setMe c).setMe d = s.setMe d := by simp [State.setMe]

/-- A state that differs from s in the issuing caravan only is s with that caravan set. -/
theorem onlyMe_setMe (s : State) (c : Caravan) : OnlyMe s (s.setMe c) := by simp [OnlyMe]

/-! ## R63 after an instruction -/

/-- A caravan that runs: READY or TRAPPED, with an active lane, and no deferred trap due. -/
theorem State.settle_running (t : State) (k n : Nat) (st : (t.cv k n).st = .ready ∨ (t.cv k n).st = .trapped)
    (m : (t.cv k n).mask ≠ 0) (p : (t.cv k n).pending = true → (t.cv k n).trap.npc < 32) : t.settle k n = t := by
  have p' : ((t.cv k n).pending && decide (32 ≤ (t.cv k n).trap.npc)) = false := by
    by_cases h : (t.cv k n).pending = true
    · have := p h; simp [h]; omega
    · simp [h]
  have m' : (t.cv k n).mask ≠ 0#1024 := m
  unfold State.settle
  rcases st with e | e <;> simp [e, m', p']

/-- A FINISHING, ABSENT or lane-less waiting caravan has nothing to settle but what R63 says; a BLOCKED or SLEEPING one with
an active lane and no pending trap stays as it is. -/
theorem State.settle_waiting (t : State) (k n : Nat) (st : (t.cv k n).st = .blocked ∨ (t.cv k n).st = .sleeping)
    (m : (t.cv k n).mask ≠ 0) (p : (t.cv k n).pending = false) : t.settle k n = t := by
  have m' : (t.cv k n).mask ≠ 0#1024 := m
  unfold State.settle
  rcases st with e | e <;> simp [e, m', p]

/-! ## The checks of R221 -/

theorem issue_lane {i : Instr} {f : Fields} {s : State} (priv : Bool) (body : State → State) (h : LaneRuns i f s)
    (hs : sliceOnly i = false) (hp : priv = true → s.myCtx.priv = true) :
    issue i f priv false body s = .next ((body s).settle s.cur.core s.cur.slot) := by
  have : (priv && !s.myCtx.priv) = false := by cases priv <;> simp_all
  have q : s.part f ≠ 0#1024 := h.part
  simp [issue, h.caravan, h.legal, hs, h.limits, q, this]

theorem issue_once {i : Instr} {f : Fields} {s : State} (priv : Bool) (body : State → State) (h : OnceRuns i f s)
    (hs : sliceOnly i = false) (hp : priv = true → s.myCtx.priv = true) :
    issue i f priv true body s = .next ((body s).settle s.cur.core s.cur.slot) := by
  have : (priv && !s.myCtx.priv) = false := by cases priv <;> simp_all
  simp [issue, h.caravan, h.legal, hs, h.limits, h.guard, this]

theorem issue_slice {i : Instr} {f : Fields} {s : State} (priv once : Bool) (body : State → State) (h : SliceRuns i f s)
    (hp : priv = true → s.myCtx.priv = true) : issue i f priv once body s = .next (body s) := by
  have : (priv && !s.myCtx.priv) = false := by cases priv <;> simp_all
  simp [issue, h.slice, h.legal, h.may, h.limits, h.guard, this]

/-! ## Registers, predicates and the PC -/

theorem mem_lanesBelow (W L : Nat) (m : Mask) : L ∈ lanesBelow W m ↔ L < W ∧ m.getLsbD L = true := by
  simp [lanesBelow]

theorem lanesBelow_nodup (W : Nat) (m : Mask) : (lanesBelow W m).Nodup := List.nodup_range.filter _

@[simp] theorem Caravan.setReg_reg (c : Caravan) (k L : Nat) (x : W32) (r M : Nat) (hL : L < 1024) (hM : M < 1024) :
    (c.setReg k L x).reg r M = if r = k ∧ M = L then x else c.reg r M := by
  unfold Caravan.setReg Caravan.reg
  by_cases hk : c.staged.contains k = true
  · simp only [hk, if_true]
    split
    · rw [sget_sset]
      by_cases h : r = k ∧ M = L
      · simp [h]
      · have : ¬(1024 * r + M = 1024 * k + L) := fun e => h ⟨by omega, by omega⟩
        simp [h, this]
    · rename_i h
      have : r ≠ k := fun e => h (by rw [e]; exact hk)
      simp [this]
  · simp only [hk]
    by_cases hr : c.staged.contains r = true
    · have : r ≠ k := fun e => hk (by rw [← e]; exact hr)
      simp only [hr, this, if_true, false_and, if_false, Bool.false_eq_true]
    · simp only [hr, Bool.false_eq_true, if_false]
      rw [sget_sset]
      by_cases h : r = k ∧ M = L
      · simp [h]
      · have : ¬(1024 * r + M = 1024 * k + L) := fun e => h ⟨by omega, by omega⟩
        simp [h, this]

/-- What the writes of registers leave of a caravan: all but the register storage. -/
def Caravan.SameBut (c d : Caravan) : Prop := { d with win := c.win, slots := c.slots, swr := c.swr } = c

theorem Caravan.SameBut.refl (c : Caravan) : c.SameBut c := rfl
theorem Caravan.SameBut.st {c d : Caravan} (h : c.SameBut d) : d.st = c.st := by have e := congrArg Caravan.st h; exact e
theorem Caravan.SameBut.mask {c d : Caravan} (h : c.SameBut d) : d.mask = c.mask := by have e := congrArg Caravan.mask h; exact e
theorem Caravan.SameBut.trap {c d : Caravan} (h : c.SameBut d) : d.trap = c.trap := by have e := congrArg Caravan.trap h; exact e
theorem Caravan.SameBut.pc {c d : Caravan} (h : c.SameBut d) : d.pc = c.pc := by have e := congrArg Caravan.pc h; exact e
theorem Caravan.SameBut.preds {c d : Caravan} (h : c.SameBut d) : d.preds = c.preds := by have e := congrArg Caravan.preds h; exact e
theorem Caravan.SameBut.flags {c d : Caravan} (h : c.SameBut d) : d.flags = c.flags := by have e := congrArg Caravan.flags h; exact e
theorem Caravan.SameBut.width {c d : Caravan} (h : c.SameBut d) : d.width = c.width := by have e := congrArg Caravan.width h; exact e
/-- Nor do predicates, flags and PC set back to what they were leave a difference. -/
theorem Caravan.SameBut.rest {c d : Caravan} (h : c.SameBut d) :
    { d with win := c.win, slots := c.slots, swr := c.swr, preds := c.preds, flags := c.flags, pc := c.pc } = c :=
  have e := congrArg (fun x : Caravan => { x with preds := c.preds, flags := c.flags, pc := c.pc }) h
  e

theorem Caravan.setReg_same (c d : Caravan) (k L : Nat) (x : W32) (h : c.SameBut d) : c.SameBut (d.setReg k L x) := by
  unfold Caravan.SameBut Caravan.setReg at *
  split <;> exact h

theorem Caravan.foldl_setReg_same (c d : Caravan) (k : Nat) (v : Nat → W32) (l : List Nat) (h : c.SameBut d) :
    c.SameBut (l.foldl (fun a L => a.setReg k L (v L)) d) := by
  induction l generalizing d with
  | nil => exact h
  | cons x r ih => exact ih _ (Caravan.setReg_same c d k x (v x) h)

theorem Caravan.foldl_setReg_reg (d : Caravan) (k : Nat) (v : Nat → W32) (l : List Nat) (hl : ∀ L ∈ l, L < 1024)
    (r M : Nat) (hM : M < 1024) :
    (l.foldl (fun a L => a.setReg k L (v L)) d).reg r M = if r = k ∧ M ∈ l then v M else d.reg r M := by
  induction l generalizing d with
  | nil => simp
  | cons x t ih =>
    simp only [List.foldl_cons]
    rw [ih _ (fun L h => hl L (by simp [h])), Caravan.setReg_reg _ _ _ _ _ _ (hl x (by simp)) hM]
    by_cases h1 : r = k ∧ M ∈ t
    · simp [h1]
    · by_cases h2 : r = k ∧ M = x
      · obtain ⟨rfl, rfl⟩ := h2; simp
      · have h3 : ¬(r = k ∧ M ∈ x :: t) := by
          simp only [List.mem_cons]; rintro ⟨e, h | h⟩
          · exact h2 ⟨e, h⟩
          · exact h1 ⟨e, h⟩
        rw [if_neg h1, if_neg h2, if_neg h3]

theorem lanesBelow_lt (W : Nat) (m : Mask) : ∀ L ∈ lanesBelow W m, L < 1024 := by
  intro L h
  rw [mem_lanesBelow] at h
  by_contra hn
  have := BitVec.getLsbD_of_ge m L (by omega)
  simp [this] at h

theorem Caravan.writeLanes_same (c : Caravan) (k : Nat) (part : Mask) (v : Nat → W32) : c.SameBut (c.writeLanes k part v) :=
  Caravan.foldl_setReg_same c c k v _ (Caravan.SameBut.refl c)

theorem Caravan.writeLanes_reg (c : Caravan) (k : Nat) (part : Mask) (v : Nat → W32) (r M : Nat) (hM : M < 1024) :
    (c.writeLanes k part v).reg r M = if r = k ∧ M < c.width ∧ part.getLsbD M = true then v M else c.reg r M := by
  unfold Caravan.writeLanes
  rw [Caravan.foldl_setReg_reg _ _ _ _ (lanesBelow_lt _ _) _ _ hM]
  simp [mem_lanesBelow]

theorem Caravan.foldl_setReg64_same (c d : Caravan) (k : Nat) (v : Nat → W64) (l : List Nat) (h : c.SameBut d) :
    c.SameBut (l.foldl (fun a L => a.setReg64 k L (v L)) d) := by
  induction l generalizing d with
  | nil => exact h
  | cons x r ih =>
    exact ih _ (Caravan.setReg_same c _ (k + 1) x _ (Caravan.setReg_same c d k x _ h))

theorem Caravan.foldl_setReg64_reg (d : Caravan) (k : Nat) (v : Nat → W64) (l : List Nat) (hl : ∀ L ∈ l, L < 1024)
    (r M : Nat) (hM : M < 1024) :
    (l.foldl (fun a L => a.setReg64 k L (v L)) d).reg r M =
      if r = k ∧ M ∈ l then (v M).setWidth 32 else if r = k + 1 ∧ M ∈ l then (v M >>> 32).setWidth 32 else d.reg r M := by
  induction l generalizing d with
  | nil => simp
  | cons x t ih =>
    have hx : x < 1024 := hl x (by simp)
    simp only [List.foldl_cons]
    rw [ih _ (fun L h => hl L (by simp [h]))]
    unfold Caravan.setReg64
    rw [Caravan.setReg_reg _ _ _ _ _ _ hx hM, Caravan.setReg_reg _ _ _ _ _ _ hx hM]
    by_cases hr : r = k
    · subst hr
      by_cases hM1 : M ∈ t
      · simp [hM1]
      · by_cases hM2 : M = x <;> simp [hM1, hM2]
    · by_cases hr1 : r = k + 1
      · subst hr1
        by_cases hM1 : M ∈ t
        · simp [hM1]
        · by_cases hM2 : M = x <;> simp [hM1, hM2]
      · simp [hr, hr1]

theorem Caravan.writeLanes64_same (c : Caravan) (k : Nat) (part : Mask) (v : Nat → W64) :
    c.SameBut (c.writeLanes64 k part v) := Caravan.foldl_setReg64_same c c k v _ (Caravan.SameBut.refl c)

theorem Caravan.writeLanes64_reg (c : Caravan) (k : Nat) (part : Mask) (v : Nat → W64) (r M : Nat) (hM : M < 1024) :
    (c.writeLanes64 k part v).reg r M =
      if r = k ∧ M < c.width ∧ part.getLsbD M = true then (v M).setWidth 32
      else if r = k + 1 ∧ M < c.width ∧ part.getLsbD M = true then (v M >>> 32).setWidth 32 else c.reg r M := by
  unfold Caravan.writeLanes64
  rw [Caravan.foldl_setReg64_reg _ _ _ _ (lanesBelow_lt _ _) _ _ hM]
  simp [mem_lanesBelow]

/-- Bit L of the mask of the lanes below W that satisfy p. -/
theorem getLsbD_maskWhere (W : Nat) (p : Nat → Bool) (L : Nat) (hL : L < 1024) :
    (maskWhere W p).getLsbD L = (decide (L < W) && p L) := by
  have key : ∀ W, ((List.range W).foldl (fun a L => if p L then a + 2 ^ L else a) 0) < 2 ^ W ∧
      ∀ i, ((List.range W).foldl (fun a L => if p L then a + 2 ^ L else a) 0).testBit i = (decide (i < W) && p i) := by
    intro W
    induction W with
    | zero => simp
    | succ W ih =>
      rw [List.range_succ, List.foldl_append]
      simp only [List.foldl_cons, List.foldl_nil]
      obtain ⟨h1, h2⟩ := ih
      split
      · rename_i hp
        refine ⟨by rw [Nat.pow_succ]; omega, fun i => ?_⟩
        by_cases hi : i = W
        · subst hi
          rw [Nat.add_comm, Nat.testBit_two_pow_add_eq, Nat.testBit_lt_two_pow h1]; simp [hp]
        · rcases Nat.lt_or_gt_of_ne hi with h | h
          · rw [Nat.add_comm, Nat.testBit_two_pow_add_gt h, h2]
            have : i < W + 1 := by omega
            simp [this, h]
          · have hlt : List.foldl (fun a L => if p L = true then a + 2 ^ L else a) 0 (List.range W) + 2 ^ W < 2 ^ i :=
              Nat.lt_of_lt_of_le (show _ < 2 ^ (W + 1) by rw [Nat.pow_succ]; omega) (Nat.pow_le_pow_right (by omega) h)
            rw [Nat.testBit_lt_two_pow hlt]
            have : ¬(i < W + 1) := by omega
            simp [this]
      · rename_i hp
        refine ⟨by rw [Nat.pow_succ]; omega, fun i => ?_⟩
        rw [h2]
        by_cases hi : i = W
        · subst hi; simp at hp; simp [hp]
        · have : (i < W + 1) = (i < W) := by apply propext; omega
          simp [this]
  simp only [maskWhere, BitVec.getLsbD_ofNat, hL, decide_true, Bool.true_and]
  exact (key W).2 L

theorem Caravan.writePred_pred (c : Caravan) (n : Nat) (part : Mask) (v : Nat → Bool) (m L : Nat) (hL : L < 1024) :
    ((c.writePred n part v).pred m).getLsbD L =
      if m = n ∧ part.getLsbD L = true then decide (L < c.width) && v L else (c.pred m).getLsbD L := by
  unfold Caravan.writePred Caravan.setPred Caravan.pred
  simp only [sget_sset]
  by_cases h : m = n
  · subst h
    have e := getLsbD_maskWhere c.width v L hL
    simp only [if_true, true_and, BitVec.getLsbD_or, BitVec.getLsbD_and, BitVec.getLsbD_not, e, hL, decide_true, Bool.true_and]
    cases part.getLsbD L <;> simp
  · simp [h]

/-! ## Outcomes of the usual shapes -/

/-- A per-lane instruction whose body sets the issuing caravan to c, which differs in registers, predicates, flags and PC. -/
theorem next_lanes {i : Instr} {f : Fields} {s : State} {body : State → State} {reg : Nat → Nat → W32}
    {pred : Nat → Nat → Bool} {fl : Flag} {c : Caravan} (h : LaneRuns i f s) (hs : sliceOnly i = false)
    (hb : body s = s.setMe c)
    (rest : { c with win := s.me.win, slots := s.me.slots, swr := s.me.swr, preds := s.me.preds, flags := s.me.flags,
                     pc := s.me.pc } = s.me)
    (hr : ∀ r L, L < 1024 → c.reg r L = reg r L) (hp : ∀ n L, L < 1024 → (c.pred n).getLsbD L = pred n L)
    (hf : c.flags = s.me.flags ||| fl) (hpc : c.pc = s.me.pc + 12) :
    NextLanes (issue i f false false body s) s reg pred fl := by
  refine ⟨s.setMe c, ?_, ⟨onlyMe_setMe s c, ?_, ?_, ?_, ?_, ?_⟩⟩
  · rw [issue_lane false body h hs (by simp), hb]
    congr 1
    have e : (s.setMe c).cv s.cur.core s.cur.slot = c := State.me_setMe s c
    have est : c.st = s.me.st := by have e := congrArg Caravan.st rest; exact e
    have em : c.mask = s.me.mask := by have e := congrArg Caravan.mask rest; exact e
    have et : c.trap = s.me.trap := by have e := congrArg Caravan.trap rest; exact e
    have ep : c.pending = s.me.pending := by simp [Caravan.pending, et]
    apply State.settle_running <;> rw [e]
    · rw [est]; exact h.runs.state
    · rw [em]; exact h.runs.lanes
    · rw [ep, et]; exact h.runs.table
  all_goals simpa using by assumption

/-- The caravan that results when the issuing caravan's registers are written and it goes on. -/
theorem putV_advance (s : State) (f : Fields) (v : Nat → W32) (hc : s.cur.slice = false) :
    (s.putV f v).advance = s.setMe { s.me.writeLanes f.d.vreg (s.part f) v with pc := s.me.pc + 12 } := by
  have hsame := Caravan.writeLanes_same s.me f.d.vreg (s.part f) v
  have hpc : (s.me.writeLanes f.d.vreg (s.part f) v).pc = s.me.pc := hsame.pc
  simp only [State.putV, State.advance, State.setPc, State.pc, State.setMe_cur, hc, Bool.false_eq_true, if_false,
    State.me_setMe]
  rw [State.setMe_setMe, hpc]

theorem putV64_advance (s : State) (f : Fields) (v : Nat → W64) (hc : s.cur.slice = false) :
    (s.putV64 f v).advance = s.setMe { s.me.writeLanes64 f.d.vreg (s.part f) v with pc := s.me.pc + 12 } := by
  have hsame := Caravan.writeLanes64_same s.me f.d.vreg (s.part f) v
  have hpc : (s.me.writeLanes64 f.d.vreg (s.part f) v).pc = s.me.pc := hsame.pc
  simp only [State.putV64, State.advance, State.setPc, State.pc, State.setMe_cur, hc, Bool.false_eq_true, if_false,
    State.me_setMe]
  rw [State.setMe_setMe, hpc]

theorem Running.not_absent {s : State} (h : Running s) : s.me.st ≠ .absent := by
  rcases h.state with e | e <;> simp [e]

theorem State.raise_setMe (s : State) (c : Caravan) (x : Flag) :
    (s.setMe c).raise x = s.setMe { c with flags := c.flags ||| x } := by
  simp only [State.raise, State.me_setMe]
  rw [State.setMe_setMe]

theorem State.advance_setMe (s : State) (c : Caravan) (hc : s.cur.slice = false) :
    (s.setMe c).advance = s.setMe { c with pc := c.pc + 12 } := by
  simp only [State.advance, State.setPc, State.pc, State.setMe_cur, hc, Bool.false_eq_true, if_false, State.me_setMe]
  rw [State.setMe_setMe]

/-- A per-lane instruction that writes register d, and raises the flags of its lanes. -/
theorem nextV_of_flags {i : Instr} {f : Fields} {s : State} {body : State → State} {v : Nat → W32 × Flag}
    (h : LaneRuns i f s) (hs : sliceOnly i = false)
    (hb : body s = ((s.putV f (fun L => (v L).1)).raise (lanesFlags s.me.width (s.part f) (fun L => (v L).2))).advance) :
    NextV (issue i f false false body s) s f v := by
  have hsame := Caravan.writeLanes_same s.me f.d.vreg (s.part f) (fun L => (v L).1)
  refine next_lanes (c := { s.me.writeLanes f.d.vreg (s.part f) (fun L => (v L).1) with
      flags := s.me.flags ||| flagsOf s f (fun L => (v L).2), pc := s.me.pc + 12 }) h hs ?_ ?_ ?_ ?_ rfl rfl
  · rw [hb]
    unfold State.putV
    rw [State.raise_setMe, State.advance_setMe _ _ h.caravan]
    congr 1
    have e1 : (s.me.writeLanes f.d.vreg (s.part f) (fun L => (v L).1)).flags = s.me.flags := hsame.flags
    have e2 : (s.me.writeLanes f.d.vreg (s.part f) (fun L => (v L).1)).pc = s.me.pc := hsame.pc
    simp only [e1, e2, flagsOf]
  · exact hsame.rest
  · intro r L hL; exact Caravan.writeLanes_reg s.me f.d.vreg (s.part f) (fun L => (v L).1) r L hL
  · intro n L _
    have e : (s.me.writeLanes f.d.vreg (s.part f) (fun L => (v L).1)).preds = s.me.preds := hsame.preds
    simp only [predsOf, Caravan.pred, e]

theorem lanesFlags_zero (W : Nat) (part : Mask) : lanesFlags W part (fun _ => 0) = 0 := by
  unfold lanesFlags
  induction lanesBelow W part with
  | nil => rfl
  | cons x r ih => simp

/-- The same without flags. -/
theorem nextV_of_put {i : Instr} {f : Fields} {s : State} {body : State → State} {v : Nat → W32}
    (h : LaneRuns i f s) (hs : sliceOnly i = false) (hb : body s = (s.putV f v).advance) :
    NextV (issue i f false false body s) s f (fun L => (v L, 0)) := by
  have hsame := Caravan.writeLanes_same s.me f.d.vreg (s.part f) v
  refine next_lanes (c := { s.me.writeLanes f.d.vreg (s.part f) v with pc := s.me.pc + 12 }) h hs ?_ ?_ ?_ ?_ ?_ rfl
  · rw [hb]; exact putV_advance s f v h.caravan
  · exact hsame.rest
  · intro r L hL; exact Caravan.writeLanes_reg s.me f.d.vreg (s.part f) v r L hL
  · intro n L _
    have e : (s.me.writeLanes f.d.vreg (s.part f) v).preds = s.me.preds := hsame.preds
    simp only [predsOf, Caravan.pred, e]
  · have e : (s.me.writeLanes f.d.vreg (s.part f) v).flags = s.me.flags := hsame.flags
    simp only [e, flagsOf, lanesFlags_zero]; simp

/-- A per-lane instruction that writes a register pair. -/
theorem nextV64_of_put {i : Instr} {f : Fields} {s : State} {body : State → State} {v : Nat → W64}
    (h : LaneRuns i f s) (hs : sliceOnly i = false) (hb : body s = (s.putV64 f v).advance) :
    NextV64 (issue i f false false body s) s f (fun L => (v L, 0)) := by
  have hsame := Caravan.writeLanes64_same s.me f.d.vreg (s.part f) v
  refine next_lanes (c := { s.me.writeLanes64 f.d.vreg (s.part f) v with pc := s.me.pc + 12 }) h hs ?_ ?_ ?_ ?_ ?_ rfl
  · rw [hb]; exact putV64_advance s f v h.caravan
  · exact hsame.rest
  · intro r L hL; exact Caravan.writeLanes64_reg s.me f.d.vreg (s.part f) v r L hL
  · intro n L _
    have e : (s.me.writeLanes64 f.d.vreg (s.part f) v).preds = s.me.preds := hsame.preds
    simp only [predsOf, Caravan.pred, e]
  · have e : (s.me.writeLanes64 f.d.vreg (s.part f) v).flags = s.me.flags := hsame.flags
    simp only [e, flagsOf, lanesFlags_zero]; simp

/-- A per-lane instruction that writes a predicate. -/
theorem nextLanes_of_pred {i : Instr} {f : Fields} {s : State} {body : State → State} {n : Nat} {v : Nat → Bool}
    (h : LaneRuns i f s) (hs : sliceOnly i = false) (hb : body s = (s.putP n f v).advance) :
    NextLanes (issue i f false false body s) s s.me.reg (withP s n (s.part f) v) 0 := by
  refine next_lanes (c := { s.me.writePred n (s.part f) v with pc := s.me.pc + 12 }) h hs ?_ rfl (fun _ _ _ => rfl) ?_ ?_ rfl
  · rw [hb]; unfold State.putP; rw [State.advance_setMe _ _ h.caravan]; rfl
  · intro m L hL; exact Caravan.writePred_pred s.me n (s.part f) v m L hL
  · simp [Caravan.writePred, Caravan.setPred]

/-- A per-lane instruction that writes register d and predicate n: both are written from what stood before. -/
theorem nextLanes_of_put_pred {i : Instr} {f : Fields} {s : State} {body : State → State} {n : Nat} {v : Nat → W32}
    {q : Nat → Bool} (h : LaneRuns i f s) (hs : sliceOnly i = false)
    (hb : body s = ((s.putV f v).putP n f q).advance) (hpart : (s.putV f v).part f = s.part f) :
    NextLanes (issue i f false false body s) s (withV s f.d.vreg (s.part f) v) (withP s n (s.part f) q) 0 := by
  have hsame := Caravan.writeLanes_same s.me f.d.vreg (s.part f) v
  refine next_lanes (c := { (s.me.writeLanes f.d.vreg (s.part f) v).writePred n (s.part f) q with pc := s.me.pc + 12 })
    h hs ?_ hsame.rest ?_ ?_ ?_ rfl
  · rw [hb]
    have e : (s.putV f v).putP n f q = s.setMe ((s.me.writeLanes f.d.vreg (s.part f) v).writePred n (s.part f) q) := by
      show (s.putV f v).setMe _ = _
      rw [hpart]
      simp only [State.putV, State.me_setMe]
      rw [State.setMe_setMe]
    rw [e, State.advance_setMe _ _ h.caravan]
    have e2 : ((s.me.writeLanes f.d.vreg (s.part f) v).writePred n (s.part f) q).pc = s.me.pc := hsame.pc
    rw [e2]
  · intro r L hL; exact Caravan.writeLanes_reg s.me f.d.vreg (s.part f) v r L hL
  · intro m L hL
    have e := Caravan.writePred_pred (s.me.writeLanes f.d.vreg (s.part f) v) n (s.part f) q m L hL
    have ep : ∀ k, (s.me.writeLanes f.d.vreg (s.part f) v).pred k = s.me.pred k := fun k => by
      simp only [Caravan.pred, hsame.preds]
    rw [hsame.width, ep] at e
    exact e
  · simp only [Caravan.writePred, Caravan.setPred, hsame.flags]; simp

/-- Writes of registers leave the lanes that take part. -/
theorem part_putV (s : State) (f : Fields) (v : Nat → W32) : (s.putV f v).part f = s.part f := by
  have hsame := Caravan.writeLanes_same s.me f.d.vreg (s.part f) v
  have e : (s.putV f v).me = s.me.writeLanes f.d.vreg (s.part f) v := State.me_setMe _ _
  unfold State.part State.guardMask
  rw [e]
  simp only [Caravan.pred, hsame.mask, hsame.preds]

/-! ## S registers and the PC of either agent -/

theorem settle_setMe (s : State) (c : Caravan) (h : Running s) (st : c.st = s.me.st) (m : c.mask = s.me.mask)
    (t : c.trap = s.me.trap) : (s.setMe c).settle s.cur.core s.cur.slot = s.setMe c := by
  have e : (s.setMe c).cv s.cur.core s.cur.slot = c := State.me_setMe s c
  have ep : c.pending = s.me.pending := by simp [Caravan.pending, t]
  apply State.settle_running <;> rw [e]
  · rw [st]; exact h.state
  · rw [m]; exact h.lanes
  · rw [ep, t]; exact h.table

/-- An instruction of either agent whose body leaves `t`: for the caravan, the issuing caravan still runs with its lanes and
its trap record. -/
theorem issue_agent {i : Instr} {f : Fields} {s : State} (priv : Bool) (body : State → State) (c : Caravan)
    (h : AgentRuns i f s) (hs : s.cur.slice = false → sliceOnly i = false) (hp : priv = true → s.myCtx.priv = true)
    (hb : body s = s.setMe c) (st : c.st = s.me.st) (m : c.mask = s.me.mask) (t : c.trap = s.me.trap) :
    issue i f priv true body s = .next (s.setMe c) := by
  rcases h with h | h
  · rw [issue_once priv body h (hs h.caravan) hp, hb, settle_setMe s c h.runs st m t]
  · rw [issue_slice priv true body h hp, hb]

end Sys2Proof.Machine
end

