-- ==== Sys2Proof/Laws/Access.lean ====
section
/-! SUPPORT. An access of memory leaves the issuing agent, the next operation's number, and of every
caravan all but its register window, which a write to the core store may reach (R68, R71). -/

set_option linter.unreachableTactic false
set_option linter.unusedTactic false

namespace Sys2Proof.Machine

open Host (Outcome)

/-- The issuing agent and the next operation's number of s are those of z, and every caravan is as in z but for its register
window. -/
def AgentsButWin (z : List (Nat × Caravan)) (a : Agent) (n : Nat) (s : List (Nat × Caravan)) (b : Agent) (m : Nat) : Prop :=
  (b = a ∧ m = n) ∧ ∀ j, { sget Caravan.blank s j with win := (sget Caravan.blank z j).win } = sget Caravan.blank z j
abbrev ButWin (z s : State) : Prop := AgentsButWin z.cvs z.cur z.nextOp s.cvs s.cur s.nextOp

theorem ButWin.refl (z : State) : ButWin z z := ⟨⟨rfl, rfl⟩, fun _ => rfl⟩
theorem ButWin.cur {z s : State} (h : ButWin z s) : s.cur = z.cur := h.1.1
theorem ButWin.nextOp {z s : State} (h : ButWin z s) : s.nextOp = z.nextOp := h.1.2
theorem ButWin.cv {z s : State} (h : ButWin z s) (k n : Nat) : { s.cv k n with win := (z.cv k n).win } = z.cv k n := h.2 _
theorem ButWin.me {z s : State} (h : ButWin z s) : { s.me with win := z.me.win } = z.me := by
  unfold State.me; rw [h.cur]; exact h.cv _ _
theorem ButWin.setCv {z s : State} (h : ButWin z s) {k n : Nat} {c : Caravan} (w : List (Nat × W32))
    (hc : { c with win := (z.cv k n).win } = z.cv k n) : ButWin z (s.setCv k n { c with win := w }) := by
  refine ⟨h.1, fun j => ?_⟩
  simp only [State.setCv, sget_sset]
  split
  · rename_i e; rw [e]; exact hc
  · exact h.2 j
theorem butWin_fst {z : State} {α : Type} {p : State × α} {s : State} {x : α} (e : p = (s, x)) (h : ButWin z p.1) :
    ButWin z s := by
  subst e; exact h
theorem butWin_snd {z : State} {α : Type} {p : α × State} {s : State} {x : α} (e : p = (x, s)) (h : ButWin z p.2) :
    ButWin z s := by
  subst e; exact h
theorem butWin_id {z s : State} (h : ButWin z s) : ButWin z (id s) := h
theorem butWin_if {z p q : State} {c : Prop} [Decidable c] (hp : ButWin z p) (hq : ButWin z q) :
    ButWin z (if c then p else q) := by
  by_cases h : c
  · rw [if_pos h]; exact hp
  · rw [if_neg h]; exact hq
theorem butWin_ite {z : State} {α : Type} {c : Prop} [Decidable c] {p q : State × α} (hp : ButWin z p.1)
    (hq : ButWin z q.1) :
    ButWin z (if c then p else q).1 := by
  by_cases h : c
  · rw [if_pos h]; exact hp
  · rw [if_neg h]; exact hq
theorem foldl_butWin {z : State} {α : Type} {f : State → α → State} {s : State} {l : List α}
    (hf : ∀ t a, ButWin z t → ButWin z (f t a)) (h : ButWin z s) : ButWin z (l.foldl f s) := by
  induction l generalizing s with
  | nil => exact h
  | cons a l ih => exact ih (hf s a h)
theorem foldl_fst_butWin {z : State} {α β : Type} {f : State × β → α → State × β} {p : State × β} {l : List α}
    (hf : ∀ t a, ButWin z t.1 → ButWin z (f t a).1) (h : ButWin z p.1) : ButWin z (l.foldl f p).1 := by
  induction l generalizing p with
  | nil => exact h
  | cons a l ih => exact ih (hf p a h)
theorem foldl_served_butWin {z : State} {α : Type} {f : Served → α → Served} {a : Served} {l : List α}
    (hf : ∀ b x, ButWin z b.s → ButWin z (f b x).s) (h : ButWin z a.s) : ButWin z (l.foldl f a).s := by
  induction l generalizing a with
  | nil => exact h
  | cons x l ih => exact ih (hf a x h)

/-! ## Units -/

theorem State.setCore_butWin {z : State} (s : State) (k : Nat) (c : Core) (h : ButWin z s) :
    ButWin z (State.setCore s k c) := by
  unfold State.setCore
  repeat' first | with_reducible (first | assumption) | dsimp only

theorem State.setDie_butWin {z : State} (s : State) (d : Nat) (x : Die) (h : ButWin z s) :
    ButWin z (State.setDie s d x) := by
  unfold State.setDie
  repeat' first | with_reducible (first | assumption) | dsimp only

theorem State.setCtx_butWin {z : State} (s : State) (c : Nat) (x : Context) (h : ButWin z s) :
    ButWin z (State.setCtx s c x) := by
  unfold State.setCtx
  repeat' first | with_reducible (first | assumption) | dsimp only

theorem State.setChan_butWin {z : State} (s : State) (c : Nat) (x : Channel) (h : ButWin z s) :
    ButWin z (State.setChan s c x) := by
  unfold State.setChan
  repeat' first | with_reducible (first | assumption) | dsimp only

theorem State.setExecutor_butWin {z : State} (s : State) (n : Nat) (x : Executor) (h : ButWin z s) :
    ButWin z (State.setExecutor s n x) := by
  unfold State.setExecutor
  repeat' first | with_reducible (first | assumption) | dsimp only

theorem State.setSector_butWin {z : State} (s : State) (n : Nat) (x : Sector) (h : ButWin z s) :
    ButWin z (State.setSector s n x) := by
  unfold State.setSector
  repeat' first | with_reducible (first | assumption) | dsimp only

theorem State.setExtent_butWin {z : State} (s : State) (n : Nat) (x : Extent) (h : ButWin z s) :
    ButWin z (State.setExtent s n x) := by
  unfold State.setExtent
  repeat' first | with_reducible (first | assumption) | dsimp only

theorem State.setPort_butWin {z : State} (s : State) (p : Nat) (x : Port) (h : ButWin z s) :
    ButWin z (State.setPort s p x) := by
  unfold State.setPort
  repeat' first | with_reducible (first | assumption) | dsimp only | dsimp only [ButWin]

theorem State.setComm_butWin {z : State} (s : State) (c k : Nat) (x : Comm) (h : ButWin z s) :
    ButWin z (State.setComm s c k x) := by
  unfold State.setComm
  repeat' first | with_reducible (first | assumption) | dsimp only | dsimp only [ButWin]

theorem State.setTile_butWin {z : State} (s : State) (k t : Nat) (x : Tile) (h : ButWin z s) :
    ButWin z (State.setTile s k t x) := by
  unfold State.setTile
  repeat' first | with_reducible (first | assumption | apply State.setCore_butWin) | dsimp only

theorem State.setParty_butWin {z : State} (s : State) (k e : Nat) (x : Party) (h : ButWin z s) :
    ButWin z (State.setParty s k e x) := by
  unfold State.setParty
  repeat' first | with_reducible (first | assumption | apply State.setCore_butWin) | dsimp only

theorem State.coreStore_butWin {z : State} (s : State) (k o n x : Nat) (h : ButWin z s) :
    ButWin z (State.coreStore s k o n x) := by
  unfold State.coreStore
  repeat' first | with_reducible (first | assumption) | dsimp only

theorem State.send_butWin {z : State} (s : State) (m : Msg) (h : ButWin z s) :
    ButWin z (State.send s m) := by
  unfold State.send
  repeat' first
    | with_reducible first
        | assumption | apply butWin_fst (by assumption) | apply butWin_snd (by assumption)
        | apply flagsO_foldl_bind
    | dsimp only | split | dsimp only [ButWin]

theorem State.fresh_butWin {z : State} (s : State) (h : ButWin z s) :
    ButWin z (State.fresh s).2 := by
  unfold State.fresh
  repeat' first | with_reducible (first | assumption) | dsimp only

theorem State.retire_butWin {z : State} (s : State) (h : ButWin z s) :
    ButWin z (State.retire s) := by
  unfold State.retire
  repeat' first | with_reducible (first | assumption) | dsimp only

theorem State.setOp_butWin {z : State} (s : State) (o : Op) (h : ButWin z s) :
    ButWin z (State.setOp s o) := by
  unfold State.setOp
  repeat' first | with_reducible (first | assumption | intro _ | apply butWin_id) | dsimp only | split

theorem State.dropOp_butWin {z : State} (s : State) (id : Nat) (h : ButWin z s) :
    ButWin z (State.dropOp s id) := by
  unfold State.dropOp
  repeat' first | with_reducible (first | assumption | intro _ | apply butWin_id) | dsimp only

theorem State.finishOp_butWin {z : State} (s : State) (o : Op) (h : ButWin z s) :
    ButWin z (State.finishOp s o) := by
  unfold State.finishOp
  repeat' first | with_reducible (first | assumption | apply State.setOp_butWin | apply State.retire_butWin) | dsimp only

theorem State.addDevOp_butWin {z : State} (s : State) (c : Nat) (kind : OpKind) (remote : List Req) (h : ButWin z s) :
    ButWin z (State.addDevOp s c kind remote) := by
  unfold State.addDevOp
  repeat' first | with_reducible (first | assumption | apply butWin_id) | dsimp only

theorem State.chargeDie_butWin {z : State} (s : State) (d : Nat) (h : ButWin z s) :
    ButWin z (State.chargeDie s d) := by
  unfold State.chargeDie
  repeat' first
    | with_reducible first
        | assumption | apply State.fresh_butWin | apply butWin_fst (by assumption) | apply butWin_snd (by assumption)
    | dsimp only | split

theorem State.chargeCtx_butWin {z : State} (s : State) (c : Nat) (h : ButWin z s) :
    ButWin z (State.chargeCtx s c) := by
  unfold State.chargeCtx
  repeat' first
    | with_reducible first
        | assumption | apply State.fresh_butWin | apply State.setCtx_butWin | apply butWin_fst (by assumption)
        | apply butWin_snd (by assumption)
    | dsimp only | split

theorem State.event_butWin {z : State} (s : State) (whom : List Nat) (src typ hi : Nat) (h : ButWin z s) :
    ButWin z (State.event s whom src typ hi) := by
  unfold State.event
  repeat' first | with_reducible (first | assumption | intro _) | dsimp only

theorem State.chanEvent_butWin {z : State} (s : State) (whom : List Nat) (ch typ va asid bank row detail : Nat)
    (h : ButWin z s) :
    ButWin z (State.chanEvent s whom ch typ va asid bank row detail) := by
  unfold State.chanEvent
  repeat' first | with_reducible (first | assumption | apply State.event_butWin) | dsimp only

theorem State.ctxEvent_butWin {z : State} (s : State) (whom : List Nat) (src typ detail about : Nat) (h : ButWin z s) :
    ButWin z (State.ctxEvent s whom src typ detail about) := by
  unfold State.ctxEvent
  repeat' first | with_reducible (first | assumption | apply State.event_butWin) | dsimp only

theorem State.faultRecord_butWin {z : State} (s : State) (c kind id : Nat) (mask : W32) (word pc : Nat) (park : W32)
    (akind level typ counts va : Nat) (h : ButWin z s) :
    ButWin z (State.faultRecord s c kind id mask word pc park akind level typ counts va) := by
  unfold State.faultRecord
  repeat' first | with_reducible (first | assumption | apply butWin_id) | dsimp only

/-! ## Operands -/

theorem State.activate_butWin {z : State} (s : State) (o : Origin) (ch bank row : Nat) (h : ButWin z s) :
    ButWin z (State.activate s o ch bank row) := by
  unfold State.activate
  repeat' first
    | with_reducible first
        | assumption | apply State.setChan_butWin | apply State.chanEvent_butWin | apply butWin_fst (by assumption)
        | apply butWin_snd (by assumption)
    | dsimp only | split

theorem State.openRow_butWin {z : State} (s : State) (o : Origin) (ch bank row : Nat) (write : Bool) (h : ButWin z s) :
    ButWin z (State.openRow s o ch bank row write) := by
  unfold State.openRow
  repeat' first
    | with_reducible first
        | assumption | intro _ | apply State.setChan_butWin | apply State.activate_butWin
    | dsimp only | split

theorem State.uncorrectable_butWin {z : State} (s : State) (o : Origin) (n grade ev : Nat) (h : ButWin z s) :
    ButWin z (State.uncorrectable s o n grade ev) := by
  unfold State.uncorrectable
  repeat' first | with_reducible (first | assumption | apply State.setChan_butWin | apply State.chanEvent_butWin) | dsimp only

theorem State.readSector_butWin {z : State} (s : State) (o : Origin) (n key grade ev : Nat) (held : Bool) (h : ButWin z s) :
    ButWin z (State.readSector s o n key grade ev held).1 := by
  unfold State.readSector
  repeat' first
    | with_reducible first
        | assumption | intro _ | apply State.fresh_butWin | apply State.uncorrectable_butWin | apply State.setSector_butWin
        | apply State.setChan_butWin | apply foldl_butWin | apply foldl_fst_butWin | apply butWin_fst (by assumption)
        | apply butWin_snd (by assumption)
    | dsimp only | split

theorem State.writeSector_butWin {z : State} (s : State) (o : Origin) (n key grade : Nat) (m : BitVec 32) (data : Nat)
    (held : Bool) (h : ButWin z s) :
    ButWin z (State.writeSector s o n key grade m data held) := by
  unfold State.writeSector
  repeat' first
    | with_reducible first
        | assumption | intro _ | apply State.readSector_butWin | apply State.setSector_butWin | apply foldl_butWin
        | apply foldl_fst_butWin | apply butWin_fst (by assumption) | apply butWin_snd (by assumption)
    | dsimp only | split

theorem State.sendBytes_butWin {z : State} (s : State) (node : BitVec 16) (c base : Nat) (m : BitVec 128) (x : BitVec 1024)
    (code : Nat → BitVec 128 → BitVec 128) (h : ButWin z s) :
    ButWin z (State.sendBytes s node c base m x code) := by
  unfold State.sendBytes
  repeat' first
    | with_reducible first
        | assumption | intro _ | apply State.send_butWin | apply State.addDevOp_butWin | apply foldl_butWin
        | apply foldl_fst_butWin | apply butWin_fst (by assumption) | apply butWin_snd (by assumption)
    | dsimp only | split

theorem State.sendExtent_butWin {z : State} (s : State) (id off : Nat) (m : BitVec 128) (x : BitVec 1024) (h : ButWin z s) :
    ButWin z (State.sendExtent s id off m x) := by
  unfold State.sendExtent
  repeat' first | with_reducible (first | assumption | apply State.sendBytes_butWin | apply butWin_id) | dsimp only

theorem State.mscOut_butWin {z : State} (s : State) (ch : Nat) (l : MscLine) (h : ButWin z s) :
    ButWin z (State.mscOut s ch l) := by
  unfold State.mscOut
  repeat' first
    | with_reducible first
        | assumption | intro _ | apply State.setChan_butWin | apply State.sendExtent_butWin | apply State.openRow_butWin
        | apply State.setSector_butWin | apply foldl_butWin | apply foldl_fst_butWin | apply butWin_fst (by assumption)
        | apply butWin_snd (by assumption) | apply butWin_id
    | dsimp only | split

theorem State.mscRoom_butWin {z : State} (s : State) (ch asid tag : Nat) (h : ButWin z s) :
    ButWin z (State.mscRoom s ch asid tag) := by
  unfold State.mscRoom
  repeat' first
    | with_reducible first
        | assumption | apply State.mscOut_butWin | apply butWin_fst (by assumption) | apply butWin_snd (by assumption)
    | dsimp only | split

theorem State.mscHold_butWin {z : State} (s : State) (o : Origin) (base j : Nat) (dirty : Bool) (h : ButWin z s) :
    ButWin z (State.mscHold s o base j dirty) := by
  unfold State.mscHold
  repeat' first
    | with_reducible first
        | assumption | intro _ | apply State.setChan_butWin | apply State.mscRoom_butWin | apply butWin_fst (by assumption)
        | apply butWin_snd (by assumption)
    | dsimp only | split

theorem State.readLine_butWin {z : State} (s : State) (o : Origin) (flat key grade : Nat) (m : BitVec 128) (alloc : Bool)
    (h : ButWin z s) :
    ButWin z (State.readLine s o flat key grade m alloc).1 := by
  unfold State.readLine
  repeat' first
    | with_reducible first
        | assumption | intro _ | apply State.mscHold_butWin | apply State.openRow_butWin | apply State.readSector_butWin
        | apply foldl_butWin | apply foldl_fst_butWin | apply butWin_fst (by assumption) | apply butWin_snd (by assumption)
    | dsimp only | split

theorem State.writeLine_butWin {z : State} (s : State) (o : Origin) (flat key grade : Nat) (m : BitVec 128) (x : BitVec 1024)
    (alloc : Bool) (h : ButWin z s) :
    ButWin z (State.writeLine s o flat key grade m x alloc) := by
  unfold State.writeLine
  repeat' first
    | with_reducible first
        | assumption | intro _ | apply State.openRow_butWin | apply State.writeSector_butWin | apply State.mscHold_butWin
        | apply foldl_butWin | apply foldl_fst_butWin | apply butWin_fst (by assumption) | apply butWin_snd (by assumption)
    | dsimp only | split

/-! ## Translate -/

theorem State.noteWait_butWin {z : State} (s : State) (ch op : Nat) (h : ButWin z s) :
    ButWin z (State.noteWait s ch op) := by
  unfold State.noteWait
  repeat' first | with_reducible (first | assumption | apply State.setChan_butWin) | dsimp only | split

theorem State.noteServed_butWin {z : State} (s : State) (ch op : Nat) (h : ButWin z s) :
    ButWin z (State.noteServed s ch op) := by
  unfold State.noteServed
  repeat' first | with_reducible (first | assumption | intro _ | apply State.setChan_butWin) | dsimp only | split

theorem State.readEntry_butWin {z : State} (s : State) (c asid va entry : Nat) (h : ButWin z s) :
    ButWin z (State.readEntry s c asid va entry).1 := by
  unfold State.readEntry
  repeat' first
    | with_reducible first
        | assumption | apply State.readLine_butWin | apply butWin_fst (by assumption) | apply butWin_snd (by assumption)
    | dsimp only | split

theorem State.walkFrom_butWin {z : State} (s : State) (c asid va : Nat) (wait : Option Nat) (e0 : Nat) (e1 : Nat)
    (h : ButWin z s) :
    ButWin z (State.walkFrom s c asid va wait e0 e1).1 := by
  induction e0 generalizing s c asid va wait e1 with
  | zero =>
    unfold State.walkFrom
    repeat' first
      | with_reducible first
          | assumption | apply State.noteWait_butWin | apply State.noteServed_butWin | apply State.readEntry_butWin
          | apply butWin_fst (by assumption) | apply butWin_snd (by assumption)
      | dsimp only | split
  | succ _ ih =>
    unfold State.walkFrom
    repeat' first
      | with_reducible first
          | assumption | apply ih | apply State.noteWait_butWin | apply State.noteServed_butWin | apply State.readEntry_butWin
          | apply butWin_fst (by assumption) | apply butWin_snd (by assumption)
      | dsimp only | split

theorem State.countAccess_butWin {z : State} (s : State) (c ch die va : Nat) (h : ButWin z s) :
    ButWin z (State.countAccess s c ch die va) := by
  unfold State.countAccess
  repeat' first
    | with_reducible first
        | assumption | intro _ | apply State.setChan_butWin | apply State.faultRecord_butWin | apply butWin_fst (by assumption)
        | apply butWin_snd (by assumption)
    | dsimp only | split

theorem State.countServed_butWin {z : State} (s : State) (c ch die va : Nat) (l : Leaf) (h : ButWin z s) :
    ButWin z (State.countServed s c ch die va l) := by
  unfold State.countServed
  repeat' first | with_reducible (first | assumption | apply State.countAccess_butWin) | dsimp only | split

theorem State.translate_butWin {z : State} (s : State) (c ch va : Nat) (wait : Option Nat) (h : ButWin z s) :
    ButWin z (State.translate s c ch va wait).1 := by
  unfold State.translate
  repeat' first
    | with_reducible first
        | assumption | apply State.walkFrom_butWin | apply State.setChan_butWin | apply State.chanEvent_butWin
        | apply butWin_fst (by assumption) | apply butWin_snd (by assumption)
    | dsimp only | split

/-! ## Cache -/

theorem State.setD_butWin {z : State} (s : State) (c va : Nat) (l : Leaf) (h : ButWin z s) :
    ButWin z (State.setD s c va l) := by
  unfold State.setD
  repeat' first
    | with_reducible first
        | assumption | intro _ | apply State.setDie_butWin | apply State.readLine_butWin | apply State.writeLine_butWin
        | apply State.setChan_butWin | apply butWin_fst (by assumption) | apply butWin_snd (by assumption)
    | dsimp only | split

theorem State.writebackD_butWin {z : State} (s : State) (asid : BitVec 16) (va : Nat) (h : ButWin z s) :
    ButWin z (State.writebackD s asid va) := by
  unfold State.writebackD
  repeat' first
    | with_reducible first
        | assumption | apply State.translate_butWin | apply State.countServed_butWin | apply State.setD_butWin
        | apply butWin_fst (by assumption) | apply butWin_snd (by assumption)
    | dsimp only | split

theorem State.putExt_butWin {z : State} (s : State) (ch : Nat) (asid : BitVec 16) (tag id off : Nat) (m : BitVec 128)
    (x : BitVec 1024) (dirty : Bool) (h : ButWin z s) :
    ButWin z (State.putExt s ch asid tag id off m x dirty) := by
  unfold State.putExt
  repeat' first
    | with_reducible first
        | assumption | intro _ | apply State.mscRoom_butWin | apply State.setChan_butWin
        | apply butWin_id
    | dsimp only | split

theorem State.flushExt_butWin {z : State} (s : State) (p : MscLine → Bool) (drop : Bool) (h : ButWin z s) :
    ButWin z (State.flushExt s p drop) := by
  unfold State.flushExt
  repeat' first
    | with_reducible first
        | assumption | intro _ | apply State.sendExtent_butWin | apply State.setChan_butWin | apply foldl_butWin
        | apply foldl_fst_butWin | apply butWin_fst (by assumption) | apply butWin_snd (by assumption)
        | apply butWin_id
    | dsimp only | split

theorem State.lineOut_butWin {z : State} (s : State) (l : Line) (h : ButWin z s) :
    ButWin z (State.lineOut s l) := by
  unfold State.lineOut
  repeat' first
    | with_reducible first
        | assumption | intro _ | apply State.noteServed_butWin | apply State.writebackD_butWin | apply State.writeLine_butWin
        | apply State.putExt_butWin | apply State.sendBytes_butWin | apply foldl_butWin | apply foldl_fst_butWin
        | apply butWin_fst (by assumption) | apply butWin_snd (by assumption) | apply foldl_served_butWin
    | dsimp only | split

theorem State.flushLine_butWin {z : State} (s : State) (d : Nat) (p : Line → Bool) (l : Line) (h : ButWin z s) :
    ButWin z (State.flushLine s d p l) := by
  unfold State.flushLine
  repeat' first
    | with_reducible first
        | assumption | intro _ | apply State.noteWait_butWin | apply State.lineOut_butWin | apply State.setDie_butWin
        | apply butWin_fst (by assumption) | apply butWin_snd (by assumption)
    | dsimp only | split

theorem State.flushL2_butWin {z : State} (s : State) (d : Nat) (p : Line → Bool) (drop : Bool) (h : ButWin z s) :
    ButWin z (State.flushL2 s d p drop) := by
  unfold State.flushL2
  repeat' first
    | with_reducible first
        | assumption | intro _ | apply State.flushLine_butWin | apply State.setDie_butWin | apply foldl_butWin
        | apply foldl_fst_butWin | apply butWin_fst (by assumption) | apply butWin_snd (by assumption)
    | dsimp only | split

theorem State.dropL2_butWin {z : State} (s : State) (d : Nat) (p : Line → Bool) (h : ButWin z s) :
    ButWin z (State.dropL2 s d p) := by
  unfold State.dropL2
  repeat' first | with_reducible (first | assumption | intro _ | apply State.setDie_butWin) | dsimp only

theorem State.putL2_butWin {z : State} (s : State) (d : Nat) (l : Line) (h : ButWin z s) :
    ButWin z (State.putL2 s d l) := by
  unfold State.putL2
  repeat' first
    | with_reducible first
        | assumption | intro _ | apply State.lineOut_butWin | apply State.dropL2_butWin | apply State.setDie_butWin
        | apply butWin_fst (by assumption) | apply butWin_snd (by assumption)
    | dsimp only | split

theorem State.unveilMask_butWin {z : State} (s : State) (asid : BitVec 16) (tag : Nat) (m : BitVec 128) (h : ButWin z s) :
    ButWin z (State.unveilMask s asid tag m) := by
  unfold State.unveilMask
  repeat' first | with_reducible (first | assumption | intro _) | dsimp only | split | dsimp only [ButWin]

theorem State.toL2_butWin {z : State} (s : State) (l : Line) (m : BitVec 128) (h : ButWin z s) :
    ButWin z (State.toL2 s l m) := by
  unfold State.toL2
  repeat' first
    | with_reducible first
        | assumption | apply State.unveilMask_butWin | apply State.putL2_butWin
    | dsimp only | split

theorem State.cleanL1_butWin {z : State} (s : State) (k : Nat) (asid : BitVec 16) (tag : Nat) (h : ButWin z s) :
    ButWin z (State.cleanL1 s k asid tag) := by
  unfold State.cleanL1
  repeat' first
    | with_reducible first
        | assumption | intro _ | apply State.toL2_butWin | apply State.setCore_butWin | apply butWin_fst (by assumption)
        | apply butWin_snd (by assumption)
    | dsimp only | split

theorem State.dropL1_butWin {z : State} (s : State) (k : Nat) (asid : BitVec 16) (tag : Nat) (h : ButWin z s) :
    ButWin z (State.dropL1 s k asid tag) := by
  unfold State.dropL1
  repeat' first | with_reducible (first | assumption | intro _ | apply State.setCore_butWin) | dsimp only

theorem State.putL1_butWin {z : State} (s : State) (k : Nat) (l : Line) (h : ButWin z s) :
    ButWin z (State.putL1 s k l) := by
  unfold State.putL1
  repeat' first
    | with_reducible first
        | assumption | apply State.cleanL1_butWin | apply State.dropL1_butWin | apply State.setCore_butWin
        | apply butWin_fst (by assumption) | apply butWin_snd (by assumption)
    | dsimp only | split

theorem State.cleanL1All_butWin {z : State} (s : State) (k : Nat) (p : Line → Bool) (h : ButWin z s) :
    ButWin z (State.cleanL1All s k p) := by
  unfold State.cleanL1All
  repeat' first
    | with_reducible first
        | assumption | intro _ | apply State.cleanL1_butWin | apply foldl_butWin | apply foldl_fst_butWin
        | apply butWin_fst (by assumption) | apply butWin_snd (by assumption)
    | dsimp only | split

theorem State.takeFifo_butWin {z : State} (s : State) (k : Nat) (l : Line) (h : ButWin z s) :
    ButWin z (State.takeFifo s k l) := by
  unfold State.takeFifo
  repeat' first
    | with_reducible first
        | assumption | apply State.cleanL1_butWin | apply State.setCore_butWin | apply butWin_fst (by assumption)
        | apply butWin_snd (by assumption)
    | dsimp only | split

theorem State.drainFifo_butWin {z : State} (s : State) (k : Nat) (slot : Option Nat) (h : ButWin z s) :
    ButWin z (State.drainFifo s k slot) := by
  unfold State.drainFifo
  repeat' first
    | with_reducible first
        | assumption | intro _ | apply State.cleanL1_butWin | apply State.setCore_butWin | apply foldl_butWin
        | apply foldl_fst_butWin | apply butWin_fst (by assumption) | apply butWin_snd (by assumption)
    | dsimp only | split

theorem State.acquireL1_butWin {z : State} (s : State) (k : Nat) (p : Line → Bool) (h : ButWin z s) :
    ButWin z (State.acquireL1 s k p) := by
  unfold State.acquireL1
  repeat' first | with_reducible (first | assumption | intro _ | apply State.setCore_butWin) | dsimp only | split

/-! ## Access -/

theorem State.reroute_butWin {z : State} (s : State) (p : Nat) (h : ButWin z s) :
    ButWin z (State.reroute s p) := by
  unfold State.reroute
  repeat' first
    | with_reducible first
        | assumption | intro _ | apply State.setPort_butWin | apply foldl_butWin | apply foldl_fst_butWin
        | apply butWin_fst (by assumption) | apply butWin_snd (by assumption)
    | dsimp only | split | dsimp only [ButWin]

theorem State.disSet_butWin {z : State} (s : State) (p : Nat) (h : ButWin z s) :
    ButWin z (State.disSet s p) := by
  unfold State.disSet
  repeat' first | with_reducible (first | assumption | apply State.setPort_butWin | apply State.reroute_butWin) | dsimp only

theorem State.disClear_butWin {z : State} (s : State) (p : Nat) (h : ButWin z s) :
    ButWin z (State.disClear s p) := by
  unfold State.disClear
  repeat' first | with_reducible (first | assumption | apply State.setPort_butWin) | dsimp only | split

theorem State.setPortReg_butWin {z : State} (s : State) (p o : Nat) (x : W64) (h : ButWin z s) :
    ButWin z (State.setPortReg s p o x) := by
  unfold State.setPortReg
  repeat' first
    | with_reducible first
        | assumption | apply State.disSet_butWin | apply State.disClear_butWin | apply State.setPort_butWin
    | dsimp only | split

theorem State.regAccess_butWin {z : State} (s : State) (u : User) (va n : Nat) (act : Act) (h : ButWin z s) :
    ButWin z (State.regAccess s u va n act).1 := by
  unfold State.regAccess
  repeat' first
    | with_reducible first
        | assumption | apply State.setChan_butWin | apply State.setPortReg_butWin | apply butWin_fst (by assumption)
        | apply butWin_snd (by assumption)
    | dsimp only | split

theorem State.setStoreByte_butWin {z : State} (s : State) (k o : Nat) (x : Byte) (h : ButWin z s) :
    ButWin z (State.setStoreByte s k o x) := by
  unfold State.setStoreByte
  split
  · exact h.setCv _ (h.2 _)
  · exact h

theorem State.storePut_butWin {z : State} (s : State) (k o : Nat) (e0 : Nat) (e1 : Nat) (h : ButWin z s) :
    ButWin z (State.storePut s k o e0 e1) := by
  induction e0 generalizing s k o e1 with
  | zero =>
    unfold State.storePut
    repeat' first | with_reducible (first | assumption | apply State.setStoreByte_butWin) | dsimp only
  | succ _ ih =>
    unfold State.storePut
    repeat' first | with_reducible (first | assumption | apply ih | apply State.setStoreByte_butWin) | dsimp only

theorem State.windowAccess_butWin {z : State} (s : State) (u : User) (k o n : Nat) (act : Act) (h : ButWin z s) :
    ButWin z (State.windowAccess s u k o n act).1 := by
  unfold State.windowAccess
  repeat' first
    | with_reducible first
        | assumption | apply State.storePut_butWin | apply butWin_fst (by assumption) | apply butWin_snd (by assumption)
    | dsimp only | split

theorem State.pointAccess_butWin {z : State} (s : State) (u : User) (ch : Nat) (l : Leaf) (va n : Nat) (act : Act)
    (h : ButWin z s) :
    ButWin z (State.pointAccess s u ch l va n act).1 := by
  unfold State.pointAccess
  repeat' first
    | with_reducible first
        | assumption | apply State.noteWait_butWin | apply State.noteServed_butWin | apply State.setD_butWin
        | apply State.countServed_butWin | apply State.readLine_butWin | apply State.writeLine_butWin | apply State.storePut_butWin
        | apply State.putExt_butWin | apply butWin_fst (by assumption) | apply butWin_snd (by assumption)
        | apply butWin_id
    | dsimp only | split

theorem State.veil_butWin {z : State} (s : State) (a : Agent) (op : Nat) (asid : BitVec 16) (va x n : Nat) (h : ButWin z s) :
    ButWin z (State.veil s a op asid va x n) := by
  unfold State.veil
  repeat' first | with_reducible (first | assumption | intro _) | dsimp only | dsimp only [ButWin]

theorem State.homeView_butWin {z : State} (s : State) (u : User) (va n : Nat) (act : Act) (r : State × Res) (h : ButWin z r.1) :
    ButWin z (State.homeView s u va n act r).1 := by
  unfold State.homeView
  split
  · split
    · exact h
    · dsimp only
      split
      · exact State.unveilMask_butWin _ _ _ _ h
      · exact h
  · exact h

theorem State.findLeaf_butWin {z : State} (s : State) (u : User) (ch va : Nat) (write : Bool) (h : ButWin z s) :
    ButWin z (State.findLeaf s u ch va write).1 := by
  unfold State.findLeaf
  repeat' first
    | with_reducible first
        | assumption | apply State.translate_butWin | apply butWin_fst (by assumption) | apply butWin_snd (by assumption)
    | dsimp only | split

theorem State.lineFrom_butWin {z : State} (s : State) (u : User) (ch : Nat) (l : Leaf) (va : Nat) (h : ButWin z s) :
    ButWin z (State.lineFrom s u ch l va).1 := by
  unfold State.lineFrom
  repeat' first
    | with_reducible first
        | assumption | apply State.readLine_butWin | apply butWin_fst (by assumption) | apply butWin_snd (by assumption)
        | apply butWin_id
    | dsimp only | split

theorem State.fromHome_butWin {z : State} (s : State) (u : User) (ch va : Nat) (need : BitVec 128) (write : Bool)
    (known : Option Leaf) (h : ButWin z s) :
    ButWin z (State.fromHome s u ch va need write known).1 := by
  unfold State.fromHome
  repeat' first
    | with_reducible first
        | assumption | apply State.findLeaf_butWin | apply State.noteWait_butWin | apply State.noteServed_butWin
        | apply State.setD_butWin | apply State.countServed_butWin | apply State.fresh_butWin | apply State.lineFrom_butWin
        | apply State.putL2_butWin | apply butWin_fst (by assumption) | apply butWin_snd (by assumption)
    | dsimp only | split

theorem State.homePut_butWin {z : State} (s : State) (d : Nat) (l : Line) (p n : Nat) (act : Act) (h : ButWin z s) :
    ButWin z (State.homePut s d l p n act).1 := by
  unfold State.homePut
  repeat' first
    | with_reducible first
        | assumption | apply State.putL2_butWin | apply butWin_fst (by assumption) | apply butWin_snd (by assumption)
    | dsimp only | split

theorem State.homeAccess_butWin {z : State} (s : State) (u : User) (ch va n : Nat) (act : Act) (known : Option Leaf)
    (h : ButWin z s) :
    ButWin z (State.homeAccess s u ch va n act known).1 := by
  unfold State.homeAccess
  repeat' first
    | with_reducible first
        | assumption | apply State.fromHome_butWin | apply State.pointAccess_butWin | apply State.homePut_butWin
        | apply butWin_fst (by assumption) | apply butWin_snd (by assumption)
    | dsimp only | split

theorem State.l1Access_butWin {z : State} (s : State) (u : User) (k ch va n : Nat) (act : Act) (h : ButWin z s) :
    ButWin z (State.l1Access s u k ch va n act).1 := by
  unfold State.l1Access
  extract_lets p asid held denied have_ cold
  split
  · exact h
  · split
    rename_i t r e
    have ht : ButWin z t := by
      refine butWin_fst e ?_
      clear e
      repeat' first
        | with_reducible (first | assumption | exact butWin_fst (by assumption) (State.fromHome_butWin _ _ _ _ _ _ _ h) | apply State.fromHome_butWin)
        | dsimp only | split
    repeat' first
      | with_reducible (first | assumption | apply State.homeView_butWin | apply State.pointAccess_butWin | apply State.homePut_butWin | apply State.putL1_butWin | apply State.takeFifo_butWin | apply State.setCore_butWin)
      | dsimp only | split

theorem State.beforeHome_butWin {z : State} (s : State) (u : User) (va : Nat) (h : ButWin z s) :
    ButWin z (State.beforeHome s u va) := by
  unfold State.beforeHome
  repeat' first
    | with_reducible first
        | assumption | apply State.cleanL1_butWin | apply butWin_fst (by assumption) | apply butWin_snd (by assumption)
    | dsimp only | split

theorem State.l2LineOut_butWin {z : State} (s : State) (c ch va : Nat) (drop : Bool) (h : ButWin z s) :
    ButWin z (State.l2LineOut s c ch va drop) := by
  unfold State.l2LineOut
  repeat' first | with_reducible (first | assumption | intro _ | apply State.flushL2_butWin) | dsimp only

theorem State.updateL1_butWin {z : State} (s : State) (u : User) (va n x : Nat) (h : ButWin z s) :
    ButWin z (State.updateL1 s u va n x) := by
  unfold State.updateL1
  repeat' first
    | with_reducible first
        | assumption | apply State.putL1_butWin | apply butWin_fst (by assumption) | apply butWin_snd (by assumption)
    | dsimp only | split

theorem State.metaAccess_butWin {z : State} (s : State) (u : User) (ch va : Nat) (act : Act) (h : ButWin z s) :
    ButWin z (State.metaAccess s u ch va act).1 := by
  unfold State.metaAccess
  repeat' first
    | with_reducible first
        | assumption | apply State.findLeaf_butWin | apply State.noteWait_butWin | apply State.noteServed_butWin
        | apply State.setD_butWin | apply State.countServed_butWin | apply State.openRow_butWin | apply State.setSector_butWin
        | apply State.readLine_butWin | apply butWin_fst (by assumption) | apply butWin_snd (by assumption)
    | dsimp only | split

theorem State.accessAt_butWin {z : State} (s : State) (u : User) (pl : Place) (ch va n : Nat) (act : Act) (h : ButWin z s) :
    ButWin z (State.accessAt s u pl ch va n act).1 := by
  unfold State.accessAt
  repeat' first
    | with_reducible first
        | assumption | intro _ | apply State.metaAccess_butWin | apply State.l1Access_butWin | apply State.homeView_butWin
        | apply State.homeAccess_butWin | apply State.beforeHome_butWin | apply State.noteWait_butWin
        | apply State.noteServed_butWin | apply State.setD_butWin | apply State.countServed_butWin | apply State.flushExt_butWin
        | apply State.l2LineOut_butWin | apply State.findLeaf_butWin | apply State.pointAccess_butWin | apply State.updateL1_butWin
        | apply State.dropL1_butWin | apply butWin_fst (by assumption) | apply butWin_snd (by assumption)
    | dsimp only | split

theorem State.access_butWin {z : State} (s : State) (u : User) (pl : Place) (va n : Nat) (act : Act) (h : ButWin z s) :
    ButWin z (State.access s u pl va n act).1 := by
  unfold State.access
  repeat' first
    | with_reducible first
        | assumption | apply State.regAccess_butWin | apply State.windowAccess_butWin | apply State.accessAt_butWin
        | apply butWin_fst (by assumption) | apply butWin_snd (by assumption)
    | dsimp only | split

theorem State.checkedAccess_butWin {z : State} (s : State) (u : User) (pl : Place) (va : W64) (n align : Nat) (act : Act)
    (h : ButWin z s) :
    ButWin z (State.checkedAccess s u pl va n align act).1 := by
  unfold State.checkedAccess
  repeat' first | with_reducible (first | assumption | apply State.access_butWin) | dsimp only | split

/-! ## Records -/

theorem State.fillBytes_butWin {z : State} (s : State) (u : User) (va n : Nat) (x : BitVec 128) (h : ButWin z s) :
    ButWin z (State.fillBytes s u va n x) := by
  unfold State.fillBytes
  repeat' first
    | with_reducible first
        | assumption | apply State.translate_butWin | apply State.putExt_butWin | apply State.putL2_butWin
        | apply butWin_fst (by assumption) | apply butWin_snd (by assumption) | apply butWin_id
    | dsimp only | split

theorem State.askNode_butWin {z : State} (s : State) (node : BitVec 16) (c : Nat) (addr : W64) (r : Req) (h : ButWin z s) :
    ButWin z (State.askNode s node c addr r).1 := by
  unfold State.askNode
  repeat' first
    | with_reducible first
        | assumption | intro _ | apply State.setOp_butWin | apply butWin_fst (by assumption) | apply butWin_snd (by assumption)
       
    | dsimp only | split | dsimp only [ButWin]

theorem State.ask_butWin {z : State} (s : State) (u : User) (pl : Place) (va n : Nat) (act : Act) (h : ButWin z s) :
    ButWin z (State.ask s u pl va n act).1 := by
  unfold State.ask
  repeat' first
    | with_reducible first
        | assumption | apply State.access_butWin | apply State.askNode_butWin | apply State.fillBytes_butWin
        | apply butWin_fst (by assumption) | apply butWin_snd (by assumption)
    | dsimp only | split | dsimp only [ButWin]

theorem State.askChecked_butWin {z : State} (s : State) (u : User) (pl : Place) (va : W64) (n : Nat) (act : Act)
    (h : ButWin z s) :
    ButWin z (State.askChecked s u pl va n act).1 := by
  unfold State.askChecked
  repeat' first | with_reducible (first | assumption | apply State.ask_butWin) | dsimp only | split

theorem State.dropAnswers_butWin {z : State} (s : State) (h : ButWin z s) :
    ButWin z (State.dropAnswers s) := by
  unfold State.dropAnswers
  repeat' first | with_reducible (first | assumption | intro _) | dsimp only

theorem State.dropAsked_butWin {z : State} (s : State) (p : Nat → Bool) (h : ButWin z s) :
    ButWin z (State.dropAsked s p) := by
  unfold State.dropAsked
  repeat' first
    | with_reducible first
        | assumption | intro _ | apply butWin_fst (by assumption) | apply butWin_snd (by assumption)
    | dsimp only | split

theorem State.awaits_butWin {z : State} (s t : State) (hs : ButWin z s) (ht : ButWin z t) :
    ButWin z (State.awaits s t) := by
  unfold State.awaits
  repeat' first
    | with_reducible first
        | assumption | intro _ | apply State.setChan_butWin | apply State.addDevOp_butWin | apply State.send_butWin
        | apply foldl_butWin | apply foldl_fst_butWin | apply butWin_fst (by assumption) | apply butWin_snd (by assumption)
    | dsimp only | split

theorem State.whole_butWin {z : State} (s : State) (body : State → State) (h : ButWin z s)
    (hbody : ∀ x, ButWin z x → ButWin z (body x)) :
    ButWin z (State.whole s body).1 := by
  unfold State.whole
  repeat' first
    | with_reducible first
        | assumption | intro _ | apply State.dropAnswers_butWin | apply State.awaits_butWin | apply hbody
    | dsimp only | split

theorem State.devRead_butWin {z : State} (s : State) (c va n : Nat) (h : ButWin z s) :
    ButWin z (State.devRead s c va n).1 := by
  unfold State.devRead
  repeat' first
    | with_reducible first
        | assumption | apply State.ask_butWin | apply butWin_fst (by assumption) | apply butWin_snd (by assumption)
    | dsimp only | split

theorem State.devWrite_butWin {z : State} (s : State) (c va n x : Nat) (h : ButWin z s) :
    ButWin z (State.devWrite s c va n x).1 := by
  unfold State.devWrite
  repeat' first
    | with_reducible first
        | assumption | apply State.ask_butWin | apply butWin_fst (by assumption) | apply butWin_snd (by assumption)
    | dsimp only | split

theorem State.devReads_butWin {z : State} (s : State) (c va k : Nat) (e0 : Nat) (h : ButWin z s) :
    ButWin z (State.devReads s c va k e0).1 := by
  induction e0 generalizing s c va k with
  | zero =>
    unfold State.devReads
    repeat' first
      | with_reducible first
          | assumption | apply State.devRead_butWin | apply butWin_fst (by assumption) | apply butWin_snd (by assumption)
      | dsimp only | split
  | succ _ ih =>
    unfold State.devReads
    repeat' first
      | with_reducible first
          | assumption | apply ih | apply State.devRead_butWin | apply butWin_fst (by assumption)
          | apply butWin_snd (by assumption)
      | dsimp only | split

theorem State.devWrites_butWin {z : State} (s : State) (c va k : Nat) (e0 : Nat) (e1 : Nat) (h : ButWin z s) :
    ButWin z (State.devWrites s c va k e0 e1).1 := by
  induction e0 generalizing s c va k e1 with
  | zero =>
    unfold State.devWrites
    repeat' first
      | with_reducible first
          | assumption | apply State.devWrite_butWin | apply butWin_fst (by assumption) | apply butWin_snd (by assumption)
      | dsimp only | split
  | succ _ ih =>
    unfold State.devWrites
    repeat' first
      | with_reducible first
          | assumption | apply ih | apply State.devWrite_butWin | apply butWin_fst (by assumption)
          | apply butWin_snd (by assumption)
      | dsimp only | split

theorem State.queueWrite_butWin {z : State} (s : State) (c : Nat) (fault : Bool) (va k : Nat) (e0 : Nat) (e1 : Nat)
    (h : ButWin z s) :
    ButWin z (State.queueWrite s c fault va k e0 e1).1 := by
  induction e0 generalizing s c fault va k e1 with
  | zero =>
    unfold State.queueWrite
    repeat' first
      | with_reducible first
          | assumption | apply State.askNode_butWin | apply State.devWrite_butWin | apply butWin_fst (by assumption)
          | apply butWin_snd (by assumption)
      | dsimp only | split
  | succ _ ih =>
    unfold State.queueWrite
    repeat' first
      | with_reducible first
          | assumption | apply ih | apply State.askNode_butWin | apply State.devWrite_butWin | apply butWin_fst (by assumption)
          | apply butWin_snd (by assumption)
      | dsimp only | split

theorem State.setQueue_butWin {z : State} (s : State) (c : Nat) (fault : Bool) (q : RecQueue) (h : ButWin z s) :
    ButWin z (State.setQueue s c fault q) := by
  unfold State.setQueue
  repeat' first | with_reducible (first | assumption | apply State.setCtx_butWin) | dsimp only

theorem State.readCons_butWin {z : State} (s : State) (c : Nat) (fault : Bool) (h : ButWin z s) :
    ButWin z (State.readCons s c fault) := by
  unfold State.readCons
  repeat' first
    | with_reducible first
        | assumption | apply State.devRead_butWin | apply State.askNode_butWin | apply State.setQueue_butWin
        | apply butWin_fst (by assumption) | apply butWin_snd (by assumption)
    | dsimp only | split

theorem State.writeOvf_butWin {z : State} (s : State) (c : Nat) (fault : Bool) (h : ButWin z s) :
    ButWin z (State.writeOvf s c fault) := by
  unfold State.writeOvf
  repeat' first
    | with_reducible first
        | assumption | intro _ | apply State.whole_butWin | apply State.queueWrite_butWin | apply State.setQueue_butWin
        | apply butWin_fst (by assumption) | apply butWin_snd (by assumption)
    | dsimp only | split

theorem State.holdRecord_butWin {z : State} (s : State) (c : Nat) (fault : Bool) (bits : Nat) (h : ButWin z s) :
    ButWin z (State.holdRecord s c fault bits) := by
  unfold State.holdRecord
  repeat' first | with_reducible (first | assumption | apply State.setQueue_butWin | apply State.writeOvf_butWin) | dsimp only

theorem State.postFails_butWin {z : State} (s : State) (c : Nat) (fault : Bool) (va : Nat) (h : ButWin z s) :
    ButWin z (State.postFails s c fault va) := by
  unfold State.postFails
  repeat' first
    | with_reducible first
        | assumption | apply State.setQueue_butWin | apply State.ctxEvent_butWin
    | dsimp only | split

theorem State.putRecord_butWin {z : State} (s : State) (c : Nat) (fault : Bool) (bits : Nat) (h : ButWin z s) :
    ButWin z (State.putRecord s c fault bits).1 := by
  unfold State.putRecord
  repeat' first
    | with_reducible first
        | assumption | apply State.readCons_butWin | apply State.queueWrite_butWin | apply State.postFails_butWin
        | apply State.setQueue_butWin | apply State.ctxEvent_butWin | apply butWin_fst (by assumption)
        | apply butWin_snd (by assumption)
    | dsimp only | split

theorem State.tryPost_butWin {z : State} (s : State) (c : Nat) (fault : Bool) (bits : Nat) (h : ButWin z s) :
    ButWin z (State.tryPost s c fault bits).1 := by
  unfold State.tryPost
  repeat' first
    | with_reducible first
        | assumption | apply State.putRecord_butWin | apply State.dropAnswers_butWin | apply State.awaits_butWin
        | apply butWin_fst (by assumption) | apply butWin_snd (by assumption)
    | dsimp only | split

theorem State.postRecord_butWin {z : State} (s : State) (p : Post) (h : ButWin z s) :
    ButWin z (State.postRecord s p) := by
  unfold State.postRecord
  repeat' first
    | with_reducible first
        | assumption | apply State.setQueue_butWin | apply State.holdRecord_butWin | apply State.tryPost_butWin
        | apply butWin_fst (by assumption) | apply butWin_snd (by assumption)
    | dsimp only | split

theorem State.postWaiting_butWin {z : State} (s : State) (c : Nat) (fault : Bool) (e0 : Nat) (h : ButWin z s) :
    ButWin z (State.postWaiting s c fault e0) := by
  induction e0 generalizing s c fault with
  | zero =>
    unfold State.postWaiting
    repeat' first
      | with_reducible first
          | assumption | intro _ | apply State.setQueue_butWin | apply State.tryPost_butWin | apply State.holdRecord_butWin
          | apply foldl_butWin | apply foldl_fst_butWin | apply butWin_fst (by assumption) | apply butWin_snd (by assumption)
      | dsimp only | split
  | succ _ ih =>
    unfold State.postWaiting
    repeat' first
      | with_reducible first
          | assumption | apply ih | intro _ | apply State.setQueue_butWin | apply State.tryPost_butWin
          | apply State.holdRecord_butWin | apply foldl_butWin | apply foldl_fst_butWin | apply butWin_fst (by assumption)
          | apply butWin_snd (by assumption)
      | dsimp only | split

theorem State.retryHeld_butWin {z : State} (s : State) (c : Nat) (fault : Bool) (e0 : Nat) (h : ButWin z s) :
    ButWin z (State.retryHeld s c fault e0) := by
  induction e0 generalizing s c fault with
  | zero =>
    unfold State.retryHeld
    repeat' first
      | with_reducible first
          | assumption | apply State.setQueue_butWin | apply State.tryPost_butWin | apply butWin_fst (by assumption)
          | apply butWin_snd (by assumption)
      | dsimp only | split
  | succ _ ih =>
    unfold State.retryHeld
    repeat' first
      | with_reducible first
          | assumption | apply ih | apply State.setQueue_butWin | apply State.tryPost_butWin | apply butWin_fst (by assumption)
          | apply butWin_snd (by assumption)
      | dsimp only | split

theorem State.retryQueue_butWin {z : State} (s : State) (c : Nat) (fault : Bool) (h : ButWin z s) :
    ButWin z (State.retryQueue s c fault) := by
  unfold State.retryQueue
  repeat' first
    | with_reducible first
        | assumption | apply State.postWaiting_butWin | apply State.retryHeld_butWin | apply State.writeOvf_butWin
    | dsimp only

theorem State.retryQueues_butWin {z : State} (s : State) (c : Nat) (h : ButWin z s) :
    ButWin z (State.retryQueues s c) := by
  unfold State.retryQueues
  repeat' first | with_reducible (first | assumption | apply State.retryQueue_butWin) | dsimp only

theorem State.postNext_butWin {z : State} (s : State) (h : ButWin z s) :
    ButWin z (State.postNext s) := by
  unfold State.postNext
  repeat' first
    | with_reducible first
        | assumption | apply State.postRecord_butWin | apply butWin_fst (by assumption) | apply butWin_snd (by assumption)
    | dsimp only | split

/-! ## Ops -/

theorem State.setKernel_butWin {z : State} (s : State) (x : Kernel) (h : ButWin z s) :
    ButWin z (State.setKernel s x) := by
  unfold State.setKernel
  repeat' first | with_reducible (first | assumption | intro _ | apply State.setCtx_butWin) | dsimp only | split

theorem State.cvWrites_butWin {z : State} (s : State) (u : User) (va : Nat) (e0 : Nat) (e1 : Nat) (h : ButWin z s) :
    ButWin z (State.cvWrites s u va e0 e1).1 := by
  induction e0 generalizing s u va e1 with
  | zero =>
    unfold State.cvWrites
    repeat' first
      | with_reducible first
          | assumption | apply State.ask_butWin | apply butWin_fst (by assumption) | apply butWin_snd (by assumption)
      | dsimp only | split | dsimp only [ButWin]
  | succ _ ih =>
    unfold State.cvWrites
    repeat' first
      | with_reducible first
          | assumption | apply ih | apply State.ask_butWin | apply butWin_fst (by assumption) | apply butWin_snd (by assumption)
      | dsimp only | split | dsimp only [ButWin]

theorem State.trapEvent_butWin {z : State} (s : State) (k slot typ : Nat) (pc : W64) (second : Nat) (h : ButWin z s) :
    ButWin z (State.trapEvent s k slot typ pc second) := by
  unfold State.trapEvent
  repeat' first | with_reducible (first | assumption | apply State.event_butWin) | dsimp only

theorem State.dropParks_butWin {z : State} (s : State) (k slot : Nat) (h : ButWin z s) :
    ButWin z (State.dropParks s k slot) :=
  State.dropAsked_butWin _ (fun n => n = asker k slot)
    (State.setCore_butWin s k { s.core k with accq := (s.core k).accq.filter (fun w => w.slot ≠ slot) } h)

theorem State.postFaults_butWin {z : State} (s : State) (c kind id : Nat) (pc : W64) (akind : Nat) (lanes : List
    (Nat × Nat × Nat)) (h : ButWin z s) :
    ButWin z (State.postFaults s c kind id pc akind lanes).1 := by
  unfold State.postFaults
  repeat' first
    | with_reducible first
        | assumption | intro _ | apply State.faultRecord_butWin | apply foldl_butWin | apply foldl_fst_butWin
        | apply butWin_fst (by assumption) | apply butWin_snd (by assumption) | apply butWin_id
    | dsimp only | split

theorem State.makeReq_butWin {z : State} (s : State) (u : User) (r : Req) (act : Act) (h : ButWin z s) :
    ButWin z (State.makeReq s u r act).1 := by
  unfold State.makeReq
  repeat' first | with_reducible (first | assumption | apply State.checkedAccess_butWin) | dsimp only

theorem State.withheldWrite_butWin {z : State} (s : State) (u : User) (a : Agent) (r : Req) (h : ButWin z s) :
    ButWin z (State.withheldWrite s u a r).1 := by
  unfold State.withheldWrite
  repeat' first
    | with_reducible first
        | assumption | apply State.makeReq_butWin | apply State.veil_butWin | apply butWin_fst (by assumption)
        | apply butWin_snd (by assumption)
    | dsimp only | split | dsimp only [ButWin]

theorem State.causal_butWin {z : State} (s : State) (u : User) (a : Agent) (r : Req) (h : ButWin z s) :
    ButWin z (State.causal s u a r).1 := by
  have hm := State.makeReq_butWin s u r r.act h
  have hw := State.withheldWrite_butWin s u a r h
  unfold State.causal
  refine butWin_ite hm ?_
  generalize s.makeReq u r r.act = m at hm ⊢
  cases r.act
  case wr => exact butWin_ite h hw
  case rd => exact butWin_ite h hm
  all_goals exact h

theorem State.perform_butWin {z : State} (s : State) (u : User) (r : Req) (h : ButWin z s) :
    ButWin z (State.perform s u r).1 := by
  unfold State.perform
  repeat' first
    | with_reducible first
        | assumption | apply State.causal_butWin | apply State.makeReq_butWin | apply butWin_fst (by assumption)
        | apply butWin_snd (by assumption)
    | dsimp only | split

theorem Served.fail_butWin {z : State} (a : Served) (zero : Bool) (r : Req) (c : LaneCause) (ha : ButWin z a.s) :
    ButWin z (Served.fail a zero r c).s := by
  unfold Served.fail
  repeat' first | with_reducible (first | assumption | intro _) | dsimp only | split

theorem Served.one_butWin {z : State} (u : User) (zero : Bool) (a : Served) (r : Req) (ha : ButWin z a.s) :
    ButWin z (Served.one u zero a r).s := by
  unfold Served.one
  repeat' first
    | with_reducible first
        | assumption | intro _ | apply State.perform_butWin | apply Served.fail_butWin | apply butWin_fst (by assumption)
        | apply butWin_snd (by assumption)
    | dsimp only | split

theorem serveLane_butWin {z : State} (u : User) (zero : Bool) (a : Served) (rs : List Req) (ha : ButWin z a.s) :
    ButWin z (serveLane u zero a rs).s := by
  unfold serveLane
  split
  · rename_i r t c e
    refine Served.fail_butWin _ _ _ _ ?_
    show ButWin z t
    split at e
    · cases e
    · obtain ⟨q, -, hq⟩ := List.exists_of_findSome?_eq_some e
      split at hq
      · rename_i t' c' e'
        cases hq
        exact butWin_fst e' (State.perform_butWin _ _ _ ha)
      · cases hq
  · exact foldl_served_butWin (fun b x hb => Served.one_butWin _ _ b x hb) ha

theorem serve_butWin {z : State} (s : State) (u : User) (zero : Bool) (vals : List (Nat × BitVec 128)) (lanes : List
    (List Req)) (h : ButWin z s) :
    ButWin z (serve s u zero vals lanes).s := by
  unfold serve
  repeat' first
    | with_reducible first
        | assumption | intro _ | apply serveLane_butWin | apply foldl_butWin | apply foldl_fst_butWin
        | apply butWin_fst (by assumption) | apply butWin_snd (by assumption) | apply foldl_served_butWin
    | dsimp only | split

theorem State.sendRequests_butWin {z : State} (s : State) (op c : Nat) (rs : List Req) (h : ButWin z s) :
    ButWin z (State.sendRequests s op c rs) := by
  unfold State.sendRequests
  repeat' first
    | with_reducible first
        | assumption | intro _ | apply State.send_butWin | apply foldl_butWin | apply foldl_fst_butWin
        | apply butWin_fst (by assumption) | apply butWin_snd (by assumption)
    | dsimp only | split

theorem State.unhold_butWin {z : State} (s : State) (id : Nat) (h : ButWin z s) :
    ButWin z (State.unhold s id) := by
  unfold State.unhold
  repeat' first
    | with_reducible first
        | assumption | apply State.setOp_butWin | apply butWin_fst (by assumption) | apply butWin_snd (by assumption)
        | apply butWin_id
    | dsimp only | split

theorem State.flushFabric_butWin {z : State} (s : State) (c : Nat) (h : ButWin z s) :
    ButWin z (State.flushFabric s c) := by
  unfold State.flushFabric
  repeat' first
    | with_reducible first
        | assumption | intro _ | apply State.flushL2_butWin | apply State.flushExt_butWin | apply foldl_butWin
        | apply foldl_fst_butWin | apply butWin_fst (by assumption) | apply butWin_snd (by assumption)
    | dsimp only | split

theorem State.release_butWin {z : State} (s : State) (scope : Nat) (deep : Option (Nat × Option Nat)) (h : ButWin z s) :
    ButWin z (State.release s scope deep) := by
  unfold State.release
  repeat' first
    | with_reducible first
        | assumption | intro _ | apply State.drainFifo_butWin | apply State.flushFabric_butWin | apply State.cleanL1_butWin
        | apply State.flushL2_butWin | apply foldl_butWin | apply foldl_fst_butWin | apply butWin_fst (by assumption)
        | apply butWin_snd (by assumption)
    | dsimp only | split

theorem State.acquire_butWin {z : State} (s : State) (scope : Nat) (deep : Option (Nat × Option Nat)) (h : ButWin z s) :
    ButWin z (State.acquire s scope deep) := by
  unfold State.acquire
  repeat' first
    | with_reducible first
        | assumption | intro _ | apply State.acquireL1_butWin | apply State.dropL2_butWin | apply foldl_butWin
        | apply foldl_fst_butWin | apply butWin_fst (by assumption) | apply butWin_snd (by assumption)
    | dsimp only | split

end Sys2Proof.Machine
end

