-- ==== Sys2Proof/Laws/Caches.lean ====
section
/-! SUPPORT. What reaches the caches, the cells, the fabric and the records leaves every caravan and the issuing agent as
they were: releases and acquires among it. -/

set_option linter.unreachableTactic false
set_option linter.unusedTactic false

namespace Sys2Proof.Machine

open Host (Outcome)

/-- Every caravan and the issuing agent of s are those of z. -/
def AgentsAre (z : List (Nat × Caravan)) (a : Agent) (s : List (Nat × Caravan)) (b : Agent) : Prop := b = a ∧ s = z
abbrev SameAgents (z s : State) : Prop := AgentsAre z.cvs z.cur s.cvs s.cur

theorem SameAgents.refl (z : State) : SameAgents z z := ⟨rfl, rfl⟩
theorem SameAgents.cur {z s : State} (h : SameAgents z s) : s.cur = z.cur := h.1
theorem SameAgents.cv {z s : State} (h : SameAgents z s) (k n : Nat) : s.cv k n = z.cv k n := by unfold State.cv; rw [h.2]
theorem SameAgents.me {z s : State} (h : SameAgents z s) : s.me = z.me := by unfold State.me; rw [h.1]; exact h.cv _ _
theorem agents_fst {z : State} {α : Type} {p : State × α} {s : State} {x : α} (e : p = (s, x)) (h : SameAgents z p.1) :
    SameAgents z s := by
  subst e; exact h
theorem agents_snd {z : State} {α : Type} {p : α × State} {s : State} {x : α} (e : p = (x, s)) (h : SameAgents z p.2) :
    SameAgents z s := by
  subst e; exact h
theorem agents_id {z s : State} (h : SameAgents z s) : SameAgents z (id s) := h
theorem agents_if {z p q : State} {c : Prop} [Decidable c] (hp : SameAgents z p) (hq : SameAgents z q) :
    SameAgents z (if c then p else q) := by
  by_cases h : c
  · rw [if_pos h]; exact hp
  · rw [if_neg h]; exact hq
theorem agents_ite {z : State} {α : Type} {c : Prop} [Decidable c] {p q : State × α} (hp : SameAgents z p.1)
    (hq : SameAgents z q.1) :
    SameAgents z (if c then p else q).1 := by
  by_cases h : c
  · rw [if_pos h]; exact hp
  · rw [if_neg h]; exact hq
theorem foldl_agents {z : State} {α : Type} {f : State → α → State} {s : State} {l : List α}
    (hf : ∀ t a, SameAgents z t → SameAgents z (f t a)) (h : SameAgents z s) : SameAgents z (l.foldl f s) := by
  induction l generalizing s with
  | nil => exact h
  | cons a l ih => exact ih (hf s a h)
theorem foldl_fst_agents {z : State} {α β : Type} {f : State × β → α → State × β} {p : State × β} {l : List α}
    (hf : ∀ t a, SameAgents z t.1 → SameAgents z (f t a).1) (h : SameAgents z p.1) : SameAgents z (l.foldl f p).1 := by
  induction l generalizing p with
  | nil => exact h
  | cons a l ih => exact ih (hf p a h)
theorem foldl_served_agents {z : State} {α : Type} {f : Served → α → Served} {a : Served} {l : List α}
    (hf : ∀ b x, SameAgents z b.s → SameAgents z (f b x).s) (h : SameAgents z a.s) : SameAgents z (l.foldl f a).s := by
  induction l generalizing a with
  | nil => exact h
  | cons x l ih => exact ih (hf a x h)

/-! ## Units -/

theorem State.setCore_agents {z : State} (s : State) (k : Nat) (c : Core) (h : SameAgents z s) :
    SameAgents z (State.setCore s k c) := by
  unfold State.setCore
  repeat' first | with_reducible (first | assumption) | dsimp only

theorem State.setDie_agents {z : State} (s : State) (d : Nat) (x : Die) (h : SameAgents z s) :
    SameAgents z (State.setDie s d x) := by
  unfold State.setDie
  repeat' first | with_reducible (first | assumption) | dsimp only

theorem State.setCtx_agents {z : State} (s : State) (c : Nat) (x : Context) (h : SameAgents z s) :
    SameAgents z (State.setCtx s c x) := by
  unfold State.setCtx
  repeat' first | with_reducible (first | assumption) | dsimp only

theorem State.setChan_agents {z : State} (s : State) (c : Nat) (x : Channel) (h : SameAgents z s) :
    SameAgents z (State.setChan s c x) := by
  unfold State.setChan
  repeat' first | with_reducible (first | assumption) | dsimp only

theorem State.setExecutor_agents {z : State} (s : State) (n : Nat) (x : Executor) (h : SameAgents z s) :
    SameAgents z (State.setExecutor s n x) := by
  unfold State.setExecutor
  repeat' first | with_reducible (first | assumption) | dsimp only

theorem State.setSector_agents {z : State} (s : State) (n : Nat) (x : Sector) (h : SameAgents z s) :
    SameAgents z (State.setSector s n x) := by
  unfold State.setSector
  repeat' first | with_reducible (first | assumption) | dsimp only

theorem State.setExtent_agents {z : State} (s : State) (n : Nat) (x : Extent) (h : SameAgents z s) :
    SameAgents z (State.setExtent s n x) := by
  unfold State.setExtent
  repeat' first | with_reducible (first | assumption) | dsimp only

theorem State.setPort_agents {z : State} (s : State) (p : Nat) (x : Port) (h : SameAgents z s) :
    SameAgents z (State.setPort s p x) := by
  unfold State.setPort
  repeat' first | with_reducible (first | assumption) | dsimp only | dsimp only [SameAgents]

theorem State.setComm_agents {z : State} (s : State) (c k : Nat) (x : Comm) (h : SameAgents z s) :
    SameAgents z (State.setComm s c k x) := by
  unfold State.setComm
  repeat' first | with_reducible (first | assumption) | dsimp only | dsimp only [SameAgents]

theorem State.setTile_agents {z : State} (s : State) (k t : Nat) (x : Tile) (h : SameAgents z s) :
    SameAgents z (State.setTile s k t x) := by
  unfold State.setTile
  repeat' first | with_reducible (first | assumption | apply State.setCore_agents) | dsimp only

theorem State.setParty_agents {z : State} (s : State) (k e : Nat) (x : Party) (h : SameAgents z s) :
    SameAgents z (State.setParty s k e x) := by
  unfold State.setParty
  repeat' first | with_reducible (first | assumption | apply State.setCore_agents) | dsimp only

theorem State.coreStore_agents {z : State} (s : State) (k o n x : Nat) (h : SameAgents z s) :
    SameAgents z (State.coreStore s k o n x) := by
  unfold State.coreStore
  repeat' first | with_reducible (first | assumption) | dsimp only

theorem State.send_agents {z : State} (s : State) (m : Msg) (h : SameAgents z s) :
    SameAgents z (State.send s m) := by
  unfold State.send
  repeat' first
    | with_reducible first
        | assumption | apply agents_fst (by assumption) | apply agents_snd (by assumption)
        | apply flagsO_foldl_bind
    | dsimp only | split | dsimp only [SameAgents]

theorem State.fresh_agents {z : State} (s : State) (h : SameAgents z s) :
    SameAgents z (State.fresh s).2 := by
  unfold State.fresh
  repeat' first | with_reducible (first | assumption) | dsimp only

theorem State.retire_agents {z : State} (s : State) (h : SameAgents z s) :
    SameAgents z (State.retire s) := by
  unfold State.retire
  repeat' first | with_reducible (first | assumption) | dsimp only

theorem State.setOp_agents {z : State} (s : State) (o : Op) (h : SameAgents z s) :
    SameAgents z (State.setOp s o) := by
  unfold State.setOp
  repeat' first | with_reducible (first | assumption | intro _ | apply agents_id) | dsimp only | split

theorem State.dropOp_agents {z : State} (s : State) (id : Nat) (h : SameAgents z s) :
    SameAgents z (State.dropOp s id) := by
  unfold State.dropOp
  repeat' first | with_reducible (first | assumption | intro _ | apply agents_id) | dsimp only

theorem State.finishOp_agents {z : State} (s : State) (o : Op) (h : SameAgents z s) :
    SameAgents z (State.finishOp s o) := by
  unfold State.finishOp
  repeat' first | with_reducible (first | assumption | apply State.setOp_agents | apply State.retire_agents) | dsimp only

theorem State.addDevOp_agents {z : State} (s : State) (c : Nat) (kind : OpKind) (remote : List Req) (h : SameAgents z s) :
    SameAgents z (State.addDevOp s c kind remote) := by
  unfold State.addDevOp
  repeat' first | with_reducible (first | assumption | apply agents_id) | dsimp only

theorem State.chargeDie_agents {z : State} (s : State) (d : Nat) (h : SameAgents z s) :
    SameAgents z (State.chargeDie s d) := by
  unfold State.chargeDie
  repeat' first
    | with_reducible first
        | assumption | apply State.fresh_agents | apply agents_fst (by assumption) | apply agents_snd (by assumption)
    | dsimp only | split

theorem State.chargeCtx_agents {z : State} (s : State) (c : Nat) (h : SameAgents z s) :
    SameAgents z (State.chargeCtx s c) := by
  unfold State.chargeCtx
  repeat' first
    | with_reducible first
        | assumption | apply State.fresh_agents | apply State.setCtx_agents | apply agents_fst (by assumption)
        | apply agents_snd (by assumption)
    | dsimp only | split

theorem State.event_agents {z : State} (s : State) (whom : List Nat) (src typ hi : Nat) (h : SameAgents z s) :
    SameAgents z (State.event s whom src typ hi) := by
  unfold State.event
  repeat' first | with_reducible (first | assumption | intro _) | dsimp only

theorem State.chanEvent_agents {z : State} (s : State) (whom : List Nat) (ch typ va asid bank row detail : Nat)
    (h : SameAgents z s) :
    SameAgents z (State.chanEvent s whom ch typ va asid bank row detail) := by
  unfold State.chanEvent
  repeat' first | with_reducible (first | assumption | apply State.event_agents) | dsimp only

theorem State.ctxEvent_agents {z : State} (s : State) (whom : List Nat) (src typ detail about : Nat) (h : SameAgents z s) :
    SameAgents z (State.ctxEvent s whom src typ detail about) := by
  unfold State.ctxEvent
  repeat' first | with_reducible (first | assumption | apply State.event_agents) | dsimp only

theorem State.faultRecord_agents {z : State} (s : State) (c kind id : Nat) (mask : W32) (word pc : Nat) (park : W32)
    (akind level typ counts va : Nat) (h : SameAgents z s) :
    SameAgents z (State.faultRecord s c kind id mask word pc park akind level typ counts va) := by
  unfold State.faultRecord
  repeat' first | with_reducible (first | assumption | apply agents_id) | dsimp only

/-! ## Operands -/

theorem State.activate_agents {z : State} (s : State) (o : Origin) (ch bank row : Nat) (h : SameAgents z s) :
    SameAgents z (State.activate s o ch bank row) := by
  unfold State.activate
  repeat' first
    | with_reducible first
        | assumption | apply State.setChan_agents | apply State.chanEvent_agents | apply agents_fst (by assumption)
        | apply agents_snd (by assumption)
    | dsimp only | split

theorem State.openRow_agents {z : State} (s : State) (o : Origin) (ch bank row : Nat) (write : Bool) (h : SameAgents z s) :
    SameAgents z (State.openRow s o ch bank row write) := by
  unfold State.openRow
  repeat' first
    | with_reducible first
        | assumption | intro _ | apply State.setChan_agents | apply State.activate_agents
    | dsimp only | split

theorem State.uncorrectable_agents {z : State} (s : State) (o : Origin) (n grade ev : Nat) (h : SameAgents z s) :
    SameAgents z (State.uncorrectable s o n grade ev) := by
  unfold State.uncorrectable
  repeat' first | with_reducible (first | assumption | apply State.setChan_agents | apply State.chanEvent_agents) | dsimp only

theorem State.readSector_agents {z : State} (s : State) (o : Origin) (n key grade ev : Nat) (held : Bool) (h : SameAgents z s) :
    SameAgents z (State.readSector s o n key grade ev held).1 := by
  unfold State.readSector
  repeat' first
    | with_reducible first
        | assumption | intro _ | apply State.fresh_agents | apply State.uncorrectable_agents | apply State.setSector_agents
        | apply State.setChan_agents | apply foldl_agents | apply foldl_fst_agents | apply agents_fst (by assumption)
        | apply agents_snd (by assumption)
    | dsimp only | split

theorem State.writeSector_agents {z : State} (s : State) (o : Origin) (n key grade : Nat) (m : BitVec 32) (data : Nat)
    (held : Bool) (h : SameAgents z s) :
    SameAgents z (State.writeSector s o n key grade m data held) := by
  unfold State.writeSector
  repeat' first
    | with_reducible first
        | assumption | intro _ | apply State.readSector_agents | apply State.setSector_agents | apply foldl_agents
        | apply foldl_fst_agents | apply agents_fst (by assumption) | apply agents_snd (by assumption)
    | dsimp only | split

theorem State.sendBytes_agents {z : State} (s : State) (node : BitVec 16) (c base : Nat) (m : BitVec 128) (x : BitVec 1024)
    (code : Nat → BitVec 128 → BitVec 128) (h : SameAgents z s) :
    SameAgents z (State.sendBytes s node c base m x code) := by
  unfold State.sendBytes
  repeat' first
    | with_reducible first
        | assumption | intro _ | apply State.send_agents | apply State.addDevOp_agents | apply foldl_agents
        | apply foldl_fst_agents | apply agents_fst (by assumption) | apply agents_snd (by assumption)
    | dsimp only | split

theorem State.sendExtent_agents {z : State} (s : State) (id off : Nat) (m : BitVec 128) (x : BitVec 1024) (h : SameAgents z s) :
    SameAgents z (State.sendExtent s id off m x) := by
  unfold State.sendExtent
  repeat' first | with_reducible (first | assumption | apply State.sendBytes_agents | apply agents_id) | dsimp only

theorem State.mscOut_agents {z : State} (s : State) (ch : Nat) (l : MscLine) (h : SameAgents z s) :
    SameAgents z (State.mscOut s ch l) := by
  unfold State.mscOut
  repeat' first
    | with_reducible first
        | assumption | intro _ | apply State.setChan_agents | apply State.sendExtent_agents | apply State.openRow_agents
        | apply State.setSector_agents | apply foldl_agents | apply foldl_fst_agents | apply agents_fst (by assumption)
        | apply agents_snd (by assumption) | apply agents_id
    | dsimp only | split

theorem State.mscRoom_agents {z : State} (s : State) (ch asid tag : Nat) (h : SameAgents z s) :
    SameAgents z (State.mscRoom s ch asid tag) := by
  unfold State.mscRoom
  repeat' first
    | with_reducible first
        | assumption | apply State.mscOut_agents | apply agents_fst (by assumption) | apply agents_snd (by assumption)
    | dsimp only | split

theorem State.mscHold_agents {z : State} (s : State) (o : Origin) (base j : Nat) (dirty : Bool) (h : SameAgents z s) :
    SameAgents z (State.mscHold s o base j dirty) := by
  unfold State.mscHold
  repeat' first
    | with_reducible first
        | assumption | intro _ | apply State.setChan_agents | apply State.mscRoom_agents | apply agents_fst (by assumption)
        | apply agents_snd (by assumption)
    | dsimp only | split

theorem State.readLine_agents {z : State} (s : State) (o : Origin) (flat key grade : Nat) (m : BitVec 128) (alloc : Bool)
    (h : SameAgents z s) :
    SameAgents z (State.readLine s o flat key grade m alloc).1 := by
  unfold State.readLine
  repeat' first
    | with_reducible first
        | assumption | intro _ | apply State.mscHold_agents | apply State.openRow_agents | apply State.readSector_agents
        | apply foldl_agents | apply foldl_fst_agents | apply agents_fst (by assumption) | apply agents_snd (by assumption)
    | dsimp only | split

theorem State.writeLine_agents {z : State} (s : State) (o : Origin) (flat key grade : Nat) (m : BitVec 128) (x : BitVec 1024)
    (alloc : Bool) (h : SameAgents z s) :
    SameAgents z (State.writeLine s o flat key grade m x alloc) := by
  unfold State.writeLine
  repeat' first
    | with_reducible first
        | assumption | intro _ | apply State.openRow_agents | apply State.writeSector_agents | apply State.mscHold_agents
        | apply foldl_agents | apply foldl_fst_agents | apply agents_fst (by assumption) | apply agents_snd (by assumption)
    | dsimp only | split

/-! ## Translate -/

theorem State.noteWait_agents {z : State} (s : State) (ch op : Nat) (h : SameAgents z s) :
    SameAgents z (State.noteWait s ch op) := by
  unfold State.noteWait
  repeat' first | with_reducible (first | assumption | apply State.setChan_agents) | dsimp only | split

theorem State.noteServed_agents {z : State} (s : State) (ch op : Nat) (h : SameAgents z s) :
    SameAgents z (State.noteServed s ch op) := by
  unfold State.noteServed
  repeat' first | with_reducible (first | assumption | intro _ | apply State.setChan_agents) | dsimp only | split

theorem State.readEntry_agents {z : State} (s : State) (c asid va entry : Nat) (h : SameAgents z s) :
    SameAgents z (State.readEntry s c asid va entry).1 := by
  unfold State.readEntry
  repeat' first
    | with_reducible first
        | assumption | apply State.readLine_agents | apply agents_fst (by assumption) | apply agents_snd (by assumption)
    | dsimp only | split

theorem State.walkFrom_agents {z : State} (s : State) (c asid va : Nat) (wait : Option Nat) (e0 : Nat) (e1 : Nat)
    (h : SameAgents z s) :
    SameAgents z (State.walkFrom s c asid va wait e0 e1).1 := by
  induction e0 generalizing s c asid va wait e1 with
  | zero =>
    unfold State.walkFrom
    repeat' first
      | with_reducible first
          | assumption | apply State.noteWait_agents | apply State.noteServed_agents | apply State.readEntry_agents
          | apply agents_fst (by assumption) | apply agents_snd (by assumption)
      | dsimp only | split
  | succ _ ih =>
    unfold State.walkFrom
    repeat' first
      | with_reducible first
          | assumption | apply ih | apply State.noteWait_agents | apply State.noteServed_agents | apply State.readEntry_agents
          | apply agents_fst (by assumption) | apply agents_snd (by assumption)
      | dsimp only | split

theorem State.countAccess_agents {z : State} (s : State) (c ch die va : Nat) (h : SameAgents z s) :
    SameAgents z (State.countAccess s c ch die va) := by
  unfold State.countAccess
  repeat' first
    | with_reducible first
        | assumption | intro _ | apply State.setChan_agents | apply State.faultRecord_agents | apply agents_fst (by assumption)
        | apply agents_snd (by assumption)
    | dsimp only | split

theorem State.countServed_agents {z : State} (s : State) (c ch die va : Nat) (l : Leaf) (h : SameAgents z s) :
    SameAgents z (State.countServed s c ch die va l) := by
  unfold State.countServed
  repeat' first | with_reducible (first | assumption | apply State.countAccess_agents) | dsimp only | split

theorem State.translate_agents {z : State} (s : State) (c ch va : Nat) (wait : Option Nat) (h : SameAgents z s) :
    SameAgents z (State.translate s c ch va wait).1 := by
  unfold State.translate
  repeat' first
    | with_reducible first
        | assumption | apply State.walkFrom_agents | apply State.setChan_agents | apply State.chanEvent_agents
        | apply agents_fst (by assumption) | apply agents_snd (by assumption)
    | dsimp only | split

/-! ## Cache -/

theorem State.setD_agents {z : State} (s : State) (c va : Nat) (l : Leaf) (h : SameAgents z s) :
    SameAgents z (State.setD s c va l) := by
  unfold State.setD
  repeat' first
    | with_reducible first
        | assumption | intro _ | apply State.setDie_agents | apply State.readLine_agents | apply State.writeLine_agents
        | apply State.setChan_agents | apply agents_fst (by assumption) | apply agents_snd (by assumption)
    | dsimp only | split

theorem State.writebackD_agents {z : State} (s : State) (asid : BitVec 16) (va : Nat) (h : SameAgents z s) :
    SameAgents z (State.writebackD s asid va) := by
  unfold State.writebackD
  repeat' first
    | with_reducible first
        | assumption | apply State.translate_agents | apply State.countServed_agents | apply State.setD_agents
        | apply agents_fst (by assumption) | apply agents_snd (by assumption)
    | dsimp only | split

theorem State.putExt_agents {z : State} (s : State) (ch : Nat) (asid : BitVec 16) (tag id off : Nat) (m : BitVec 128)
    (x : BitVec 1024) (dirty : Bool) (h : SameAgents z s) :
    SameAgents z (State.putExt s ch asid tag id off m x dirty) := by
  unfold State.putExt
  repeat' first
    | with_reducible first
        | assumption | intro _ | apply State.mscRoom_agents | apply State.setChan_agents
        | apply agents_id
    | dsimp only | split

theorem State.flushExt_agents {z : State} (s : State) (p : MscLine → Bool) (drop : Bool) (h : SameAgents z s) :
    SameAgents z (State.flushExt s p drop) := by
  unfold State.flushExt
  repeat' first
    | with_reducible first
        | assumption | intro _ | apply State.sendExtent_agents | apply State.setChan_agents | apply foldl_agents
        | apply foldl_fst_agents | apply agents_fst (by assumption) | apply agents_snd (by assumption)
        | apply agents_id
    | dsimp only | split

theorem State.lineOut_agents {z : State} (s : State) (l : Line) (h : SameAgents z s) :
    SameAgents z (State.lineOut s l) := by
  unfold State.lineOut
  repeat' first
    | with_reducible first
        | assumption | intro _ | apply State.noteServed_agents | apply State.writebackD_agents | apply State.writeLine_agents
        | apply State.putExt_agents | apply State.sendBytes_agents | apply foldl_agents | apply foldl_fst_agents
        | apply agents_fst (by assumption) | apply agents_snd (by assumption) | apply foldl_served_agents
    | dsimp only | split

theorem State.flushLine_agents {z : State} (s : State) (d : Nat) (p : Line → Bool) (l : Line) (h : SameAgents z s) :
    SameAgents z (State.flushLine s d p l) := by
  unfold State.flushLine
  repeat' first
    | with_reducible first
        | assumption | intro _ | apply State.noteWait_agents | apply State.lineOut_agents | apply State.setDie_agents
        | apply agents_fst (by assumption) | apply agents_snd (by assumption)
    | dsimp only | split

theorem State.flushL2_agents {z : State} (s : State) (d : Nat) (p : Line → Bool) (drop : Bool) (h : SameAgents z s) :
    SameAgents z (State.flushL2 s d p drop) := by
  unfold State.flushL2
  repeat' first
    | with_reducible first
        | assumption | intro _ | apply State.flushLine_agents | apply State.setDie_agents | apply foldl_agents
        | apply foldl_fst_agents | apply agents_fst (by assumption) | apply agents_snd (by assumption)
    | dsimp only | split

theorem State.dropL2_agents {z : State} (s : State) (d : Nat) (p : Line → Bool) (h : SameAgents z s) :
    SameAgents z (State.dropL2 s d p) := by
  unfold State.dropL2
  repeat' first | with_reducible (first | assumption | intro _ | apply State.setDie_agents) | dsimp only

theorem State.putL2_agents {z : State} (s : State) (d : Nat) (l : Line) (h : SameAgents z s) :
    SameAgents z (State.putL2 s d l) := by
  unfold State.putL2
  repeat' first
    | with_reducible first
        | assumption | intro _ | apply State.lineOut_agents | apply State.dropL2_agents | apply State.setDie_agents
        | apply agents_fst (by assumption) | apply agents_snd (by assumption)
    | dsimp only | split

theorem State.unveilMask_agents {z : State} (s : State) (asid : BitVec 16) (tag : Nat) (m : BitVec 128) (h : SameAgents z s) :
    SameAgents z (State.unveilMask s asid tag m) := by
  unfold State.unveilMask
  repeat' first | with_reducible (first | assumption | intro _) | dsimp only | split | dsimp only [SameAgents]

theorem State.toL2_agents {z : State} (s : State) (l : Line) (m : BitVec 128) (h : SameAgents z s) :
    SameAgents z (State.toL2 s l m) := by
  unfold State.toL2
  repeat' first
    | with_reducible first
        | assumption | apply State.unveilMask_agents | apply State.putL2_agents
    | dsimp only | split

theorem State.cleanL1_agents {z : State} (s : State) (k : Nat) (asid : BitVec 16) (tag : Nat) (h : SameAgents z s) :
    SameAgents z (State.cleanL1 s k asid tag) := by
  unfold State.cleanL1
  repeat' first
    | with_reducible first
        | assumption | intro _ | apply State.toL2_agents | apply State.setCore_agents | apply agents_fst (by assumption)
        | apply agents_snd (by assumption)
    | dsimp only | split

theorem State.dropL1_agents {z : State} (s : State) (k : Nat) (asid : BitVec 16) (tag : Nat) (h : SameAgents z s) :
    SameAgents z (State.dropL1 s k asid tag) := by
  unfold State.dropL1
  repeat' first | with_reducible (first | assumption | intro _ | apply State.setCore_agents) | dsimp only

theorem State.putL1_agents {z : State} (s : State) (k : Nat) (l : Line) (h : SameAgents z s) :
    SameAgents z (State.putL1 s k l) := by
  unfold State.putL1
  repeat' first
    | with_reducible first
        | assumption | apply State.cleanL1_agents | apply State.dropL1_agents | apply State.setCore_agents
        | apply agents_fst (by assumption) | apply agents_snd (by assumption)
    | dsimp only | split

theorem State.cleanL1All_agents {z : State} (s : State) (k : Nat) (p : Line → Bool) (h : SameAgents z s) :
    SameAgents z (State.cleanL1All s k p) := by
  unfold State.cleanL1All
  repeat' first
    | with_reducible first
        | assumption | intro _ | apply State.cleanL1_agents | apply foldl_agents | apply foldl_fst_agents
        | apply agents_fst (by assumption) | apply agents_snd (by assumption)
    | dsimp only | split

theorem State.takeFifo_agents {z : State} (s : State) (k : Nat) (l : Line) (h : SameAgents z s) :
    SameAgents z (State.takeFifo s k l) := by
  unfold State.takeFifo
  repeat' first
    | with_reducible first
        | assumption | apply State.cleanL1_agents | apply State.setCore_agents | apply agents_fst (by assumption)
        | apply agents_snd (by assumption)
    | dsimp only | split

theorem State.drainFifo_agents {z : State} (s : State) (k : Nat) (slot : Option Nat) (h : SameAgents z s) :
    SameAgents z (State.drainFifo s k slot) := by
  unfold State.drainFifo
  repeat' first
    | with_reducible first
        | assumption | intro _ | apply State.cleanL1_agents | apply State.setCore_agents | apply foldl_agents
        | apply foldl_fst_agents | apply agents_fst (by assumption) | apply agents_snd (by assumption)
    | dsimp only | split

theorem State.acquireL1_agents {z : State} (s : State) (k : Nat) (p : Line → Bool) (h : SameAgents z s) :
    SameAgents z (State.acquireL1 s k p) := by
  unfold State.acquireL1
  repeat' first | with_reducible (first | assumption | intro _ | apply State.setCore_agents) | dsimp only | split

/-! ## Access -/

theorem State.reroute_agents {z : State} (s : State) (p : Nat) (h : SameAgents z s) :
    SameAgents z (State.reroute s p) := by
  unfold State.reroute
  repeat' first
    | with_reducible first
        | assumption | intro _ | apply State.setPort_agents | apply foldl_agents | apply foldl_fst_agents
        | apply agents_fst (by assumption) | apply agents_snd (by assumption)
    | dsimp only | split | dsimp only [SameAgents]

theorem State.disSet_agents {z : State} (s : State) (p : Nat) (h : SameAgents z s) :
    SameAgents z (State.disSet s p) := by
  unfold State.disSet
  repeat' first | with_reducible (first | assumption | apply State.setPort_agents | apply State.reroute_agents) | dsimp only

theorem State.disClear_agents {z : State} (s : State) (p : Nat) (h : SameAgents z s) :
    SameAgents z (State.disClear s p) := by
  unfold State.disClear
  repeat' first | with_reducible (first | assumption | apply State.setPort_agents) | dsimp only | split

theorem State.setPortReg_agents {z : State} (s : State) (p o : Nat) (x : W64) (h : SameAgents z s) :
    SameAgents z (State.setPortReg s p o x) := by
  unfold State.setPortReg
  repeat' first
    | with_reducible first
        | assumption | apply State.disSet_agents | apply State.disClear_agents | apply State.setPort_agents
    | dsimp only | split

theorem State.regAccess_agents {z : State} (s : State) (u : User) (va n : Nat) (act : Act) (h : SameAgents z s) :
    SameAgents z (State.regAccess s u va n act).1 := by
  unfold State.regAccess
  repeat' first
    | with_reducible first
        | assumption | apply State.setChan_agents | apply State.setPortReg_agents | apply agents_fst (by assumption)
        | apply agents_snd (by assumption)
    | dsimp only | split

theorem State.findLeaf_agents {z : State} (s : State) (u : User) (ch va : Nat) (write : Bool) (h : SameAgents z s) :
    SameAgents z (State.findLeaf s u ch va write).1 := by
  unfold State.findLeaf
  repeat' first
    | with_reducible first
        | assumption | apply State.translate_agents | apply agents_fst (by assumption) | apply agents_snd (by assumption)
    | dsimp only | split

theorem State.lineFrom_agents {z : State} (s : State) (u : User) (ch : Nat) (l : Leaf) (va : Nat) (h : SameAgents z s) :
    SameAgents z (State.lineFrom s u ch l va).1 := by
  unfold State.lineFrom
  repeat' first
    | with_reducible first
        | assumption | apply State.readLine_agents | apply agents_fst (by assumption) | apply agents_snd (by assumption)
        | apply agents_id
    | dsimp only | split

theorem State.l2LineOut_agents {z : State} (s : State) (c ch va : Nat) (drop : Bool) (h : SameAgents z s) :
    SameAgents z (State.l2LineOut s c ch va drop) := by
  unfold State.l2LineOut
  repeat' first | with_reducible (first | assumption | intro _ | apply State.flushL2_agents) | dsimp only

theorem State.updateL1_agents {z : State} (s : State) (u : User) (va n x : Nat) (h : SameAgents z s) :
    SameAgents z (State.updateL1 s u va n x) := by
  unfold State.updateL1
  repeat' first
    | with_reducible first
        | assumption | apply State.putL1_agents | apply agents_fst (by assumption) | apply agents_snd (by assumption)
    | dsimp only | split

/-! ## Records -/

theorem State.dropAsked_agents {z : State} (s : State) (p : Nat → Bool) (h : SameAgents z s) :
    SameAgents z (State.dropAsked s p) := by
  unfold State.dropAsked
  repeat' first
    | with_reducible first
        | assumption | intro _ | apply agents_fst (by assumption) | apply agents_snd (by assumption)
    | dsimp only | split

theorem State.setQueue_agents {z : State} (s : State) (c : Nat) (fault : Bool) (q : RecQueue) (h : SameAgents z s) :
    SameAgents z (State.setQueue s c fault q) := by
  unfold State.setQueue
  repeat' first | with_reducible (first | assumption | apply State.setCtx_agents) | dsimp only

/-! ## Ops -/

theorem State.setKernel_agents {z : State} (s : State) (x : Kernel) (h : SameAgents z s) :
    SameAgents z (State.setKernel s x) := by
  unfold State.setKernel
  repeat' first | with_reducible (first | assumption | intro _ | apply State.setCtx_agents) | dsimp only | split

theorem State.trapEvent_agents {z : State} (s : State) (k slot typ : Nat) (pc : W64) (second : Nat) (h : SameAgents z s) :
    SameAgents z (State.trapEvent s k slot typ pc second) := by
  unfold State.trapEvent
  repeat' first | with_reducible (first | assumption | apply State.event_agents) | dsimp only

theorem State.dropParks_agents {z : State} (s : State) (k slot : Nat) (h : SameAgents z s) :
    SameAgents z (State.dropParks s k slot) :=
  State.dropAsked_agents _ (fun n => n = asker k slot)
    (State.setCore_agents s k { s.core k with accq := (s.core k).accq.filter (fun w => w.slot ≠ slot) } h)

theorem State.postFaults_agents {z : State} (s : State) (c kind id : Nat) (pc : W64) (akind : Nat) (lanes : List
    (Nat × Nat × Nat)) (h : SameAgents z s) :
    SameAgents z (State.postFaults s c kind id pc akind lanes).1 := by
  unfold State.postFaults
  repeat' first
    | with_reducible first
        | assumption | intro _ | apply State.faultRecord_agents | apply foldl_agents | apply foldl_fst_agents
        | apply agents_fst (by assumption) | apply agents_snd (by assumption) | apply agents_id
    | dsimp only | split

theorem State.addOp_agents {z : State} (s : State) (f : Fields) (cls : Cls) (kind : OpKind) (todo remote : List Req)
    (held : List Nat) (vals : List (Nat × BitVec 128)) (h : SameAgents z s) :
    SameAgents z (State.addOp s f cls kind todo remote held vals) := by
  unfold State.addOp
  repeat' first | with_reducible (first | assumption | apply agents_id) | dsimp only | split

theorem State.sendRequests_agents {z : State} (s : State) (op c : Nat) (rs : List Req) (h : SameAgents z s) :
    SameAgents z (State.sendRequests s op c rs) := by
  unfold State.sendRequests
  repeat' first
    | with_reducible first
        | assumption | intro _ | apply State.send_agents | apply foldl_agents | apply foldl_fst_agents
        | apply agents_fst (by assumption) | apply agents_snd (by assumption)
    | dsimp only | split

theorem State.flushFabric_agents {z : State} (s : State) (c : Nat) (h : SameAgents z s) :
    SameAgents z (State.flushFabric s c) := by
  unfold State.flushFabric
  repeat' first
    | with_reducible first
        | assumption | intro _ | apply State.flushL2_agents | apply State.flushExt_agents | apply foldl_agents
        | apply foldl_fst_agents | apply agents_fst (by assumption) | apply agents_snd (by assumption)
    | dsimp only | split

theorem State.release_agents {z : State} (s : State) (scope : Nat) (deep : Option (Nat × Option Nat)) (h : SameAgents z s) :
    SameAgents z (State.release s scope deep) := by
  unfold State.release
  repeat' first
    | with_reducible first
        | assumption | intro _ | apply State.drainFifo_agents | apply State.flushFabric_agents | apply State.cleanL1_agents
        | apply State.flushL2_agents | apply foldl_agents | apply foldl_fst_agents | apply agents_fst (by assumption)
        | apply agents_snd (by assumption)
    | dsimp only | split

theorem State.acquire_agents {z : State} (s : State) (scope : Nat) (deep : Option (Nat × Option Nat)) (h : SameAgents z s) :
    SameAgents z (State.acquire s scope deep) := by
  unfold State.acquire
  repeat' first
    | with_reducible first
        | assumption | intro _ | apply State.acquireL1_agents | apply State.dropL2_agents | apply foldl_agents
        | apply foldl_fst_agents | apply agents_fst (by assumption) | apply agents_snd (by assumption)
    | dsimp only | split

end Sys2Proof.Machine
end

