-- ==== Sys2Proof/Laws/CanonMemory.lean ====
section
/-! SUPPORT. Canonical memory is kept by the shared operations on cells, caches and translated memory. -/

set_option linter.unreachableTactic false
set_option linter.unusedTactic false

namespace Sys2Proof.Machine

/-- The memory of s is in canonical form. -/
abbrev State.Canon (s : State) : Prop := Memory.wf s.mem = true
/-- The same of what an operation answers, where it answers a state. -/
def CanonO (o : Option State) : Prop := ∀ t, o = some t → t.Canon
def CanonP {α : Type} (o : Option (State × α)) : Prop := ∀ t, o = some t → t.1.Canon
def CanonN (o : Host.Outcome State Fault Refusal) : Prop := ∀ t, o = .next t → t.Canon

theorem canon_fst {α : Type} {p : State × α} {s : State} {x : α} (e : p = (s, x)) (h : p.1.Canon) : s.Canon := by
  subst e; exact h
theorem canon_snd {α : Type} {p : α × State} {s : State} {x : α} (e : p = (x, s)) (h : p.2.Canon) : s.Canon := by
  subst e; exact h
theorem canon_some {o : Option State} {s : State} (e : o = some s) (h : CanonO o) : s.Canon := h s e
theorem wf_fst {α : Type} {p : Memory × α} {m : Memory} {x : α} (e : p = (m, x)) (h : Memory.wf p.1 = true) :
    Memory.wf m = true := by
  subst e; exact h

theorem foldl_fst_wf {α β : Type} {f : Memory × β → α → Memory × β} {p : Memory × β} {l : List α}
    (hf : ∀ t a, Memory.wf t.1 = true → Memory.wf (f t a).1 = true) (h : Memory.wf p.1 = true) :
    Memory.wf (l.foldl f p).1 = true := by
  induction l generalizing p with
  | nil => exact h
  | cons a l ih => exact ih (hf p a h)

theorem canonN_next {s : State} (h : s.Canon) : CanonN (.next s) := by intro t e; cases e; exact h
theorem canonO_none : CanonO none := by intro t e; cases e
theorem canonO_some {s : State} (h : s.Canon) : CanonO (some s) := by intro t e; cases e; exact h
theorem canonO_findSome {α : Type} {f : α → Option State} {l : List α} (h : ∀ a, CanonO (f a)) : CanonO (l.findSome? f) := by
  intro t e
  obtain ⟨a, _, ha⟩ := List.exists_of_findSome?_eq_some e
  exact h a t ha
theorem canonO_foldl_bind {α : Type} {f : α → State → Option State} {o : Option State} {l : List α}
    (hf : ∀ a s, s.Canon → CanonO (f a s)) (h : CanonO o) : CanonO (l.foldl (fun o a => o.bind (f a)) o) := by
  induction l generalizing o with
  | nil => exact h
  | cons a l ih =>
    refine ih ?_
    intro t e
    obtain ⟨s, hs, ht⟩ := Option.bind_eq_some_iff.1 e
    exact hf a s (h s hs) t ht
theorem canon_getD {o : Option State} {s : State} (ho : CanonO o) (h : s.Canon) : (o.getD s).Canon := by
  cases o with
  | none => exact h
  | some t => exact ho t rfl
theorem canon_agenda {s : State} (a : List Turn) (h : s.Canon) : State.Canon { s with agenda := a } := h
theorem canon_if {c : Prop} [Decidable c] {p q : State} (hp : p.Canon) (hq : q.Canon) : (if c then p else q).Canon := by
  by_cases h : c
  · rw [if_pos h]; exact hp
  · rw [if_neg h]; exact hq
theorem canon_id {s : State} (h : s.Canon) : (id s).Canon := h
theorem canonO_map {f : State → State} {o : Option State} (hf : ∀ s, s.Canon → (f s).Canon) (h : CanonO o) :
    CanonO (o.map f) := by
  cases o with
  | none => exact canonO_none
  | some t => exact canonO_some (hf t (h t rfl))
theorem canonP_none {α : Type} : CanonP (none : Option (State × α)) := by intro t e; cases e
theorem canonP_some {α : Type} {p : State × α} (h : p.1.Canon) : CanonP (some p) := by intro t e; cases e; exact h
theorem canon_served {a : Served} {s : State} (h : a.s.Canon) (e : a.s = s) : s.Canon := e ▸ h

theorem foldl_canon {α : Type} {f : State → α → State} {s : State} {l : List α} (hf : ∀ t a, t.Canon → (f t a).Canon)
    (h : s.Canon) : (l.foldl f s).Canon := by
  induction l generalizing s with
  | nil => exact h
  | cons a l ih => exact ih (hf s a h)

theorem foldl_fst_canon {α β : Type} {f : State × β → α → State × β} {p : State × β} {l : List α}
    (hf : ∀ t a, t.1.Canon → (f t a).1.Canon) (h : p.1.Canon) : (l.foldl f p).1.Canon := by
  induction l generalizing p with
  | nil => exact h
  | cons a l ih => exact ih (hf p a h)

theorem foldl_served_canon {α : Type} {f : Served → α → Served} {a : Served} {l : List α}
    (hf : ∀ b x, b.s.Canon → (f b x).s.Canon) (h : a.s.Canon) : (l.foldl f a).s.Canon := by
  induction l generalizing a with
  | nil => exact h
  | cons x l ih => exact ih (hf a x h)

/-! ## Units -/

theorem State.setCv_canon (s : State) (k slot : Nat) (c : Caravan) (h : s.Canon) :
    (State.setCv s k slot c).Canon := by
  unfold State.setCv
  repeat' first | with_reducible (first | assumption) | dsimp only

theorem State.setCore_canon (s : State) (k : Nat) (c : Core) (h : s.Canon) :
    (State.setCore s k c).Canon := by
  unfold State.setCore
  repeat' first | with_reducible (first | assumption) | dsimp only

theorem State.setDie_canon (s : State) (d : Nat) (x : Die) (h : s.Canon) :
    (State.setDie s d x).Canon := by
  unfold State.setDie
  repeat' first | with_reducible (first | assumption) | dsimp only

theorem State.setCtx_canon (s : State) (c : Nat) (x : Context) (h : s.Canon) :
    (State.setCtx s c x).Canon := by
  unfold State.setCtx
  repeat' first | with_reducible (first | assumption) | dsimp only

theorem State.setChan_canon (s : State) (c : Nat) (x : Channel) (h : s.Canon) :
    (State.setChan s c x).Canon := by
  unfold State.setChan
  repeat' first | with_reducible (first | assumption) | dsimp only

theorem State.setExecutor_canon (s : State) (n : Nat) (x : Executor) (h : s.Canon) :
    (State.setExecutor s n x).Canon := by
  unfold State.setExecutor
  repeat' first | with_reducible (first | assumption) | dsimp only

theorem State.setSector_canon (s : State) (n : Nat) (x : Sector) (h : s.Canon) :
    (State.setSector s n x).Canon := by
  unfold State.setSector
  repeat' first | with_reducible (first | assumption) | dsimp only

theorem State.setExtent_canon (s : State) (n : Nat) (x : Extent) (h : s.Canon) :
    (State.setExtent s n x).Canon := by
  unfold State.setExtent
  repeat' first | with_reducible (first | assumption) | dsimp only

theorem State.setPort_canon (s : State) (p : Nat) (x : Port) (h : s.Canon) :
    (State.setPort s p x).Canon := by
  unfold State.setPort
  repeat' first | with_reducible (first | assumption) | dsimp only | dsimp only [State.Canon]

theorem State.setComm_canon (s : State) (c k : Nat) (x : Comm) (h : s.Canon) :
    (State.setComm s c k x).Canon := by
  unfold State.setComm
  repeat' first | with_reducible (first | assumption) | dsimp only | dsimp only [State.Canon]

theorem State.setTile_canon (s : State) (k t : Nat) (x : Tile) (h : s.Canon) :
    (State.setTile s k t x).Canon := by
  unfold State.setTile
  repeat' first | with_reducible (first | assumption | apply State.setCore_canon) | dsimp only

theorem State.setParty_canon (s : State) (k e : Nat) (x : Party) (h : s.Canon) :
    (State.setParty s k e x).Canon := by
  unfold State.setParty
  repeat' first | with_reducible (first | assumption | apply State.setCore_canon) | dsimp only

theorem State.setMe_canon (s : State) (c : Caravan) (h : s.Canon) :
    (State.setMe s c).Canon := by
  unfold State.setMe
  repeat' first | with_reducible (first | assumption | apply State.setCv_canon) | dsimp only

theorem State.coreStore_canon (s : State) (k o n x : Nat) (h : s.Canon) :
    (State.coreStore s k o n x).Canon := by
  unfold State.coreStore
  repeat' first
    | with_reducible first
        | assumption | apply mstore_keeps_wf | apply mset_keeps_wf | apply mzero_keeps_wf | apply foldl_keeps_wf
        | apply filter_keeps_wf | apply foldl_fst_wf | apply wf_fst (by assumption)
    | dsimp only

theorem State.send_canon (s : State) (m : Msg) (h : s.Canon) :
    (State.send s m).Canon := by
  unfold State.send
  repeat' first
    | with_reducible first
        | assumption | apply canon_fst (by assumption) | apply canon_snd (by assumption) | apply canon_some (by assumption)
        | apply canonO_foldl_bind
    | dsimp only | split | dsimp only [State.Canon]

theorem State.fresh_canon (s : State) (h : s.Canon) :
    (State.fresh s).2.Canon := by
  unfold State.fresh
  repeat' first | with_reducible (first | assumption) | dsimp only

theorem State.retire_canon (s : State) (h : s.Canon) :
    (State.retire s).Canon := by
  unfold State.retire
  repeat' first | with_reducible (first | assumption) | dsimp only

theorem State.setOp_canon (s : State) (o : Op) (h : s.Canon) :
    (State.setOp s o).Canon := by
  unfold State.setOp
  repeat' first | with_reducible (first | assumption | intro _ | apply canon_id) | dsimp only | split

theorem State.dropOp_canon (s : State) (id : Nat) (h : s.Canon) :
    (State.dropOp s id).Canon := by
  unfold State.dropOp
  repeat' first | with_reducible (first | assumption | intro _ | apply canon_id) | dsimp only

theorem State.finishOp_canon (s : State) (o : Op) (h : s.Canon) :
    (State.finishOp s o).Canon := by
  unfold State.finishOp
  repeat' first | with_reducible (first | assumption | apply State.setOp_canon | apply State.retire_canon) | dsimp only

theorem State.addDevOp_canon (s : State) (c : Nat) (kind : OpKind) (remote : List Req) (h : s.Canon) :
    (State.addDevOp s c kind remote).Canon := by
  unfold State.addDevOp
  repeat' first | with_reducible (first | assumption | apply canon_id) | dsimp only

theorem State.chargeDie_canon (s : State) (d : Nat) (h : s.Canon) :
    (State.chargeDie s d).Canon := by
  unfold State.chargeDie
  repeat' first
    | with_reducible first
        | assumption | apply State.fresh_canon | apply canon_fst (by assumption) | apply canon_snd (by assumption)
    | dsimp only | split

theorem State.chargeCtx_canon (s : State) (c : Nat) (h : s.Canon) :
    (State.chargeCtx s c).Canon := by
  unfold State.chargeCtx
  repeat' first
    | with_reducible first
        | assumption | apply State.fresh_canon | apply State.setCtx_canon | apply canon_fst (by assumption)
        | apply canon_snd (by assumption)
    | dsimp only | split

theorem State.event_canon (s : State) (whom : List Nat) (src typ hi : Nat) (h : s.Canon) :
    (State.event s whom src typ hi).Canon := by
  unfold State.event
  repeat' first | with_reducible (first | assumption | intro _) | dsimp only

theorem State.chanEvent_canon (s : State) (whom : List Nat) (ch typ va asid bank row detail : Nat) (h : s.Canon) :
    (State.chanEvent s whom ch typ va asid bank row detail).Canon := by
  unfold State.chanEvent
  repeat' first | with_reducible (first | assumption | apply State.event_canon) | dsimp only

theorem State.ctxEvent_canon (s : State) (whom : List Nat) (src typ detail about : Nat) (h : s.Canon) :
    (State.ctxEvent s whom src typ detail about).Canon := by
  unfold State.ctxEvent
  repeat' first | with_reducible (first | assumption | apply State.event_canon) | dsimp only

theorem State.faultRecord_canon (s : State) (c kind id : Nat) (mask : W32) (word pc : Nat) (park : W32)
    (akind level typ counts va : Nat) (h : s.Canon) :
    (State.faultRecord s c kind id mask word pc park akind level typ counts va).Canon := by
  unfold State.faultRecord
  repeat' first | with_reducible (first | assumption | apply canon_id) | dsimp only

/-! ## Operands -/

theorem State.setS_canon (s : State) (n : Nat) (x : W64) (h : s.Canon) :
    (State.setS s n x).Canon := by
  unfold State.setS
  repeat' first | with_reducible (first | assumption | apply State.setMe_canon) | dsimp only | split

theorem State.putV_canon (s : State) (f : Fields) (v : Nat → W32) (h : s.Canon) :
    (State.putV s f v).Canon := by
  unfold State.putV
  repeat' first | with_reducible (first | assumption | intro _ | apply State.setMe_canon) | dsimp only

theorem State.putV64_canon (s : State) (f : Fields) (v : Nat → W64) (h : s.Canon) :
    (State.putV64 s f v).Canon := by
  unfold State.putV64
  repeat' first | with_reducible (first | assumption | intro _ | apply State.setMe_canon) | dsimp only

theorem State.putP_canon (s : State) (n : Nat) (f : Fields) (v : Nat → Bool) (h : s.Canon) :
    (State.putP s n f v).Canon := by
  unfold State.putP
  repeat' first | with_reducible (first | assumption | intro _ | apply State.setMe_canon) | dsimp only

/-! ## Flags -/

theorem State.raise_canon (s : State) (x : Flag) (h : s.Canon) :
    (State.raise s x).Canon := by
  unfold State.raise
  repeat' first | with_reducible (first | assumption | apply State.setMe_canon) | dsimp only

/-! ## Cells -/

theorem State.activate_canon (s : State) (o : Origin) (ch bank row : Nat) (h : s.Canon) :
    (State.activate s o ch bank row).Canon := by
  unfold State.activate
  repeat' first
    | with_reducible first
        | assumption | apply State.setChan_canon | apply State.chanEvent_canon | apply canon_fst (by assumption)
        | apply canon_snd (by assumption)
    | dsimp only | split

theorem State.openRow_canon (s : State) (o : Origin) (ch bank row : Nat) (write : Bool) (h : s.Canon) :
    (State.openRow s o ch bank row write).Canon := by
  unfold State.openRow
  repeat' first
    | with_reducible first
        | assumption | intro _ | apply State.setChan_canon | apply State.activate_canon
    | dsimp only | split

theorem State.uncorrectable_canon (s : State) (o : Origin) (n grade ev : Nat) (h : s.Canon) :
    (State.uncorrectable s o n grade ev).Canon := by
  unfold State.uncorrectable
  repeat' first | with_reducible (first | assumption | apply State.setChan_canon | apply State.chanEvent_canon) | dsimp only

theorem State.readSector_canon (s : State) (o : Origin) (n key grade ev : Nat) (held : Bool) (h : s.Canon) :
    (State.readSector s o n key grade ev held).1.Canon := by
  unfold State.readSector
  repeat' first
    | with_reducible first
        | assumption | intro _ | apply State.fresh_canon | apply State.uncorrectable_canon | apply State.setSector_canon
        | apply State.setChan_canon | apply foldl_canon | apply foldl_fst_canon | apply canon_fst (by assumption)
        | apply canon_snd (by assumption) | apply canon_some (by assumption)
    | dsimp only | split

theorem State.writeSector_canon (s : State) (o : Origin) (n key grade : Nat) (m : BitVec 32) (data : Nat) (held : Bool)
    (h : s.Canon) :
    (State.writeSector s o n key grade m data held).Canon := by
  unfold State.writeSector
  repeat' first
    | with_reducible first
        | assumption | intro _ | apply mstore_keeps_wf | apply mset_keeps_wf | apply mzero_keeps_wf | apply foldl_keeps_wf
        | apply filter_keeps_wf | apply foldl_fst_wf | apply wf_fst (by assumption) | apply State.readSector_canon
        | apply State.setSector_canon | apply foldl_canon | apply foldl_fst_canon | apply canon_fst (by assumption)
        | apply canon_snd (by assumption) | apply canon_some (by assumption)
    | dsimp only | split

theorem State.sendBytes_canon (s : State) (node : BitVec 16) (c base : Nat) (m : BitVec 128) (x : BitVec 1024)
    (code : Nat → BitVec 128 → BitVec 128) (h : s.Canon) :
    (State.sendBytes s node c base m x code).Canon := by
  unfold State.sendBytes
  repeat' first
    | with_reducible first
        | assumption | intro _ | apply State.send_canon | apply State.addDevOp_canon | apply foldl_canon
        | apply foldl_fst_canon | apply canon_fst (by assumption) | apply canon_snd (by assumption)
    | dsimp only | split

theorem State.sendExtent_canon (s : State) (id off : Nat) (m : BitVec 128) (x : BitVec 1024) (h : s.Canon) :
    (State.sendExtent s id off m x).Canon := by
  unfold State.sendExtent
  repeat' first | with_reducible (first | assumption | apply State.sendBytes_canon | apply canon_id) | dsimp only

theorem State.mscOut_canon (s : State) (ch : Nat) (l : MscLine) (h : s.Canon) :
    (State.mscOut s ch l).Canon := by
  unfold State.mscOut
  repeat' first
    | with_reducible first
        | assumption | intro _ | apply State.setChan_canon | apply State.sendExtent_canon | apply State.openRow_canon
        | apply State.setSector_canon | apply foldl_canon | apply foldl_fst_canon | apply canon_fst (by assumption)
        | apply canon_snd (by assumption) | apply canon_some (by assumption) | apply canon_id
    | dsimp only | split

theorem State.mscRoom_canon (s : State) (ch asid tag : Nat) (h : s.Canon) :
    (State.mscRoom s ch asid tag).Canon := by
  unfold State.mscRoom
  repeat' first
    | with_reducible first
        | assumption | apply State.mscOut_canon | apply canon_fst (by assumption) | apply canon_snd (by assumption)
    | dsimp only | split

theorem State.mscHold_canon (s : State) (o : Origin) (base j : Nat) (dirty : Bool) (h : s.Canon) :
    (State.mscHold s o base j dirty).Canon := by
  unfold State.mscHold
  repeat' first
    | with_reducible first
        | assumption | intro _ | apply State.setChan_canon | apply State.mscRoom_canon | apply canon_fst (by assumption)
        | apply canon_snd (by assumption) | apply canon_some (by assumption)
    | dsimp only | split

theorem State.readLine_canon (s : State) (o : Origin) (flat key grade : Nat) (m : BitVec 128) (alloc : Bool) (h : s.Canon) :
    (State.readLine s o flat key grade m alloc).1.Canon := by
  unfold State.readLine
  repeat' first
    | with_reducible first
        | assumption | intro _ | apply State.mscHold_canon | apply State.openRow_canon | apply State.readSector_canon
        | apply foldl_canon | apply foldl_fst_canon | apply canon_fst (by assumption) | apply canon_snd (by assumption)
        | apply canon_some (by assumption)
    | dsimp only | split

theorem State.writeLine_canon (s : State) (o : Origin) (flat key grade : Nat) (m : BitVec 128) (x : BitVec 1024)
    (alloc : Bool) (h : s.Canon) :
    (State.writeLine s o flat key grade m x alloc).Canon := by
  unfold State.writeLine
  repeat' first
    | with_reducible first
        | assumption | intro _ | apply State.openRow_canon | apply State.writeSector_canon | apply State.mscHold_canon
        | apply foldl_canon | apply foldl_fst_canon | apply canon_fst (by assumption) | apply canon_snd (by assumption)
    | dsimp only | split

/-! ## Translate -/

theorem State.noteWait_canon (s : State) (ch op : Nat) (h : s.Canon) :
    (State.noteWait s ch op).Canon := by
  unfold State.noteWait
  repeat' first | with_reducible (first | assumption | apply State.setChan_canon) | dsimp only | split

theorem State.noteServed_canon (s : State) (ch op : Nat) (h : s.Canon) :
    (State.noteServed s ch op).Canon := by
  unfold State.noteServed
  repeat' first | with_reducible (first | assumption | intro _ | apply State.setChan_canon) | dsimp only | split

theorem State.readEntry_canon (s : State) (c asid va entry : Nat) (h : s.Canon) :
    (State.readEntry s c asid va entry).1.Canon := by
  unfold State.readEntry
  repeat' first
    | with_reducible first
        | assumption | apply State.readLine_canon | apply canon_fst (by assumption) | apply canon_snd (by assumption)
        | apply canon_some (by assumption)
    | dsimp only | split

theorem State.walkFrom_canon (s : State) (c asid va : Nat) (wait : Option Nat) (e0 : Nat) (e1 : Nat) (h : s.Canon) :
    (State.walkFrom s c asid va wait e0 e1).1.Canon := by
  induction e0 generalizing s c asid va wait e1 with
  | zero =>
    unfold State.walkFrom
    repeat' first
      | with_reducible first
          | assumption | apply State.noteWait_canon | apply State.noteServed_canon | apply State.readEntry_canon
          | apply canon_fst (by assumption) | apply canon_snd (by assumption) | apply canon_some (by assumption)
      | dsimp only | split
  | succ _ ih =>
    unfold State.walkFrom
    repeat' first
      | with_reducible first
          | assumption | apply ih | apply State.noteWait_canon | apply State.noteServed_canon | apply State.readEntry_canon
          | apply canon_fst (by assumption) | apply canon_snd (by assumption) | apply canon_some (by assumption)
      | dsimp only | split

theorem State.countAccess_canon (s : State) (c ch die va : Nat) (h : s.Canon) :
    (State.countAccess s c ch die va).Canon := by
  unfold State.countAccess
  repeat' first
    | with_reducible first
        | assumption | intro _ | apply State.setChan_canon | apply State.faultRecord_canon | apply canon_fst (by assumption)
        | apply canon_snd (by assumption) | apply canon_some (by assumption)
    | dsimp only | split

theorem State.countServed_canon (s : State) (c ch die va : Nat) (l : Leaf) (h : s.Canon) :
    (State.countServed s c ch die va l).Canon := by
  unfold State.countServed
  repeat' first | with_reducible (first | assumption | apply State.countAccess_canon) | dsimp only | split

theorem State.translate_canon (s : State) (c ch va : Nat) (wait : Option Nat) (h : s.Canon) :
    (State.translate s c ch va wait).1.Canon := by
  unfold State.translate
  repeat' first
    | with_reducible first
        | assumption | apply State.walkFrom_canon | apply State.setChan_canon | apply State.chanEvent_canon
        | apply canon_fst (by assumption) | apply canon_snd (by assumption) | apply canon_some (by assumption)
    | dsimp only | split

/-! ## Cache -/

theorem State.setD_canon (s : State) (c va : Nat) (l : Leaf) (h : s.Canon) :
    (State.setD s c va l).Canon := by
  unfold State.setD
  repeat' first
    | with_reducible first
        | assumption | intro _ | apply State.setDie_canon | apply State.readLine_canon | apply State.writeLine_canon
        | apply State.setChan_canon | apply canon_fst (by assumption) | apply canon_snd (by assumption)
        | apply canon_some (by assumption)
    | dsimp only | split

theorem State.writebackD_canon (s : State) (asid : BitVec 16) (va : Nat) (h : s.Canon) :
    (State.writebackD s asid va).Canon := by
  unfold State.writebackD
  repeat' first
    | with_reducible first
        | assumption | apply State.translate_canon | apply State.countServed_canon | apply State.setD_canon
        | apply canon_fst (by assumption) | apply canon_snd (by assumption)
    | dsimp only | split

theorem State.putExt_canon (s : State) (ch : Nat) (asid : BitVec 16) (tag id off : Nat) (m : BitVec 128) (x : BitVec 1024)
    (dirty : Bool) (h : s.Canon) :
    (State.putExt s ch asid tag id off m x dirty).Canon := by
  unfold State.putExt
  repeat' first
    | with_reducible first
        | assumption | intro _ | apply State.mscRoom_canon | apply State.setChan_canon | apply canon_some (by assumption)
        | apply canon_id
    | dsimp only | split

theorem State.flushExt_canon (s : State) (p : MscLine → Bool) (drop : Bool) (h : s.Canon) :
    (State.flushExt s p drop).Canon := by
  unfold State.flushExt
  repeat' first
    | with_reducible first
        | assumption | intro _ | apply State.sendExtent_canon | apply State.setChan_canon | apply foldl_canon
        | apply foldl_fst_canon | apply canon_fst (by assumption) | apply canon_snd (by assumption)
        | apply canon_some (by assumption) | apply canon_id
    | dsimp only | split

theorem State.lineOut_canon (s : State) (l : Line) (h : s.Canon) :
    (State.lineOut s l).Canon := by
  unfold State.lineOut
  repeat' first
    | with_reducible first
        | assumption | intro _ | apply mstore_keeps_wf | apply mset_keeps_wf | apply mzero_keeps_wf | apply foldl_keeps_wf
        | apply filter_keeps_wf | apply foldl_fst_wf | apply wf_fst (by assumption) | apply State.noteServed_canon
        | apply State.writebackD_canon | apply State.writeLine_canon | apply State.putExt_canon | apply State.sendBytes_canon
        | apply foldl_canon | apply foldl_fst_canon | apply canon_fst (by assumption) | apply canon_snd (by assumption)
        | apply foldl_served_canon
    | dsimp only | split

theorem State.flushLine_canon (s : State) (d : Nat) (p : Line → Bool) (l : Line) (h : s.Canon) :
    (State.flushLine s d p l).Canon := by
  unfold State.flushLine
  repeat' first
    | with_reducible first
        | assumption | intro _ | apply State.noteWait_canon | apply State.lineOut_canon | apply State.setDie_canon
        | apply canon_fst (by assumption) | apply canon_snd (by assumption) | apply canon_some (by assumption)
    | dsimp only | split

theorem State.flushL2_canon (s : State) (d : Nat) (p : Line → Bool) (drop : Bool) (h : s.Canon) :
    (State.flushL2 s d p drop).Canon := by
  unfold State.flushL2
  repeat' first
    | with_reducible first
        | assumption | intro _ | apply State.flushLine_canon | apply State.setDie_canon | apply foldl_canon
        | apply foldl_fst_canon | apply canon_fst (by assumption) | apply canon_snd (by assumption)
    | dsimp only | split

theorem State.dropL2_canon (s : State) (d : Nat) (p : Line → Bool) (h : s.Canon) :
    (State.dropL2 s d p).Canon := by
  unfold State.dropL2
  repeat' first | with_reducible (first | assumption | intro _ | apply State.setDie_canon) | dsimp only

theorem State.putL2_canon (s : State) (d : Nat) (l : Line) (h : s.Canon) :
    (State.putL2 s d l).Canon := by
  unfold State.putL2
  repeat' first
    | with_reducible first
        | assumption | intro _ | apply State.lineOut_canon | apply State.dropL2_canon | apply State.setDie_canon
        | apply canon_fst (by assumption) | apply canon_snd (by assumption) | apply canon_some (by assumption)
    | dsimp only | split

theorem State.unveilMask_canon (s : State) (asid : BitVec 16) (tag : Nat) (m : BitVec 128) (h : s.Canon) :
    (State.unveilMask s asid tag m).Canon := by
  unfold State.unveilMask
  repeat' first | with_reducible (first | assumption | intro _) | dsimp only | split | dsimp only [State.Canon]

theorem State.toL2_canon (s : State) (l : Line) (m : BitVec 128) (h : s.Canon) :
    (State.toL2 s l m).Canon := by
  unfold State.toL2
  repeat' first
    | with_reducible first
        | assumption | apply State.unveilMask_canon | apply State.putL2_canon
    | dsimp only | split

theorem State.cleanL1_canon (s : State) (k : Nat) (asid : BitVec 16) (tag : Nat) (h : s.Canon) :
    (State.cleanL1 s k asid tag).Canon := by
  unfold State.cleanL1
  repeat' first
    | with_reducible first
        | assumption | intro _ | apply State.toL2_canon | apply State.setCore_canon | apply canon_fst (by assumption)
        | apply canon_snd (by assumption) | apply canon_some (by assumption)
    | dsimp only | split

theorem State.dropL1_canon (s : State) (k : Nat) (asid : BitVec 16) (tag : Nat) (h : s.Canon) :
    (State.dropL1 s k asid tag).Canon := by
  unfold State.dropL1
  repeat' first | with_reducible (first | assumption | intro _ | apply State.setCore_canon) | dsimp only

theorem State.putL1_canon (s : State) (k : Nat) (l : Line) (h : s.Canon) :
    (State.putL1 s k l).Canon := by
  unfold State.putL1
  repeat' first
    | with_reducible first
        | assumption | apply State.cleanL1_canon | apply State.dropL1_canon | apply State.setCore_canon
        | apply canon_fst (by assumption) | apply canon_snd (by assumption)
    | dsimp only | split

theorem State.cleanL1All_canon (s : State) (k : Nat) (p : Line → Bool) (h : s.Canon) :
    (State.cleanL1All s k p).Canon := by
  unfold State.cleanL1All
  repeat' first
    | with_reducible first
        | assumption | intro _ | apply State.cleanL1_canon | apply foldl_canon | apply foldl_fst_canon
        | apply canon_fst (by assumption) | apply canon_snd (by assumption)
    | dsimp only | split

theorem State.takeFifo_canon (s : State) (k : Nat) (l : Line) (h : s.Canon) :
    (State.takeFifo s k l).Canon := by
  unfold State.takeFifo
  repeat' first
    | with_reducible first
        | assumption | apply State.cleanL1_canon | apply State.setCore_canon | apply canon_fst (by assumption)
        | apply canon_snd (by assumption) | apply canon_some (by assumption)
    | dsimp only | split

theorem State.drainFifo_canon (s : State) (k : Nat) (slot : Option Nat) (h : s.Canon) :
    (State.drainFifo s k slot).Canon := by
  unfold State.drainFifo
  repeat' first
    | with_reducible first
        | assumption | intro _ | apply State.cleanL1_canon | apply State.setCore_canon | apply foldl_canon
        | apply foldl_fst_canon | apply canon_fst (by assumption) | apply canon_snd (by assumption)
        | apply canon_some (by assumption)
    | dsimp only | split

theorem State.acquireL1_canon (s : State) (k : Nat) (p : Line → Bool) (h : s.Canon) :
    (State.acquireL1 s k p).Canon := by
  unfold State.acquireL1
  repeat' first | with_reducible (first | assumption | intro _ | apply State.setCore_canon) | dsimp only | split

/-! ## Access -/

theorem State.reroute_canon (s : State) (p : Nat) (h : s.Canon) :
    (State.reroute s p).Canon := by
  unfold State.reroute
  repeat' first
    | with_reducible first
        | assumption | intro _ | apply State.setPort_canon | apply foldl_canon | apply foldl_fst_canon
        | apply canon_fst (by assumption) | apply canon_snd (by assumption) | apply canon_some (by assumption)
    | dsimp only | split | dsimp only [State.Canon]

theorem State.disSet_canon (s : State) (p : Nat) (h : s.Canon) :
    (State.disSet s p).Canon := by
  unfold State.disSet
  repeat' first | with_reducible (first | assumption | apply State.setPort_canon | apply State.reroute_canon) | dsimp only

theorem State.disClear_canon (s : State) (p : Nat) (h : s.Canon) :
    (State.disClear s p).Canon := by
  unfold State.disClear
  repeat' first | with_reducible (first | assumption | apply State.setPort_canon) | dsimp only | split

theorem State.setPortReg_canon (s : State) (p o : Nat) (x : W64) (h : s.Canon) :
    (State.setPortReg s p o x).Canon := by
  unfold State.setPortReg
  repeat' first
    | with_reducible first
        | assumption | apply State.disSet_canon | apply State.disClear_canon | apply State.setPort_canon
    | dsimp only | split

theorem State.regAccess_canon (s : State) (u : User) (va n : Nat) (act : Act) (h : s.Canon) :
    (State.regAccess s u va n act).1.Canon := by
  unfold State.regAccess
  repeat' first
    | with_reducible first
        | assumption | apply State.setChan_canon | apply State.setPortReg_canon | apply canon_fst (by assumption)
        | apply canon_snd (by assumption) | apply canon_some (by assumption)
    | dsimp only | split

theorem State.setStoreByte_canon (s : State) (k o : Nat) (x : Byte) (h : s.Canon) :
    (State.setStoreByte s k o x).Canon := by
  unfold State.setStoreByte
  repeat' first
    | with_reducible first
        | assumption | apply mstore_keeps_wf | apply mset_keeps_wf | apply mzero_keeps_wf | apply foldl_keeps_wf
        | apply filter_keeps_wf | apply foldl_fst_wf | apply wf_fst (by assumption) | apply State.setCv_canon
        | apply canon_fst (by assumption) | apply canon_snd (by assumption) | apply canon_some (by assumption)
    | dsimp only | split

theorem State.storePut_canon (s : State) (k o : Nat) (e0 : Nat) (e1 : Nat) (h : s.Canon) :
    (State.storePut s k o e0 e1).Canon := by
  induction e0 generalizing s k o e1 with
  | zero =>
    unfold State.storePut
    repeat' first | with_reducible (first | assumption | apply State.setStoreByte_canon) | dsimp only
  | succ _ ih =>
    unfold State.storePut
    repeat' first | with_reducible (first | assumption | apply ih | apply State.setStoreByte_canon) | dsimp only

theorem State.windowAccess_canon (s : State) (u : User) (k o n : Nat) (act : Act) (h : s.Canon) :
    (State.windowAccess s u k o n act).1.Canon := by
  unfold State.windowAccess
  repeat' first
    | with_reducible first
        | assumption | apply State.storePut_canon | apply canon_fst (by assumption) | apply canon_snd (by assumption)
        | apply canon_some (by assumption)
    | dsimp only | split

theorem State.pointAccess_canon (s : State) (u : User) (ch : Nat) (l : Leaf) (va n : Nat) (act : Act) (h : s.Canon) :
    (State.pointAccess s u ch l va n act).1.Canon := by
  unfold State.pointAccess
  repeat' first
    | with_reducible first
        | assumption | apply mstore_keeps_wf | apply mset_keeps_wf | apply mzero_keeps_wf | apply foldl_keeps_wf
        | apply filter_keeps_wf | apply foldl_fst_wf | apply wf_fst (by assumption) | apply State.noteWait_canon
        | apply State.noteServed_canon | apply State.setD_canon | apply State.countServed_canon | apply State.readLine_canon
        | apply State.writeLine_canon | apply State.storePut_canon | apply State.putExt_canon | apply canon_fst (by assumption)
        | apply canon_snd (by assumption) | apply canon_some (by assumption) | apply canon_id
    | dsimp only | split

theorem State.veil_canon (s : State) (a : Agent) (op : Nat) (asid : BitVec 16) (va x n : Nat) (h : s.Canon) :
    (State.veil s a op asid va x n).Canon := by
  unfold State.veil
  repeat' first | with_reducible (first | assumption | intro _) | dsimp only | dsimp only [State.Canon]

theorem State.homeView_canon (s : State) (u : User) (va n : Nat) (act : Act) (r : State × Res) (h : r.1.Canon) :
    (State.homeView s u va n act r).1.Canon := by
  unfold State.homeView
  split
  · split
    · exact h
    · dsimp only
      split
      · exact State.unveilMask_canon _ _ _ _ h
      · exact h
  · exact h

theorem State.findLeaf_canon (s : State) (u : User) (ch va : Nat) (write : Bool) (h : s.Canon) :
    (State.findLeaf s u ch va write).1.Canon := by
  unfold State.findLeaf
  repeat' first
    | with_reducible first
        | assumption | apply State.translate_canon | apply canon_fst (by assumption) | apply canon_snd (by assumption)
        | apply canon_some (by assumption)
    | dsimp only | split

theorem State.lineFrom_canon (s : State) (u : User) (ch : Nat) (l : Leaf) (va : Nat) (h : s.Canon) :
    (State.lineFrom s u ch l va).1.Canon := by
  unfold State.lineFrom
  repeat' first
    | with_reducible first
        | assumption | apply State.readLine_canon | apply canon_fst (by assumption) | apply canon_snd (by assumption)
        | apply canon_some (by assumption) | apply canon_id
    | dsimp only | split

theorem State.fromHome_canon (s : State) (u : User) (ch va : Nat) (need : BitVec 128) (write : Bool) (known : Option Leaf)
    (h : s.Canon) :
    (State.fromHome s u ch va need write known).1.Canon := by
  unfold State.fromHome
  repeat' first
    | with_reducible first
        | assumption | apply State.findLeaf_canon | apply State.noteWait_canon | apply State.noteServed_canon
        | apply State.setD_canon | apply State.countServed_canon | apply State.fresh_canon | apply State.lineFrom_canon
        | apply State.putL2_canon | apply canon_fst (by assumption) | apply canon_snd (by assumption)
        | apply canon_some (by assumption)
    | dsimp only | split

theorem State.homePut_canon (s : State) (d : Nat) (l : Line) (p n : Nat) (act : Act) (h : s.Canon) :
    (State.homePut s d l p n act).1.Canon := by
  unfold State.homePut
  repeat' first
    | with_reducible first
        | assumption | apply State.putL2_canon | apply canon_fst (by assumption) | apply canon_snd (by assumption)
    | dsimp only | split

theorem State.homeAccess_canon (s : State) (u : User) (ch va n : Nat) (act : Act) (known : Option Leaf) (h : s.Canon) :
    (State.homeAccess s u ch va n act known).1.Canon := by
  unfold State.homeAccess
  repeat' first
    | with_reducible first
        | assumption | apply State.fromHome_canon | apply State.pointAccess_canon | apply State.homePut_canon
        | apply canon_fst (by assumption) | apply canon_snd (by assumption)
    | dsimp only | split

theorem State.l1Access_canon (s : State) (u : User) (k ch va n : Nat) (act : Act) (h : s.Canon) :
    (State.l1Access s u k ch va n act).1.Canon := by
  unfold State.l1Access
  extract_lets p asid held denied have_ cold
  split
  · exact h
  · split
    rename_i t r e
    have ht : t.Canon := by
      refine canon_fst e ?_
      clear e
      repeat' first
        | with_reducible (first | assumption | exact canon_fst (by assumption) (State.fromHome_canon _ _ _ _ _ _ _ h) | apply State.fromHome_canon)
        | dsimp only | split
    repeat' first
      | with_reducible (first | assumption | apply State.homeView_canon | apply State.pointAccess_canon | apply State.homePut_canon | apply State.putL1_canon | apply State.takeFifo_canon | apply State.setCore_canon)
      | dsimp only | split

theorem State.beforeHome_canon (s : State) (u : User) (va : Nat) (h : s.Canon) :
    (State.beforeHome s u va).Canon := by
  unfold State.beforeHome
  repeat' first
    | with_reducible first
        | assumption | apply State.cleanL1_canon | apply canon_fst (by assumption) | apply canon_snd (by assumption)
        | apply canon_some (by assumption)
    | dsimp only | split

theorem State.l2LineOut_canon (s : State) (c ch va : Nat) (drop : Bool) (h : s.Canon) :
    (State.l2LineOut s c ch va drop).Canon := by
  unfold State.l2LineOut
  repeat' first | with_reducible (first | assumption | intro _ | apply State.flushL2_canon) | dsimp only

theorem State.updateL1_canon (s : State) (u : User) (va n x : Nat) (h : s.Canon) :
    (State.updateL1 s u va n x).Canon := by
  unfold State.updateL1
  repeat' first
    | with_reducible first
        | assumption | apply State.putL1_canon | apply canon_fst (by assumption) | apply canon_snd (by assumption)
        | apply canon_some (by assumption)
    | dsimp only | split

theorem State.metaAccess_canon (s : State) (u : User) (ch va : Nat) (act : Act) (h : s.Canon) :
    (State.metaAccess s u ch va act).1.Canon := by
  unfold State.metaAccess
  repeat' first
    | with_reducible first
        | assumption | apply State.findLeaf_canon | apply State.noteWait_canon | apply State.noteServed_canon
        | apply State.setD_canon | apply State.countServed_canon | apply State.openRow_canon | apply State.setSector_canon
        | apply State.readLine_canon | apply canon_fst (by assumption) | apply canon_snd (by assumption)
    | dsimp only | split

theorem State.accessAt_canon (s : State) (u : User) (pl : Place) (ch va n : Nat) (act : Act) (h : s.Canon) :
    (State.accessAt s u pl ch va n act).1.Canon := by
  unfold State.accessAt
  repeat' first
    | with_reducible first
        | assumption | intro _ | apply State.metaAccess_canon | apply State.l1Access_canon | apply State.homeView_canon
        | apply State.homeAccess_canon | apply State.beforeHome_canon | apply State.noteWait_canon
        | apply State.noteServed_canon | apply State.setD_canon | apply State.countServed_canon | apply State.flushExt_canon
        | apply State.l2LineOut_canon | apply State.findLeaf_canon | apply State.pointAccess_canon | apply State.updateL1_canon
        | apply State.dropL1_canon | apply canon_fst (by assumption) | apply canon_snd (by assumption)
        | apply canon_some (by assumption)
    | dsimp only | split

theorem State.access_canon (s : State) (u : User) (pl : Place) (va n : Nat) (act : Act) (h : s.Canon) :
    (State.access s u pl va n act).1.Canon := by
  unfold State.access
  repeat' first
    | with_reducible first
        | assumption | apply State.regAccess_canon | apply State.windowAccess_canon | apply State.accessAt_canon
        | apply canon_fst (by assumption) | apply canon_snd (by assumption)
    | dsimp only | split

theorem State.checkedAccess_canon (s : State) (u : User) (pl : Place) (va : W64) (n align : Nat) (act : Act) (h : s.Canon) :
    (State.checkedAccess s u pl va n align act).1.Canon := by
  unfold State.checkedAccess
  repeat' first | with_reducible (first | assumption | apply State.access_canon) | dsimp only | split

end Sys2Proof.Machine
end

