-- ==== Sys2Proof/Laws/CanonOps.lean ====
section
/-! SUPPORT. Canonical memory is kept by records, traps, operations, executors and the memory instructions. -/

set_option linter.unreachableTactic false
set_option linter.unusedTactic false

namespace Sys2Proof.Machine

open Host (Outcome)

/-! ## Records -/

theorem State.fillBytes_canon (s : State) (u : User) (va n : Nat) (x : BitVec 128) (h : s.Canon) :
    (State.fillBytes s u va n x).Canon := by
  unfold State.fillBytes
  repeat' first
    | with_reducible first
        | assumption | apply State.translate_canon | apply State.putExt_canon | apply State.putL2_canon
        | apply canon_fst (by assumption) | apply canon_snd (by assumption) | apply canon_some (by assumption) | apply canon_id
    | dsimp only | split

theorem State.askNode_canon (s : State) (node : BitVec 16) (c : Nat) (addr : W64) (r : Req) (h : s.Canon) :
    (State.askNode s node c addr r).1.Canon := by
  unfold State.askNode
  repeat' first
    | with_reducible first
        | assumption | intro _ | apply State.setOp_canon | apply canon_fst (by assumption) | apply canon_snd (by assumption)
        | apply canon_some (by assumption) | apply canonO_findSome
    | dsimp only | split | dsimp only [State.Canon]

theorem State.ask_canon (s : State) (u : User) (pl : Place) (va n : Nat) (act : Act) (h : s.Canon) :
    (State.ask s u pl va n act).1.Canon := by
  unfold State.ask
  repeat' first
    | with_reducible first
        | assumption | apply State.access_canon | apply State.askNode_canon | apply State.fillBytes_canon
        | apply canon_fst (by assumption) | apply canon_snd (by assumption)
    | dsimp only | split | dsimp only [State.Canon]

theorem State.askChecked_canon (s : State) (u : User) (pl : Place) (va : W64) (n : Nat) (act : Act) (h : s.Canon) :
    (State.askChecked s u pl va n act).1.Canon := by
  unfold State.askChecked
  repeat' first | with_reducible (first | assumption | apply State.ask_canon) | dsimp only | split

theorem State.dropAnswers_canon (s : State) (h : s.Canon) :
    (State.dropAnswers s).Canon := by
  unfold State.dropAnswers
  repeat' first | with_reducible (first | assumption | intro _) | dsimp only

theorem State.dropAsked_canon (s : State) (p : Nat → Bool) (h : s.Canon) :
    (State.dropAsked s p).Canon := by
  unfold State.dropAsked
  repeat' first
    | with_reducible first
        | assumption | intro _ | apply canon_fst (by assumption) | apply canon_snd (by assumption)
        | apply canon_some (by assumption)
    | dsimp only | split

theorem State.awaits_canon (s t : State) (hs : s.Canon) (ht : t.Canon) :
    (State.awaits s t).Canon := by
  unfold State.awaits
  repeat' first
    | with_reducible first
        | assumption | intro _ | apply State.setChan_canon | apply State.addDevOp_canon | apply State.send_canon
        | apply foldl_canon | apply foldl_fst_canon | apply canon_fst (by assumption) | apply canon_snd (by assumption)
    | dsimp only | split

theorem State.whole_canon (s : State) (body : State → State) (h : s.Canon) (hbody : ∀ x, x.Canon → (body x).Canon) :
    (State.whole s body).1.Canon := by
  unfold State.whole
  repeat' first
    | with_reducible first
        | assumption | intro _ | apply State.dropAnswers_canon | apply State.awaits_canon | apply hbody
    | dsimp only | split

theorem State.devRead_canon (s : State) (c va n : Nat) (h : s.Canon) :
    (State.devRead s c va n).1.Canon := by
  unfold State.devRead
  repeat' first
    | with_reducible first
        | assumption | apply State.ask_canon | apply canon_fst (by assumption) | apply canon_snd (by assumption)
        | apply canon_some (by assumption)
    | dsimp only | split

theorem State.devWrite_canon (s : State) (c va n x : Nat) (h : s.Canon) :
    (State.devWrite s c va n x).1.Canon := by
  unfold State.devWrite
  repeat' first
    | with_reducible first
        | assumption | apply State.ask_canon | apply canon_fst (by assumption) | apply canon_snd (by assumption)
    | dsimp only | split

theorem State.devReads_canon (s : State) (c va k : Nat) (e0 : Nat) (h : s.Canon) :
    (State.devReads s c va k e0).1.Canon := by
  induction e0 generalizing s c va k with
  | zero =>
    unfold State.devReads
    repeat' first
      | with_reducible first
          | assumption | apply State.devRead_canon | apply canon_fst (by assumption) | apply canon_snd (by assumption)
          | apply canon_some (by assumption)
      | dsimp only | split
  | succ _ ih =>
    unfold State.devReads
    repeat' first
      | with_reducible first
          | assumption | apply ih | apply State.devRead_canon | apply canon_fst (by assumption)
          | apply canon_snd (by assumption) | apply canon_some (by assumption)
      | dsimp only | split

theorem State.devWrites_canon (s : State) (c va k : Nat) (e0 : Nat) (e1 : Nat) (h : s.Canon) :
    (State.devWrites s c va k e0 e1).1.Canon := by
  induction e0 generalizing s c va k e1 with
  | zero =>
    unfold State.devWrites
    repeat' first
      | with_reducible first
          | assumption | apply State.devWrite_canon | apply canon_fst (by assumption) | apply canon_snd (by assumption)
      | dsimp only | split
  | succ _ ih =>
    unfold State.devWrites
    repeat' first
      | with_reducible first
          | assumption | apply ih | apply State.devWrite_canon | apply canon_fst (by assumption)
          | apply canon_snd (by assumption)
      | dsimp only | split

theorem State.queueWrite_canon (s : State) (c : Nat) (fault : Bool) (va k : Nat) (e0 : Nat) (e1 : Nat) (h : s.Canon) :
    (State.queueWrite s c fault va k e0 e1).1.Canon := by
  induction e0 generalizing s c fault va k e1 with
  | zero =>
    unfold State.queueWrite
    repeat' first
      | with_reducible first
          | assumption | apply State.askNode_canon | apply State.devWrite_canon | apply canon_fst (by assumption)
          | apply canon_snd (by assumption)
      | dsimp only | split
  | succ _ ih =>
    unfold State.queueWrite
    repeat' first
      | with_reducible first
          | assumption | apply ih | apply State.askNode_canon | apply State.devWrite_canon | apply canon_fst (by assumption)
          | apply canon_snd (by assumption)
      | dsimp only | split

theorem State.setQueue_canon (s : State) (c : Nat) (fault : Bool) (q : RecQueue) (h : s.Canon) :
    (State.setQueue s c fault q).Canon := by
  unfold State.setQueue
  repeat' first | with_reducible (first | assumption | apply State.setCtx_canon) | dsimp only

theorem State.readCons_canon (s : State) (c : Nat) (fault : Bool) (h : s.Canon) :
    (State.readCons s c fault).Canon := by
  unfold State.readCons
  repeat' first
    | with_reducible first
        | assumption | apply State.devRead_canon | apply State.askNode_canon | apply State.setQueue_canon
        | apply canon_fst (by assumption) | apply canon_snd (by assumption) | apply canon_some (by assumption)
    | dsimp only | split

theorem State.writeOvf_canon (s : State) (c : Nat) (fault : Bool) (h : s.Canon) :
    (State.writeOvf s c fault).Canon := by
  unfold State.writeOvf
  repeat' first
    | with_reducible first
        | assumption | intro _ | apply State.whole_canon | apply State.queueWrite_canon | apply State.setQueue_canon
        | apply canon_fst (by assumption) | apply canon_snd (by assumption)
    | dsimp only | split

theorem State.holdRecord_canon (s : State) (c : Nat) (fault : Bool) (bits : Nat) (h : s.Canon) :
    (State.holdRecord s c fault bits).Canon := by
  unfold State.holdRecord
  repeat' first | with_reducible (first | assumption | apply State.setQueue_canon | apply State.writeOvf_canon) | dsimp only

theorem State.postFails_canon (s : State) (c : Nat) (fault : Bool) (va : Nat) (h : s.Canon) :
    (State.postFails s c fault va).Canon := by
  unfold State.postFails
  repeat' first
    | with_reducible first
        | assumption | apply State.setQueue_canon | apply State.ctxEvent_canon
    | dsimp only | split

theorem State.putRecord_canon (s : State) (c : Nat) (fault : Bool) (bits : Nat) (h : s.Canon) :
    (State.putRecord s c fault bits).1.Canon := by
  unfold State.putRecord
  repeat' first
    | with_reducible first
        | assumption | apply State.readCons_canon | apply State.queueWrite_canon | apply State.postFails_canon
        | apply State.setQueue_canon | apply State.ctxEvent_canon | apply canon_fst (by assumption)
        | apply canon_snd (by assumption)
    | dsimp only | split

theorem State.tryPost_canon (s : State) (c : Nat) (fault : Bool) (bits : Nat) (h : s.Canon) :
    (State.tryPost s c fault bits).1.Canon := by
  unfold State.tryPost
  repeat' first
    | with_reducible first
        | assumption | apply State.putRecord_canon | apply State.dropAnswers_canon | apply State.awaits_canon
        | apply canon_fst (by assumption) | apply canon_snd (by assumption) | apply canon_some (by assumption)
    | dsimp only | split

theorem State.postRecord_canon (s : State) (p : Post) (h : s.Canon) :
    (State.postRecord s p).Canon := by
  unfold State.postRecord
  repeat' first
    | with_reducible first
        | assumption | apply State.setQueue_canon | apply State.holdRecord_canon | apply State.tryPost_canon
        | apply canon_fst (by assumption) | apply canon_snd (by assumption) | apply canon_some (by assumption)
    | dsimp only | split

theorem State.postWaiting_canon (s : State) (c : Nat) (fault : Bool) (e0 : Nat) (h : s.Canon) :
    (State.postWaiting s c fault e0).Canon := by
  induction e0 generalizing s c fault with
  | zero =>
    unfold State.postWaiting
    repeat' first
      | with_reducible first
          | assumption | intro _ | apply State.setQueue_canon | apply State.tryPost_canon | apply State.holdRecord_canon
          | apply foldl_canon | apply foldl_fst_canon | apply canon_fst (by assumption) | apply canon_snd (by assumption)
          | apply canon_some (by assumption)
      | dsimp only | split
  | succ _ ih =>
    unfold State.postWaiting
    repeat' first
      | with_reducible first
          | assumption | apply ih | intro _ | apply State.setQueue_canon | apply State.tryPost_canon
          | apply State.holdRecord_canon | apply foldl_canon | apply foldl_fst_canon | apply canon_fst (by assumption)
          | apply canon_snd (by assumption) | apply canon_some (by assumption)
      | dsimp only | split

theorem State.retryHeld_canon (s : State) (c : Nat) (fault : Bool) (e0 : Nat) (h : s.Canon) :
    (State.retryHeld s c fault e0).Canon := by
  induction e0 generalizing s c fault with
  | zero =>
    unfold State.retryHeld
    repeat' first
      | with_reducible first
          | assumption | apply State.setQueue_canon | apply State.tryPost_canon | apply canon_fst (by assumption)
          | apply canon_snd (by assumption) | apply canon_some (by assumption)
      | dsimp only | split
  | succ _ ih =>
    unfold State.retryHeld
    repeat' first
      | with_reducible first
          | assumption | apply ih | apply State.setQueue_canon | apply State.tryPost_canon | apply canon_fst (by assumption)
          | apply canon_snd (by assumption) | apply canon_some (by assumption)
      | dsimp only | split

theorem State.retryQueue_canon (s : State) (c : Nat) (fault : Bool) (h : s.Canon) :
    (State.retryQueue s c fault).Canon := by
  unfold State.retryQueue
  repeat' first
    | with_reducible first
        | assumption | apply State.postWaiting_canon | apply State.retryHeld_canon | apply State.writeOvf_canon
    | dsimp only

theorem State.retryQueues_canon (s : State) (c : Nat) (h : s.Canon) :
    (State.retryQueues s c).Canon := by
  unfold State.retryQueues
  repeat' first | with_reducible (first | assumption | apply State.retryQueue_canon) | dsimp only

theorem State.postNext_canon (s : State) (h : s.Canon) :
    (State.postNext s).Canon := by
  unfold State.postNext
  repeat' first
    | with_reducible first
        | assumption | apply State.postRecord_canon | apply canon_fst (by assumption) | apply canon_snd (by assumption)
    | dsimp only | split

/-! ## Ops -/

theorem State.setPc_canon (s : State) (x : W64) (h : s.Canon) :
    (State.setPc s x).Canon := by
  unfold State.setPc
  repeat' first | with_reducible (first | assumption | apply State.setMe_canon) | dsimp only | split

theorem State.advance_canon (s : State) (h : s.Canon) :
    (State.advance s).Canon := by
  unfold State.advance
  repeat' first | with_reducible (first | assumption | apply State.setPc_canon) | dsimp only

theorem State.setKernel_canon (s : State) (x : Kernel) (h : s.Canon) :
    (State.setKernel s x).Canon := by
  unfold State.setKernel
  repeat' first | with_reducible (first | assumption | intro _ | apply State.setCtx_canon) | dsimp only | split

theorem State.cvWrites_canon (s : State) (u : User) (va : Nat) (e0 : Nat) (e1 : Nat) (h : s.Canon) :
    (State.cvWrites s u va e0 e1).1.Canon := by
  induction e0 generalizing s u va e1 with
  | zero =>
    unfold State.cvWrites
    repeat' first
      | with_reducible first
          | assumption | apply State.ask_canon | apply canon_fst (by assumption) | apply canon_snd (by assumption)
          | apply canon_some (by assumption)
      | dsimp only | split | dsimp only [State.Canon]
  | succ _ ih =>
    unfold State.cvWrites
    repeat' first
      | with_reducible first
          | assumption | apply ih | apply State.ask_canon | apply canon_fst (by assumption) | apply canon_snd (by assumption)
          | apply canon_some (by assumption)
      | dsimp only | split | dsimp only [State.Canon]

theorem State.trapEvent_canon (s : State) (k slot typ : Nat) (pc : W64) (second : Nat) (h : s.Canon) :
    (State.trapEvent s k slot typ pc second).Canon := by
  unfold State.trapEvent
  repeat' first | with_reducible (first | assumption | apply State.event_canon) | dsimp only

theorem State.dropParks_canon (s : State) (k slot : Nat) (h : s.Canon) :
    (State.dropParks s k slot).Canon := by
  unfold State.dropParks
  repeat' first
    | with_reducible first
        | assumption | intro _ | apply State.setCore_canon | apply State.dropAsked_canon
    | dsimp only | split

theorem State.doubleTrap_canon (s : State) (k slot : Nat) (pc : W64) (second : Nat) (h : s.Canon) :
    (State.doubleTrap s k slot pc second).Canon := by
  unfold State.doubleTrap
  repeat' first
    | with_reducible first
        | assumption | apply State.trapEvent_canon | apply State.setCv_canon | apply State.dropParks_canon
    | dsimp only

theorem State.postFaults_canon (s : State) (c kind id : Nat) (pc : W64) (akind : Nat) (lanes : List (Nat × Nat × Nat))
    (h : s.Canon) :
    (State.postFaults s c kind id pc akind lanes).1.Canon := by
  unfold State.postFaults
  repeat' first
    | with_reducible first
        | assumption | intro _ | apply State.faultRecord_canon | apply foldl_canon | apply foldl_fst_canon
        | apply canon_fst (by assumption) | apply canon_snd (by assumption) | apply canon_id
    | dsimp only | split

theorem State.parkCaravan_canon (s : State) (k slot : Nat) (pc : W64) (akind : Nat) (lanes : List (Nat × Nat × Nat))
    (what : ParkWhat) (h : s.Canon) :
    (State.parkCaravan s k slot pc akind lanes what).Canon := by
  unfold State.parkCaravan
  repeat' first
    | with_reducible first
        | assumption | apply State.postFaults_canon | apply State.setCv_canon | apply canon_fst (by assumption)
        | apply canon_snd (by assumption) | apply canon_id
    | dsimp only | split

theorem State.writeTrapRecord_canon (s : State) (k slot : Nat) (h : s.Canon) :
    (State.writeTrapRecord s k slot).Canon := by
  unfold State.writeTrapRecord
  repeat' first
    | with_reducible first
        | assumption | intro _ | apply State.whole_canon | apply State.cvWrites_canon | apply State.setCv_canon
        | apply State.parkCaravan_canon | apply State.doubleTrap_canon | apply canon_fst (by assumption)
        | apply canon_snd (by assumption) | apply canon_some (by assumption)
    | dsimp only | split

theorem State.takeTrap_canon (s : State) (k slot : Nat) (why : Nat) (rpc : W64) (ccause : Nat) (cpc : W64) (code : BitVec 16)
    (h : s.Canon) :
    (State.takeTrap s k slot why rpc ccause cpc code).Canon := by
  unfold State.takeTrap
  repeat' first
    | with_reducible first
        | assumption | apply State.doubleTrap_canon | apply State.setCv_canon | apply State.trapEvent_canon
        | apply State.dropParks_canon | apply State.writeTrapRecord_canon
    | dsimp only | split

theorem State.abandonWait_canon (s : State) (k slot : Nat) (h : s.Canon) :
    (State.abandonWait s k slot).Canon := by
  unfold State.abandonWait
  repeat' first
    | with_reducible first
        | assumption | intro _ | apply State.setCore_canon | apply State.dropAsked_canon | apply State.setCv_canon
    | dsimp only

theorem State.settle_canon (s : State) (k slot : Nat) (h : s.Canon) :
    (State.settle s k slot).Canon := by
  unfold State.settle
  repeat' first
    | with_reducible first
        | assumption | apply State.takeTrap_canon | apply State.abandonWait_canon | apply State.setCv_canon
        | apply canon_fst (by assumption) | apply canon_snd (by assumption) | apply canon_some (by assumption)
    | dsimp only | split

theorem State.raiseLanes_canon (s : State) (k slot : Nat) (pc dpc : W64) (l : List (Nat × LaneCause × W64)) (h : s.Canon) :
    (State.raiseLanes s k slot pc dpc l).Canon := by
  unfold State.raiseLanes
  repeat' first
    | with_reducible first
        | assumption | intro _ | apply State.doubleTrap_canon | apply State.setCv_canon | apply foldl_canon
        | apply foldl_fst_canon | apply canon_fst (by assumption) | apply canon_snd (by assumption)
    | dsimp only | split

theorem State.raiseAll_canon (s : State) (k slot : Nat) (pc dpc : W64) (m : Mask) (x : LaneCause) (va : W64) (h : s.Canon) :
    (State.raiseAll s k slot pc dpc m x va).Canon := by
  unfold State.raiseAll
  repeat' first | with_reducible (first | assumption | intro _ | apply State.raiseLanes_canon) | dsimp only

theorem State.sliceTrapAt_canon (s : State) (k slot : Nat) (pc : W64) (cause : Nat) (h : s.Canon) :
    (State.sliceTrapAt s k slot pc cause).Canon := by
  unfold State.sliceTrapAt
  repeat' first | with_reducible (first | assumption | apply State.setCv_canon) | dsimp only

theorem State.sliceTrap_canon (s : State) (k slot : Nat) (cause : Nat) (h : s.Canon) :
    (State.sliceTrap s k slot cause).Canon := by
  unfold State.sliceTrap
  repeat' first | with_reducible (first | assumption | apply State.sliceTrapAt_canon) | dsimp only

theorem State.parkSlice_canon (s : State) (k slot : Nat) (pc : W64) (akind va level : Nat) (what : ParkWhat) (h : s.Canon) :
    (State.parkSlice s k slot pc akind va level what).Canon := by
  unfold State.parkSlice
  repeat' first
    | with_reducible first
        | assumption | apply State.postFaults_canon | apply State.setCv_canon | apply canon_fst (by assumption)
        | apply canon_snd (by assumption) | apply canon_id
    | dsimp only | split

theorem State.raiseCv_canon (s : State) (x : CvCause) (code : BitVec 16) (h : s.Canon) :
    (State.raiseCv s x code).Canon := by
  unfold State.raiseCv
  repeat' first
    | with_reducible first
        | assumption | apply State.sliceTrap_canon | apply State.takeTrap_canon | apply canon_fst (by assumption)
        | apply canon_snd (by assumption)
    | dsimp only | split

theorem State.raiseEvery_canon (s : State) (x : LaneCause) (va : W64) (h : s.Canon) :
    (State.raiseEvery s x va).Canon := by
  unfold State.raiseEvery
  repeat' first
    | with_reducible first
        | assumption | apply State.sliceTrap_canon | apply State.raiseAll_canon
    | dsimp only | split

theorem State.raiseTile_canon (s : State) (err : Bool) (h : s.Canon) :
    (State.raiseTile s err).Canon := by
  unfold State.raiseTile
  repeat' first
    | with_reducible first
        | assumption | intro _ | apply State.raiseCv_canon | apply State.setMe_canon | apply foldl_canon
        | apply foldl_fst_canon | apply canon_fst (by assumption) | apply canon_snd (by assumption)
    | dsimp only | split

theorem State.block_canon (s : State) (w : Wait) (why : Nat) (h : s.Canon) :
    (State.block s w why).Canon := by
  unfold State.block
  repeat' first | with_reducible (first | assumption | apply State.setMe_canon | apply State.takeTrap_canon) | dsimp only | split

theorem State.orAway_canon (s : State) (body : State → State) (h : s.Canon) (hbody : ∀ x, x.Canon → (body x).Canon) :
    (State.orAway s body).Canon := by
  unfold State.orAway
  repeat' first
    | with_reducible first
        | assumption | intro _ | apply State.whole_canon | apply State.block_canon | apply canon_fst (by assumption)
        | apply canon_snd (by assumption) | apply hbody
    | dsimp only | split

theorem issue_canon {i : Instr} {f : Fields} {priv once : Bool} {body : State → State} {s : State} (h : s.Canon)
    (hb : (body s).Canon) : CanonN (issue i f priv once body s) := by
  intro t e
  cases e
  repeat' first
    | with_reducible first
        | assumption | apply State.raiseCv_canon | apply State.advance_canon | apply State.settle_canon
    | split

theorem State.addOp_canon (s : State) (f : Fields) (cls : Cls) (kind : OpKind) (todo remote : List Req) (held : List Nat)
    (vals : List (Nat × BitVec 128)) (h : s.Canon) :
    (State.addOp s f cls kind todo remote held vals).Canon := by
  unfold State.addOp
  repeat' first | with_reducible (first | assumption | apply canon_some (by assumption) | apply canon_id) | dsimp only | split

theorem State.makeReq_canon (s : State) (u : User) (r : Req) (act : Act) (h : s.Canon) :
    (State.makeReq s u r act).1.Canon := by
  unfold State.makeReq
  repeat' first | with_reducible (first | assumption | apply State.checkedAccess_canon) | dsimp only

theorem State.withheldWrite_canon (s : State) (u : User) (a : Agent) (r : Req) (h : s.Canon) :
    (State.withheldWrite s u a r).1.Canon := by
  unfold State.withheldWrite
  repeat' first
    | with_reducible first
        | assumption | apply State.makeReq_canon | apply State.veil_canon | apply canon_fst (by assumption)
        | apply canon_snd (by assumption)
    | dsimp only | split | dsimp only [State.Canon]

theorem canon_ite {c : Prop} [Decidable c] {p q : State × Res} (hp : p.1.Canon) (hq : q.1.Canon) :
    (if c then p else q).1.Canon := by
  by_cases h : c
  · rw [if_pos h]; exact hp
  · rw [if_neg h]; exact hq

theorem State.causal_canon (s : State) (u : User) (a : Agent) (r : Req) (h : s.Canon) :
    (State.causal s u a r).1.Canon := by
  have hm := State.makeReq_canon s u r r.act h
  have hw := State.withheldWrite_canon s u a r h
  unfold State.causal
  refine canon_ite hm ?_
  generalize s.makeReq u r r.act = m at hm ⊢
  cases r.act
  case wr => exact canon_ite h hw
  case rd => exact canon_ite h hm
  all_goals exact h

theorem State.perform_canon (s : State) (u : User) (r : Req) (h : s.Canon) :
    (State.perform s u r).1.Canon := by
  unfold State.perform
  repeat' first
    | with_reducible first
        | assumption | apply State.causal_canon | apply State.makeReq_canon | apply canon_fst (by assumption)
        | apply canon_snd (by assumption) | apply canon_some (by assumption)
    | dsimp only | split

theorem Served.fail_canon (a : Served) (zero : Bool) (r : Req) (c : LaneCause) (ha : a.s.Canon) :
    (Served.fail a zero r c).s.Canon := by
  unfold Served.fail
  repeat' first | with_reducible (first | assumption | intro _) | dsimp only | split

theorem Served.one_canon (u : User) (zero : Bool) (a : Served) (r : Req) (ha : a.s.Canon) :
    (Served.one u zero a r).s.Canon := by
  unfold Served.one
  repeat' first
    | with_reducible first
        | assumption | intro _ | apply State.perform_canon | apply Served.fail_canon | apply canon_fst (by assumption)
        | apply canon_snd (by assumption)
    | dsimp only | split

theorem serveLane_canon (u : User) (zero : Bool) (a : Served) (rs : List Req) (ha : a.s.Canon) :
    (serveLane u zero a rs).s.Canon := by
  unfold serveLane
  split
  · rename_i r t c e
    refine Served.fail_canon _ _ _ _ ?_
    show t.Canon
    split at e
    · cases e
    · obtain ⟨q, -, hq⟩ := List.exists_of_findSome?_eq_some e
      split at hq
      · rename_i t' c' e'
        cases hq
        exact canon_fst e' (State.perform_canon _ _ _ ha)
      · cases hq
  · exact foldl_served_canon (fun b x hb => Served.one_canon _ _ b x hb) ha

theorem serve_canon (s : State) (u : User) (zero : Bool) (vals : List (Nat × BitVec 128)) (lanes : List (List Req))
    (h : s.Canon) :
    (serve s u zero vals lanes).s.Canon := by
  unfold serve
  repeat' first
    | with_reducible first
        | assumption | intro _ | apply serveLane_canon | apply foldl_canon | apply foldl_fst_canon
        | apply canon_fst (by assumption) | apply canon_snd (by assumption) | apply foldl_served_canon
    | dsimp only | split

theorem State.sendRequests_canon (s : State) (op c : Nat) (rs : List Req) (h : s.Canon) :
    (State.sendRequests s op c rs).Canon := by
  unfold State.sendRequests
  repeat' first
    | with_reducible first
        | assumption | intro _ | apply State.send_canon | apply foldl_canon | apply foldl_fst_canon
        | apply canon_fst (by assumption) | apply canon_snd (by assumption)
    | dsimp only | split

theorem State.unhold_canon (s : State) (id : Nat) (h : s.Canon) :
    (State.unhold s id).Canon := by
  unfold State.unhold
  repeat' first
    | with_reducible first
        | assumption | apply State.setOp_canon | apply canon_fst (by assumption) | apply canon_snd (by assumption)
        | apply canon_some (by assumption) | apply canon_id
    | dsimp only | split

theorem State.afterServe_canon (s : State) (k slot : Nat) (slice : Bool) (op : Nat) (pc dpc : W64) (kind : OpKind)
    (a : Served) (h : s.Canon) :
    (State.afterServe s k slot slice op pc dpc kind a).Canon := by
  unfold State.afterServe
  repeat' first
    | with_reducible first
        | assumption | intro _ | apply State.sliceTrapAt_canon | apply State.unhold_canon | apply State.parkSlice_canon
        | apply State.raiseLanes_canon | apply State.parkCaravan_canon | apply canon_fst (by assumption)
        | apply canon_snd (by assumption)
    | dsimp only | split

theorem State.laneOp_canon (s : State) (f : Fields) (cls : Cls) (kind : OpKind) (bad : List (Nat × LaneCause × W64))
    (lanes : List (List Req)) (h : s.Canon) :
    (State.laneOp s f cls kind bad lanes).Canon := by
  unfold State.laneOp
  repeat' first
    | with_reducible first
        | assumption | intro _ | apply serve_canon | apply State.addOp_canon | apply State.sendRequests_canon
        | apply State.advance_canon | apply State.afterServe_canon
    | dsimp only

theorem State.oneOp_canon (s : State) (f : Fields) (cls : Cls) (kind : OpKind) (r : Req) (h : s.Canon) :
    (State.oneOp s f cls kind r).Canon := by
  unfold State.oneOp
  repeat' first
    | with_reducible first
        | assumption | apply State.perform_canon | apply State.addOp_canon | apply State.advance_canon
        | apply State.sendRequests_canon | apply State.sliceTrap_canon | apply State.raiseAll_canon
        | apply State.parkSlice_canon | apply State.parkCaravan_canon | apply canon_fst (by assumption)
        | apply canon_snd (by assumption)
    | dsimp only | split

theorem State.flushFabric_canon (s : State) (c : Nat) (h : s.Canon) :
    (State.flushFabric s c).Canon := by
  unfold State.flushFabric
  repeat' first
    | with_reducible first
        | assumption | intro _ | apply State.flushL2_canon | apply State.flushExt_canon | apply foldl_canon
        | apply foldl_fst_canon | apply canon_fst (by assumption) | apply canon_snd (by assumption)
    | dsimp only | split

theorem State.release_canon (s : State) (scope : Nat) (deep : Option (Nat × Option Nat)) (h : s.Canon) :
    (State.release s scope deep).Canon := by
  unfold State.release
  repeat' first
    | with_reducible first
        | assumption | intro _ | apply State.drainFifo_canon | apply State.flushFabric_canon | apply State.cleanL1_canon
        | apply State.flushL2_canon | apply foldl_canon | apply foldl_fst_canon | apply canon_fst (by assumption)
        | apply canon_snd (by assumption) | apply canon_some (by assumption)
    | dsimp only | split

theorem State.acquire_canon (s : State) (scope : Nat) (deep : Option (Nat × Option Nat)) (h : s.Canon) :
    (State.acquire s scope deep).Canon := by
  unfold State.acquire
  repeat' first
    | with_reducible first
        | assumption | intro _ | apply State.acquireL1_canon | apply State.dropL2_canon | apply foldl_canon
        | apply foldl_fst_canon | apply canon_fst (by assumption) | apply canon_snd (by assumption)
        | apply canon_some (by assumption)
    | dsimp only | split

theorem State.withRelease_canon (s : State) (scope : Nat) (rest : State → State) (h : s.Canon) (hrest : ∀ x, x.Canon →
    (rest x).Canon) :
    (State.withRelease s scope rest).Canon := by
  unfold State.withRelease
  repeat' first
    | with_reducible first
        | assumption | intro _ | apply State.block_canon | apply State.release_canon | apply hrest
    | dsimp only | split

theorem State.wakeBarrier_canon (s : State) (k slot : Nat) (h : s.Canon) :
    (State.wakeBarrier s k slot).Canon := by
  unfold State.wakeBarrier
  repeat' first
    | with_reducible first
        | assumption | intro _ | apply State.setCv_canon | apply State.acquireL1_canon | apply State.settle_canon
    | dsimp only

theorem State.checkBarrier_canon (s : State) (pk pe b : Nat) (h : s.Canon) :
    (State.checkBarrier s pk pe b).Canon := by
  unfold State.checkBarrier
  repeat' first
    | with_reducible first
        | assumption | intro _ | apply mstore_keeps_wf | apply mset_keeps_wf | apply mzero_keeps_wf | apply foldl_keeps_wf
        | apply filter_keeps_wf | apply foldl_fst_wf | apply wf_fst (by assumption) | apply State.wakeBarrier_canon
        | apply foldl_canon | apply foldl_fst_canon | apply canon_fst (by assumption) | apply canon_snd (by assumption)
    | dsimp only | split

theorem State.putBarrier_canon (s : State) (pk pe b x : Nat) (h : s.Canon) :
    (State.putBarrier s pk pe b x).Canon := by
  unfold State.putBarrier
  repeat' first
    | with_reducible first
        | assumption | apply mstore_keeps_wf | apply mset_keeps_wf | apply mzero_keeps_wf | apply foldl_keeps_wf
        | apply filter_keeps_wf | apply foldl_fst_wf | apply wf_fst (by assumption) | apply State.checkBarrier_canon
    | dsimp only

theorem State.arrive_canon (s : State) (pk pe b n : Nat) (h : s.Canon) :
    (State.arrive s pk pe b n).Canon := by
  unfold State.arrive
  repeat' first | with_reducible (first | assumption | apply State.putBarrier_canon) | dsimp only | split

/-! ## Executor -/

theorem State.exFault_canon (s : State) (cause : Nat) (va row : Nat) (h : s.Canon) :
    (State.exFault s cause va row).Canon := by
  unfold State.exFault
  repeat' first | with_reducible (first | assumption | apply State.setExecutor_canon | apply State.chanEvent_canon) | dsimp only

theorem exRun_canon (i : Instr) (body : Executor → Executor) (s : State) (h : s.Canon) :
    CanonN (exRun i body s) := by
  unfold exRun
  repeat' first
    | with_reducible first
        | assumption | intro _ | apply State.exFault_canon | apply State.setExecutor_canon | apply canonN_next
    | dsimp only | split

theorem exAct_canon (i : Instr) (body : State → State) (s : State) (hbody : ∀ x, x.Canon → (body x).Canon) (h : s.Canon) :
    CanonN (exAct i body s) := by
  unfold exAct
  repeat' first
    | with_reducible first
        | assumption | intro _ | apply State.exFault_canon | apply State.setExecutor_canon | apply hbody | apply canonN_next
    | dsimp only | split

theorem State.rowLeaf_canon (s : State) (r : Nat) (store : Bool) (h : s.Canon) :
    (State.rowLeaf s r store).1.Canon := by
  unfold State.rowLeaf
  repeat' first
    | with_reducible first
        | assumption | apply State.translate_canon | apply State.postFaults_canon | apply State.setExecutor_canon
        | apply State.exFault_canon | apply canon_fst (by assumption) | apply canon_snd (by assumption)
        | apply canon_some (by assumption) | apply canon_id
    | dsimp only | split

theorem State.rowRead_canon (s : State) (o : Origin) (flat : Nat) (l : Leaf) (h : s.Canon) :
    (State.rowRead s o flat l).1.Canon := by
  unfold State.rowRead
  repeat' first
    | with_reducible first
        | assumption | intro _ | apply State.readLine_canon | apply foldl_canon | apply foldl_fst_canon
        | apply canon_fst (by assumption) | apply canon_snd (by assumption) | apply canon_some (by assumption)
    | dsimp only | split

theorem State.rowWrite_canon (s : State) (o : Origin) (flat : Nat) (l : Leaf) (w : Nat → BitVec 1024) (h : s.Canon) :
    (State.rowWrite s o flat l w).Canon := by
  unfold State.rowWrite
  repeat' first
    | with_reducible first
        | assumption | intro _ | apply State.writeLine_canon | apply foldl_canon | apply foldl_fst_canon
        | apply canon_fst (by assumption) | apply canon_snd (by assumption)
    | dsimp only | split

theorem execLatch_canon (r : BitVec 15) (s : State) (h : s.Canon) :
    CanonN (execLatch r s) := by
  unfold execLatch
  repeat' first
    | with_reducible first
        | assumption | apply State.rowLeaf_canon | apply State.rowRead_canon | apply State.exFault_canon
        | apply State.setExecutor_canon | apply canon_fst (by assumption) | apply canon_snd (by assumption)
        | apply canon_some (by assumption) | apply canonN_next
    | dsimp only | split

theorem execStore_canon (r : BitVec 15) (s : State) (h : s.Canon) :
    CanonN (execStore r s) := by
  unfold execStore
  repeat' first
    | with_reducible first
        | assumption | apply State.rowLeaf_canon | apply State.setD_canon | apply State.rowWrite_canon
        | apply State.setExecutor_canon | apply canon_fst (by assumption) | apply canon_snd (by assumption)
        | apply canon_some (by assumption) | apply canonN_next
    | dsimp only | split

theorem execExecNop_canon (s : State) (h : s.Canon) :
    CanonN (execExecNop s) := by
  unfold execExecNop
  repeat' first | with_reducible (first | assumption | apply exRun_canon | apply canon_id | apply canonN_next) | dsimp only

theorem execSetk_canon (sel : BitVec 2) (v : BitVec 16) (s : State) (h : s.Canon) :
    CanonN (execSetk sel v s) := by
  unfold execSetk
  repeat' first | with_reducible (first | assumption | intro _ | apply exRun_canon | apply canonN_next) | dsimp only

theorem execSetm_canon (sel : BitVec 2) (v : BitVec 16) (s : State) (h : s.Canon) :
    CanonN (execSetm sel v s) := by
  unfold execSetm
  repeat' first | with_reducible (first | assumption | intro _ | apply exRun_canon | apply canonN_next) | dsimp only

theorem execShk_canon (d : BitVec 1) (n : BitVec 5) (s : State) (h : s.Canon) :
    CanonN (execShk d n s) := by
  unfold execShk
  repeat' first | with_reducible (first | assumption | intro _ | apply exRun_canon | apply canonN_next) | dsimp only | split

theorem execCmp_canon (v : BitVec 1) (s : State) (h : s.Canon) :
    CanonN (execCmp v s) := by
  unfold execCmp
  repeat' first
    | with_reducible first
        | assumption | intro _ | apply exRun_canon | apply canon_fst (by assumption) | apply canon_snd (by assumption)
        | apply canonN_next
    | dsimp only

theorem execCmpa_canon (v : BitVec 1) (s : State) (h : s.Canon) :
    CanonN (execCmpa v s) := by
  unfold execCmpa
  repeat' first
    | with_reducible first
        | assumption | intro _ | apply exRun_canon | apply canon_fst (by assumption) | apply canon_snd (by assumption)
        | apply canonN_next
    | dsimp only

theorem execCmpo_canon (v : BitVec 1) (s : State) (h : s.Canon) :
    CanonN (execCmpo v s) := by
  unfold execCmpo
  repeat' first
    | with_reducible first
        | assumption | intro _ | apply exRun_canon | apply canon_fst (by assumption) | apply canon_snd (by assumption)
        | apply canonN_next
    | dsimp only

theorem execTnot_canon (v : BitVec 1) (s : State) (h : s.Canon) :
    CanonN (execTnot v s) := by
  unfold execTnot
  repeat' first | with_reducible (first | assumption | intro _ | apply exRun_canon | apply canonN_next) | dsimp only

theorem execWr_canon (v : BitVec 1) (s : State) (h : s.Canon) :
    CanonN (execWr v s) := by
  unfold execWr
  repeat' first | with_reducible (first | assumption | intro _ | apply exRun_canon | apply canonN_next) | dsimp only

theorem execWrn_canon (v : BitVec 1) (s : State) (h : s.Canon) :
    CanonN (execWrn v s) := by
  unfold execWrn
  repeat' first | with_reducible (first | assumption | intro _ | apply exRun_canon | apply canonN_next) | dsimp only

theorem execTsave_canon (f : BitVec 2) (s : State) (h : s.Canon) :
    CanonN (execTsave f s) := by
  unfold execTsave
  repeat' first | with_reducible (first | assumption | intro _ | apply exRun_canon | apply canonN_next) | dsimp only

theorem execTload_canon (f : BitVec 2) (s : State) (h : s.Canon) :
    CanonN (execTload f s) := by
  unfold execTload
  repeat' first | with_reducible (first | assumption | intro _ | apply exRun_canon | apply canonN_next) | dsimp only

theorem execTshf_canon (v d : BitVec 1) (n : BitVec 8) (s : State) (h : s.Canon) :
    CanonN (execTshf v d n s) := by
  unfold execTshf
  repeat' first | with_reducible (first | assumption | intro _ | apply exRun_canon | apply canonN_next) | dsimp only | split

theorem execTcnt_canon (v : BitVec 1) (j : BitVec 3) (s : State) (h : s.Canon) :
    CanonN (execTcnt v j s) := by
  unfold execTcnt
  repeat' first | with_reducible (first | assumption | intro _ | apply exRun_canon | apply canonN_next) | dsimp only

theorem execTfst_canon (v : BitVec 1) (j : BitVec 3) (s : State) (h : s.Canon) :
    CanonN (execTfst v j s) := by
  unfold execTfst
  repeat' first
    | with_reducible first
        | assumption | intro _ | apply exRun_canon | apply canon_fst (by assumption) | apply canon_snd (by assumption)
        | apply canon_some (by assumption) | apply canonN_next
    | dsimp only | split

theorem execRdw_canon (j : BitVec 3) (w : BitVec 8) (s : State) (h : s.Canon) :
    CanonN (execRdw j w s) := by
  unfold execRdw
  repeat' first | with_reducible (first | assumption | intro _ | apply exRun_canon | apply canonN_next) | dsimp only

theorem execRdwF_canon (j : BitVec 3) (v : BitVec 1) (s : State) (h : s.Canon) :
    CanonN (execRdwF j v s) := by
  unfold execRdwF
  repeat' first
    | with_reducible first
        | assumption | intro _ | apply exRun_canon | apply canon_fst (by assumption) | apply canon_snd (by assumption)
        | apply canon_some (by assumption) | apply canonN_next
    | dsimp only | split

theorem execXout_canon (w : BitVec 8) (s : State) (h : s.Canon) :
    CanonN (execXout w s) := by
  unfold execXout
  repeat' first
    | with_reducible first
        | assumption | intro _ | apply exAct_canon | apply State.setChan_canon | apply canonN_next
    | dsimp only

theorem execXin_canon (b : BitVec 6) (w : BitVec 8) (s : State) (h : s.Canon) :
    CanonN (execXin b w s) := by
  unfold execXin
  repeat' first
    | with_reducible first
        | assumption | intro _ | apply exAct_canon | apply State.fresh_canon | apply State.setChan_canon
        | apply State.setExecutor_canon | apply foldl_canon | apply foldl_fst_canon | apply canon_fst (by assumption)
        | apply canon_snd (by assumption) | apply canonN_next
    | dsimp only | split

theorem State.exRelease_canon (s : State) (scope : BitVec 2) (h : s.Canon) :
    (State.exRelease s scope).Canon := by
  unfold State.exRelease
  repeat' first
    | with_reducible first
        | assumption | intro _ | apply State.dropL2_canon | apply State.setExecutor_canon | apply canon_some (by assumption)
    | dsimp only | split

theorem State.flushNow_canon (s : State) (d : Nat) (p : Line → Bool) (h : s.Canon) :
    (State.flushNow s d p).Canon := by
  unfold State.flushNow
  repeat' first
    | with_reducible first
        | assumption | intro _ | apply State.lineOut_canon | apply State.setDie_canon | apply foldl_canon
        | apply foldl_fst_canon | apply canon_fst (by assumption) | apply canon_snd (by assumption)
    | dsimp only | split

theorem State.exAcquire_canon (s : State) (scope : BitVec 2) (h : s.Canon) :
    (State.exAcquire s scope).Canon := by
  unfold State.exAcquire
  repeat' first
    | with_reducible first
        | assumption | intro _ | apply State.setChan_canon | apply State.flushNow_canon | apply canon_some (by assumption)
    | dsimp only | split

theorem execExecRel_canon (scope : BitVec 2) (s : State) (h : s.Canon) :
    CanonN (execExecRel scope s) := by
  unfold execExecRel
  repeat' first
    | with_reducible first
        | assumption | intro _ | apply exAct_canon | apply State.exRelease_canon | apply canonN_next
    | dsimp only

theorem execExecAcq_canon (scope : BitVec 2) (s : State) (h : s.Canon) :
    CanonN (execExecAcq scope s) := by
  unfold execExecAcq
  repeat' first
    | with_reducible first
        | assumption | intro _ | apply exAct_canon | apply State.exAcquire_canon | apply canonN_next
    | dsimp only

theorem execExecFence_canon (scope : BitVec 2) (s : State) (h : s.Canon) :
    CanonN (execExecFence scope s) := by
  unfold execExecFence
  repeat' first
    | with_reducible first
        | assumption | intro _ | apply exAct_canon | apply State.exRelease_canon | apply State.exAcquire_canon
        | apply canonN_next
    | dsimp only

theorem execLoop_canon (t : BitVec 8) (s : State) (h : s.Canon) :
    CanonN (execLoop t s) := by
  unfold execLoop
  repeat' first | with_reducible (first | assumption | apply State.setExecutor_canon | apply canonN_next) | dsimp only | split

theorem execSetc_canon (n : BitVec 16) (s : State) (h : s.Canon) :
    CanonN (execSetc n s) := by
  unfold execSetc
  repeat' first | with_reducible (first | assumption | intro _ | apply exRun_canon | apply canonN_next) | dsimp only

theorem execHalt_canon (s : State) (h : s.Canon) :
    CanonN (execHalt s) := by
  unfold execHalt
  repeat' first | with_reducible (first | assumption | apply State.setExecutor_canon | apply canonN_next) | dsimp only

theorem execRtag_canon (v : BitVec 1) (s : State) (h : s.Canon) :
    CanonN (execRtag v s) := by
  unfold execRtag
  repeat' first | with_reducible (first | assumption | intro _ | apply exRun_canon | apply canonN_next) | dsimp only

theorem State.endCmd_canon (s : State) (ch : Nat) (o : Op) (h : s.Canon) :
    (State.endCmd s ch o).Canon := by
  unfold State.endCmd
  repeat' first | with_reducible (first | assumption | apply State.setChan_canon | apply State.finishOp_canon) | dsimp only

theorem canon_advance {s : State} (a : Option Nat) (l : List Nat) (h : s.Canon) :
    State.Canon { s with advOpen := a, advTodo := l } := h

theorem State.openAdvance_canon (s : State) (ch : Nat) (inbox : Option (BitVec 256)) (h : s.Canon) :
    (State.openAdvance s ch inbox).Canon :=
  canon_advance _ _ (foldl_canon (fun _ _ ht => State.setExecutor_canon _ _ _ ht) h)

theorem State.publishSlots_canon (s : State) (ch : Nat) (rel : List Nat) (h : s.Canon) :
    (State.publishSlots s ch rel).Canon := by
  unfold State.publishSlots
  repeat' first | with_reducible (first | assumption | intro _ | apply State.setChan_canon) | dsimp only

theorem State.closeAdvance_canon (s : State) (ch : Nat) (h : s.Canon) :
    (State.closeAdvance s ch).Canon := by
  unfold State.closeAdvance
  repeat' first
    | with_reducible first
        | assumption | intro _ | apply State.publishSlots_canon | apply State.setChan_canon | apply State.dropL2_canon
        | apply State.setCv_canon | apply State.endCmd_canon | apply foldl_canon | apply foldl_fst_canon
        | apply canon_fst (by assumption) | apply canon_snd (by assumption) | apply canon_some (by assumption)
    | dsimp only | split

theorem execAdvance_canon (ch : Nat) (s : State) (h : s.Canon) :
    CanonN (execAdvance ch s) := by
  unfold execAdvance
  repeat' first
    | with_reducible first
        | assumption | intro _ | apply State.setChan_canon | apply State.endCmd_canon | apply State.openAdvance_canon
        | apply foldl_canon | apply foldl_fst_canon | apply canon_fst (by assumption) | apply canon_snd (by assumption)
        | apply canon_some (by assumption) | apply canonN_next
    | dsimp only | split

theorem State.zeroExecutors_canon (s : State) (ch : Nat) (h : s.Canon) :
    (State.zeroExecutors s ch).Canon := by
  unfold State.zeroExecutors
  repeat' first | with_reducible (first | assumption | intro _ | apply State.setChan_canon) | dsimp only

/-! ## Memory -/

theorem State.strongStore_canon (s : State) (h : s.Canon) :
    (State.strongStore s).Canon := by
  unfold State.strongStore
  repeat' first | with_reducible (first | assumption | apply State.setMe_canon) | dsimp only

theorem execLd_canon (f : Fields) (s : State) (h : s.Canon) :
    CanonN (execLd f s) := by
  unfold execLd
  repeat' first
    | with_reducible first
        | assumption | intro _ | apply issue_canon | apply State.laneOp_canon | apply canonN_next
    | dsimp only

theorem execSt_canon (f : Fields) (s : State) (h : s.Canon) :
    CanonN (execSt f s) := by
  unfold execSt
  repeat' first
    | with_reducible first
        | assumption | intro _ | apply issue_canon | apply State.strongStore_canon | apply State.laneOp_canon
        | apply canonN_next
    | dsimp only | split

theorem State.privOp_canon (s : State) (f : Fields) (cls : Cls) (kind : OpKind) (w : Nat) (act : Nat → Nat → Act) (h : s.Canon) :
    (State.privOp s f cls kind w act).Canon := by
  unfold State.privOp
  repeat' first | with_reducible (first | assumption | intro _ | apply State.laneOp_canon) | dsimp only

theorem execLdl_canon (f : Fields) (s : State) (h : s.Canon) :
    CanonN (execLdl f s) := by
  unfold execLdl
  repeat' first
    | with_reducible first
        | assumption | intro _ | apply issue_canon | apply State.privOp_canon | apply canonN_next
    | dsimp only

theorem execStl_canon (f : Fields) (s : State) (h : s.Canon) :
    CanonN (execStl f s) := by
  unfold execStl
  repeat' first
    | with_reducible first
        | assumption | intro _ | apply issue_canon | apply State.privOp_canon | apply canonN_next
    | dsimp only | split

theorem State.windowOp_canon (s : State) (f : Fields) (cls : Cls) (kind : OpKind) (w : Nat) (act : Nat → Act) (h : s.Canon) :
    (State.windowOp s f cls kind w act).Canon := by
  unfold State.windowOp
  repeat' first | with_reducible (first | assumption | intro _ | apply State.laneOp_canon) | dsimp only | split

theorem execLdw_canon (f : Fields) (s : State) (h : s.Canon) :
    CanonN (execLdw f s) := by
  unfold execLdw
  repeat' first
    | with_reducible first
        | assumption | intro _ | apply issue_canon | apply State.windowOp_canon | apply canonN_next
    | dsimp only

theorem execStw_canon (f : Fields) (s : State) (h : s.Canon) :
    CanonN (execStw f s) := by
  unfold execStw
  repeat' first
    | with_reducible first
        | assumption | intro _ | apply issue_canon | apply State.windowOp_canon | apply canonN_next
    | dsimp only

theorem execLdr_canon (f : Fields) (s : State) (h : s.Canon) :
    CanonN (execLdr f s) := by
  unfold execLdr
  repeat' first
    | with_reducible first
        | assumption | intro _ | apply issue_canon | apply State.laneOp_canon | apply canonN_next
    | dsimp only

theorem State.joinAcquire_canon (s : State) (op scope : Nat) (h : s.Canon) :
    (State.joinAcquire s op scope).Canon := by
  unfold State.joinAcquire
  repeat' first
    | with_reducible first
        | assumption | apply State.acquire_canon | apply State.setMe_canon | apply canon_fst (by assumption)
        | apply canon_snd (by assumption) | apply canon_some (by assumption)
    | dsimp only | split

theorem State.atomOp_canon (s : State) (f : Fields) (cls : Cls) (kind : OpKind) (act : State → Nat → Act) (h : s.Canon) :
    (State.atomOp s f cls kind act).Canon := by
  unfold State.atomOp
  repeat' first
    | with_reducible first
        | assumption | intro _ | apply State.strongStore_canon | apply State.laneOp_canon | apply State.joinAcquire_canon
        | apply State.withRelease_canon
    | dsimp only | split

theorem execAtom_canon (f : Fields) (s : State) (h : s.Canon) :
    CanonN (execAtom f s) := by
  unfold execAtom
  repeat' first
    | with_reducible first
        | assumption | intro _ | apply issue_canon | apply State.atomOp_canon | apply canonN_next
    | dsimp only

theorem execRed_canon (f : Fields) (s : State) (h : s.Canon) :
    CanonN (execRed f s) := by
  unfold execRed
  repeat' first
    | with_reducible first
        | assumption | intro _ | apply issue_canon | apply State.atomOp_canon | apply canonN_next
    | dsimp only

theorem execCas_canon (f : Fields) (s : State) (h : s.Canon) :
    CanonN (execCas f s) := by
  unfold execCas
  repeat' first
    | with_reducible first
        | assumption | intro _ | apply issue_canon | apply State.atomOp_canon | apply canon_some (by assumption)
        | apply canonN_next
    | dsimp only

theorem execMdld_canon (f : Fields) (s : State) (h : s.Canon) :
    CanonN (execMdld f s) := by
  unfold execMdld
  repeat' first
    | with_reducible first
        | assumption | intro _ | apply issue_canon | apply State.laneOp_canon | apply canonN_next
    | dsimp only

theorem execMdst_canon (f : Fields) (s : State) (h : s.Canon) :
    CanonN (execMdst f s) := by
  unfold execMdst
  repeat' first
    | with_reducible first
        | assumption | intro _ | apply issue_canon | apply State.laneOp_canon | apply canonN_next
    | dsimp only

theorem execPrf_canon (f : Fields) (s : State) (h : s.Canon) :
    CanonN (execPrf f s) := by
  unfold execPrf
  repeat' first
    | with_reducible first
        | assumption | intro _ | apply issue_canon | apply State.advance_canon | apply canonN_next
    | dsimp only

theorem State.cacheControl_canon (s : State) (va : Nat) (l2 drop : Bool) (h : s.Canon) :
    (State.cacheControl s va l2 drop).Canon := by
  unfold State.cacheControl
  repeat' first
    | with_reducible first
        | assumption | apply State.cleanL1_canon | apply State.l2LineOut_canon | apply State.dropL1_canon
    | dsimp only | split

theorem execCctl_canon (f : Fields) (s : State) (h : s.Canon) :
    CanonN (execCctl f s) := by
  unfold execCctl
  repeat' first
    | with_reducible first
        | assumption | intro _ | apply issue_canon | apply State.cacheControl_canon | apply State.laneOp_canon
        | apply foldl_canon | apply foldl_fst_canon | apply canon_fst (by assumption) | apply canon_snd (by assumption)
        | apply canonN_next
    | dsimp only | split

theorem State.setQueueOf_canon (s : State) (q : Nat) (x : OpQueue) (h : s.Canon) :
    (State.setQueueOf s q x).Canon := by
  unfold State.setQueueOf
  repeat' first | with_reducible (first | assumption | apply State.setMe_canon) | dsimp only

theorem State.reserveSlot_canon (s : State) (q : Nat) (landed : Bool) (h : s.Canon) :
    (State.reserveSlot s q landed).Canon := by
  unfold State.reserveSlot
  repeat' first | with_reducible (first | assumption | apply State.setQueueOf_canon) | dsimp only

theorem State.landWord_canon (s : State) (k slot q seq L : Nat) (x : W32) (h : s.Canon) :
    (State.landWord s k slot q seq L x).Canon := by
  unfold State.landWord
  repeat' first
    | with_reducible first
        | assumption | intro _ | apply State.fresh_canon | apply State.storePut_canon | apply canon_fst (by assumption)
        | apply canon_snd (by assumption) | apply canon_some (by assumption)
    | dsimp only | split

theorem State.finishLast_canon (s : State) (h : s.Canon) :
    (State.finishLast s).Canon := by
  unfold State.finishLast
  repeat' first
    | with_reducible first
        | assumption | apply State.finishOp_canon | apply canon_fst (by assumption) | apply canon_snd (by assumption)
        | apply canon_some (by assumption)
    | dsimp only | split

theorem execLdq_canon (f : Fields) (s : State) (h : s.Canon) :
    CanonN (execLdq f s) := by
  unfold execLdq
  repeat' first
    | with_reducible first
        | assumption | intro _ | apply issue_canon | apply State.addOp_canon | apply State.finishLast_canon
        | apply State.advance_canon | apply State.block_canon | apply serve_canon | apply State.sliceTrap_canon
        | apply State.parkSlice_canon | apply State.reserveSlot_canon | apply State.sendRequests_canon
        | apply canon_fst (by assumption) | apply canon_snd (by assumption) | apply canonN_next
    | dsimp only | split

theorem State.region_canon (s : State) (ks : List Nat) (h : s.Canon) :
    (State.region s ks).Canon := by
  unfold State.region
  repeat' first | with_reducible (first | assumption | apply State.setMe_canon) | dsimp only

theorem execRegion_canon (f : Fields) (s : State) (h : s.Canon) :
    CanonN (execRegion f s) := by
  unfold execRegion
  repeat' first
    | with_reducible first
        | assumption | intro _ | apply issue_canon | apply State.region_canon | apply State.advance_canon | apply canonN_next
    | dsimp only

end Sys2Proof.Machine
end

