-- ==== Sys2Proof/Laws/CanonUnits.lean ====
section
/-! SUPPORT. Canonical memory is kept by synchronisation, tiles, copies, the matrix unit, fetch and service. -/

set_option linter.unreachableTactic false
set_option linter.unusedTactic false

namespace Sys2Proof.Machine

open Host (Outcome)

/-! ## Sync -/

theorem State.insertMarker_canon (s : State) (h : s.Canon) :
    (State.insertMarker s).Canon := by
  unfold State.insertMarker
  repeat' first | with_reducible (first | assumption | intro _ | apply State.setCore_canon) | dsimp only

theorem State.noteRelease_canon (s : State) (scope : Nat) (h : s.Canon) :
    (State.noteRelease s scope).Canon := by
  unfold State.noteRelease
  repeat' first | with_reducible (first | assumption | apply State.setMe_canon) | dsimp only | split

theorem State.fence_canon (s : State) (scope : Nat) (deep : Option (Nat × Option Nat)) (rel acq : Bool) (h : s.Canon) :
    (State.fence s scope deep rel acq).Canon := by
  unfold State.fence
  repeat' first
    | with_reducible first
        | assumption | apply State.setMe_canon | apply State.block_canon | apply State.release_canon
        | apply State.acquire_canon | apply State.insertMarker_canon | apply State.noteRelease_canon
        | apply State.advance_canon
    | dsimp only | split

theorem State.withDeep_canon (s : State) (x : Operand) (scope : Nat) (go : Option (Nat × Option Nat) → State) (h : s.Canon)
    (hgo : ∀ y0, (go y0).Canon) :
    (State.withDeep s x scope go).Canon := by
  unfold State.withDeep
  repeat' first
    | with_reducible first
        | assumption | intro _ | apply State.raiseCv_canon | apply canon_fst (by assumption) | apply canon_snd (by assumption)
        | apply canon_some (by assumption) | apply hgo
    | dsimp only | split

theorem execFence_canon (f : Fields) (s : State) (h : s.Canon) :
    CanonN (execFence f s) := by
  unfold execFence
  repeat' first
    | with_reducible first
        | assumption | intro _ | apply issue_canon | apply State.fence_canon | apply State.withDeep_canon | apply canonN_next
    | dsimp only

theorem State.joinedWait_canon (s : State) (kind : OpKind) (todo remote : List Req) (scope : Nat) (addr : W64) (h : s.Canon) :
    (State.joinedWait s kind todo remote scope addr).Canon := by
  unfold State.joinedWait
  repeat' first
    | with_reducible first
        | assumption | apply State.addOp_canon | apply State.sendRequests_canon | apply State.setMe_canon | apply canon_id
    | dsimp only

theorem State.joinedStore_canon (s : State) (pc : W64) (r : Req) (h : s.Canon) :
    (State.joinedStore s pc r).Canon := by
  unfold State.joinedStore
  repeat' first
    | with_reducible first
        | assumption | apply State.perform_canon | apply State.joinedWait_canon | apply State.raiseAll_canon
        | apply State.setPc_canon | apply State.parkCaravan_canon | apply canon_fst (by assumption)
        | apply canon_snd (by assumption)
    | dsimp only | split

theorem execRel_canon (f : Fields) (s : State) (h : s.Canon) :
    CanonN (execRel f s) := by
  unfold execRel
  repeat' first
    | with_reducible first
        | assumption | intro _ | apply issue_canon | apply State.withDeep_canon | apply State.fence_canon
        | apply State.setMe_canon | apply State.block_canon | apply State.release_canon | apply State.perform_canon
        | apply State.advance_canon | apply State.raiseAll_canon | apply State.parkCaravan_canon
        | apply State.insertMarker_canon | apply State.strongStore_canon | apply State.joinedStore_canon
        | apply canon_fst (by assumption) | apply canon_snd (by assumption) | apply canonN_next
    | dsimp only | split

theorem execAcq_canon (f : Fields) (s : State) (h : s.Canon) :
    CanonN (execAcq f s) := by
  unfold execAcq
  repeat' first
    | with_reducible first
        | assumption | intro _ | apply issue_canon | apply State.withDeep_canon | apply State.fence_canon
        | apply State.setMe_canon | apply State.perform_canon | apply State.setS_canon | apply State.acquire_canon
        | apply State.advance_canon | apply State.joinedWait_canon | apply State.raiseAll_canon | apply State.parkCaravan_canon
        | apply canon_fst (by assumption) | apply canon_snd (by assumption) | apply canonN_next
    | dsimp only | split

theorem execWaitc_canon (f : Fields) (s : State) (h : s.Canon) :
    CanonN (execWaitc f s) := by
  unfold execWaitc
  repeat' first
    | with_reducible first
        | assumption | intro _ | apply issue_canon | apply State.advance_canon | apply State.block_canon | apply canonN_next
    | dsimp only | split

theorem State.markRound_canon (s : State) (pk pe : Nat) (h : s.Canon) :
    (State.markRound s pk pe).Canon := by
  unfold State.markRound
  repeat' first
    | with_reducible first
        | assumption | intro _ | apply State.setCv_canon | apply foldl_canon | apply foldl_fst_canon
        | apply canon_fst (by assumption) | apply canon_snd (by assumption)
    | dsimp only | split

theorem State.marksMet_canon (s : State) (pk pe : Nat) (h : s.Canon) :
    (State.marksMet s pk pe).Canon := by
  unfold State.marksMet
  repeat' first
    | with_reducible first
        | assumption | intro _ | apply State.markRound_canon | apply foldl_canon | apply foldl_fst_canon
        | apply canon_fst (by assumption) | apply canon_snd (by assumption)
    | dsimp only | split

theorem execMark_canon (f : Fields) (s : State) (h : s.Canon) :
    CanonN (execMark f s) := by
  unfold execMark
  repeat' first
    | with_reducible first
        | assumption | intro _ | apply issue_canon | apply State.setMe_canon | apply State.advance_canon
        | apply State.marksMet_canon | apply canon_fst (by assumption) | apply canon_snd (by assumption)
        | apply canon_some (by assumption) | apply canonN_next
    | dsimp only | split

theorem State.withBarrier_canon (s : State) (f : Fields) (go : Nat → Nat → Nat → State) (h : s.Canon) (hgo : ∀ y0 y1 y2,
    (go y0 y1 y2).Canon) :
    (State.withBarrier s f go).Canon := by
  unfold State.withBarrier
  repeat' first
    | with_reducible first
        | assumption | intro _ | apply State.raiseCv_canon | apply canon_fst (by assumption) | apply canon_snd (by assumption)
        | apply canon_some (by assumption) | apply hgo
    | dsimp only | split

theorem execBarinit_canon (f : Fields) (s : State) (h : s.Canon) :
    CanonN (execBarinit f s) := by
  unfold execBarinit
  repeat' first
    | with_reducible first
        | assumption | intro _ | apply mstore_keeps_wf | apply mset_keeps_wf | apply mzero_keeps_wf | apply foldl_keeps_wf
        | apply filter_keeps_wf | apply foldl_fst_wf | apply wf_fst (by assumption) | apply issue_canon
        | apply State.withBarrier_canon | apply State.putBarrier_canon | apply State.advance_canon | apply State.raiseCv_canon
        | apply canonN_next
    | dsimp only | split

theorem execBarexp_canon (f : Fields) (s : State) (h : s.Canon) :
    CanonN (execBarexp f s) := by
  unfold execBarexp
  repeat' first
    | with_reducible first
        | assumption | intro _ | apply issue_canon | apply State.withBarrier_canon | apply State.raiseCv_canon
        | apply State.advance_canon | apply State.putBarrier_canon | apply canonN_next
    | dsimp only | split

theorem execBararv_canon (f : Fields) (s : State) (h : s.Canon) :
    CanonN (execBararv f s) := by
  unfold execBararv
  repeat' first
    | with_reducible first
        | assumption | intro _ | apply issue_canon | apply State.withBarrier_canon | apply State.withRelease_canon
        | apply State.advance_canon | apply State.arrive_canon | apply canonN_next
    | dsimp only

theorem execBarwait_canon (f : Fields) (s : State) (h : s.Canon) :
    CanonN (execBarwait f s) := by
  unfold execBarwait
  repeat' first
    | with_reducible first
        | assumption | intro _ | apply issue_canon | apply State.withBarrier_canon | apply State.raiseCv_canon
        | apply State.takeTrap_canon | apply State.acquire_canon | apply State.advance_canon | apply State.block_canon
        | apply canonN_next
    | dsimp only | split

theorem execBartest_canon (f : Fields) (s : State) (h : s.Canon) :
    CanonN (execBartest f s) := by
  unfold execBartest
  repeat' first
    | with_reducible first
        | assumption | intro _ | apply issue_canon | apply State.withBarrier_canon | apply State.raiseCv_canon
        | apply State.setMe_canon | apply State.advance_canon | apply canonN_next
    | dsimp only | split

theorem State.enter_canon (s : State) (pk pe : Nat) (h : s.Canon) :
    (State.enter s pk pe).Canon := by
  unfold State.enter
  repeat' first
    | with_reducible first
        | assumption | apply State.setParty_canon | apply State.setMe_canon | apply canon_some (by assumption)
    | dsimp only | split

theorem State.join_canon (s : State) (sd : Nat) (key : W64) (count size : Nat) (h : s.Canon) :
    (State.join s sd key count size).Canon := by
  unfold State.join
  repeat' first
    | with_reducible first
        | assumption | intro _ | apply mstore_keeps_wf | apply mset_keeps_wf | apply mzero_keeps_wf | apply foldl_keeps_wf
        | apply filter_keeps_wf | apply foldl_fst_wf | apply wf_fst (by assumption) | apply State.setS_canon
        | apply State.advance_canon | apply State.enter_canon | apply State.block_canon | apply State.setParty_canon
        | apply canon_fst (by assumption) | apply canon_snd (by assumption) | apply canon_some (by assumption)
    | dsimp only | split

theorem execJoin_canon (f : Fields) (s : State) (h : s.Canon) :
    CanonN (execJoin f s) := by
  unfold execJoin
  repeat' first
    | with_reducible first
        | assumption | intro _ | apply issue_canon | apply State.join_canon | apply canon_fst (by assumption)
        | apply canon_snd (by assumption) | apply canonN_next
    | dsimp only | split

theorem State.dissolve_canon (s : State) (pk pe : Nat) (h : s.Canon) :
    (State.dissolve s pk pe).Canon := by
  unfold State.dissolve
  repeat' first
    | with_reducible first
        | assumption | intro _ | apply State.setCore_canon | apply State.setParty_canon | apply foldl_canon
        | apply foldl_fst_canon | apply canon_fst (by assumption) | apply canon_snd (by assumption)
        | apply canon_some (by assumption)
    | dsimp only | split

theorem State.leaveParty_canon (s : State) (k slot : Nat) (h : s.Canon) :
    (State.leaveParty s k slot).Canon := by
  unfold State.leaveParty
  repeat' first
    | with_reducible first
        | assumption | intro _ | apply State.setCv_canon | apply State.setParty_canon | apply State.putBarrier_canon
        | apply State.marksMet_canon | apply State.dissolve_canon | apply foldl_canon | apply foldl_fst_canon
        | apply canon_fst (by assumption) | apply canon_snd (by assumption) | apply canon_some (by assumption)
    | dsimp only | split

theorem execLeave_canon (f : Fields) (s : State) (h : s.Canon) :
    CanonN (execLeave f s) := by
  unfold execLeave
  repeat' first
    | with_reducible first
        | assumption | intro _ | apply issue_canon | apply State.advance_canon | apply State.leaveParty_canon
        | apply State.block_canon | apply canonN_next
    | dsimp only | split

theorem execPartyq_canon (f : Fields) (s : State) (h : s.Canon) :
    CanonN (execPartyq f s) := by
  unfold execPartyq
  repeat' first
    | with_reducible first
        | assumption | intro _ | apply issue_canon | apply State.setS_canon | apply State.advance_canon
        | apply canon_fst (by assumption) | apply canon_snd (by assumption) | apply canon_some (by assumption)
        | apply canonN_next
    | dsimp only | split

theorem State.launchBin_canon (s : State) (d j : Nat) (h : s.Canon) :
    (State.launchBin s d j).Canon := by
  unfold State.launchBin
  repeat' first
    | with_reducible first
        | assumption | apply State.setDie_canon | apply State.setKernel_canon | apply canon_fst (by assumption)
        | apply canon_snd (by assumption) | apply canon_some (by assumption)
    | dsimp only | split

theorem State.appendItem_canon (s : State) (d : Nat) (kid : KernelId) (e : Nat) (ent : BitVec 256) (x : W64) (h : s.Canon) :
    (State.appendItem s d kid e ent x).Canon := by
  unfold State.appendItem
  repeat' first
    | with_reducible first
        | assumption | apply State.launchBin_canon | apply State.setDie_canon | apply canon_fst (by assumption)
        | apply canon_snd (by assumption) | apply canon_some (by assumption)
    | dsimp only | split

theorem execSpawn_canon (f : Fields) (s : State) (h : s.Canon) :
    CanonN (execSpawn f s) := by
  unfold execSpawn
  repeat' first
    | with_reducible first
        | assumption | intro _ | apply issue_canon | apply State.raiseCv_canon | apply State.block_canon
        | apply State.withRelease_canon | apply State.appendItem_canon | apply State.advance_canon | apply foldl_canon
        | apply foldl_fst_canon | apply canon_fst (by assumption) | apply canon_snd (by assumption)
        | apply canon_some (by assumption) | apply canonN_next
    | dsimp only | split

theorem execTermq_canon (f : Fields) (s : State) (h : s.Canon) :
    CanonN (execTermq f s) := by
  unfold execTermq
  repeat' first
    | with_reducible first
        | assumption | intro _ | apply issue_canon | apply State.acquire_canon | apply State.setS_canon
        | apply State.advance_canon | apply canonN_next
    | dsimp only | split

theorem State.bindGranules_canon (s : State) (k : Nat) (p : Nat × Nat) (z n : Nat) (h : s.Canon) :
    (State.bindGranules s k p z n).Canon := by
  unfold State.bindGranules
  repeat' first
    | with_reducible first
        | assumption | intro _ | apply mstore_keeps_wf | apply mset_keeps_wf | apply mzero_keeps_wf | apply foldl_keeps_wf
        | apply filter_keeps_wf | apply foldl_fst_wf | apply wf_fst (by assumption) | apply State.setCore_canon
        | apply foldl_canon | apply foldl_fst_canon | apply canon_fst (by assumption) | apply canon_snd (by assumption)
    | dsimp only | split

theorem State.answerP_canon (s : State) (k slot pd : Nat) (b : Bool) (h : s.Canon) :
    (State.answerP s k slot pd b).Canon := by
  unfold State.answerP
  repeat' first | with_reducible (first | assumption | intro _ | apply State.setCv_canon) | dsimp only | split

theorem execAccalloc_canon (f : Fields) (s : State) (h : s.Canon) :
    CanonN (execAccalloc f s) := by
  unfold execAccalloc
  repeat' first
    | with_reducible first
        | assumption | intro _ | apply issue_canon | apply State.raiseCv_canon | apply State.bindGranules_canon
        | apply State.answerP_canon | apply State.advance_canon | apply State.setCore_canon | apply State.block_canon
        | apply canon_fst (by assumption) | apply canon_snd (by assumption) | apply canon_some (by assumption)
        | apply canonO_foldl_bind | apply canonN_next
    | dsimp only | split

theorem execAccfree_canon (f : Fields) (s : State) (h : s.Canon) :
    CanonN (execAccfree f s) := by
  unfold execAccfree
  repeat' first
    | with_reducible first
        | assumption | intro _ | apply issue_canon | apply State.raiseCv_canon | apply State.block_canon
        | apply State.setCore_canon | apply State.advance_canon | apply canon_fst (by assumption)
        | apply canon_snd (by assumption) | apply canon_some (by assumption) | apply canonN_next
    | dsimp only | split

/-! ## Tile -/

theorem State.tilePut_canon (s : State) (k : Nat) (t : Tile) (i j x : Nat) (h : s.Canon) :
    (State.tilePut s k t i j x).Canon := by
  unfold State.tilePut
  repeat' first
    | with_reducible first
        | assumption | apply State.setStoreByte_canon | apply State.storePut_canon
    | dsimp only | split

theorem State.tileBytes_canon (s : State) (k : Nat) (t : Tile) (l : List Nat) (h : s.Canon) :
    (State.tileBytes s k t l).Canon := by
  unfold State.tileBytes
  repeat' first
    | with_reducible first
        | assumption | intro _ | apply State.setStoreByte_canon | apply foldl_canon | apply foldl_fst_canon
        | apply canon_fst (by assumption) | apply canon_snd (by assumption)
    | dsimp only | split

theorem State.withTile_canon (s : State) (t : Nat) (holders : Bool) (go : Tile → State) (h : s.Canon) (hgo : ∀ y0,
    (go y0).Canon) :
    (State.withTile s t holders go).Canon := by
  unfold State.withTile
  repeat' first
    | with_reducible first
        | assumption | intro _ | apply State.raiseTile_canon | apply State.block_canon | apply hgo
    | dsimp only | split

theorem State.readTile_canon (s : State) (k t : Nat) (x : Tile) (go : State) (hs : s.Canon) (hgo : go.Canon) :
    (State.readTile s k t x go).Canon := by
  unfold State.readTile
  repeat' first
    | with_reducible first
        | assumption | apply State.raiseTile_canon | apply State.block_canon | apply canon_fst (by assumption)
        | apply canon_snd (by assumption)
    | dsimp only | split

theorem State.fillTile_canon (s : State) (t : Nat) (x : Tile) (go : State) (hs : s.Canon) (hgo : go.Canon) :
    (State.fillTile s t x go).Canon := by
  unfold State.fillTile
  repeat' first
    | with_reducible first
        | assumption | apply State.block_canon | apply State.raiseTile_canon | apply canon_fst (by assumption)
        | apply canon_snd (by assumption)
    | dsimp only | split

theorem State.sendTile_canon (s : State) (t : Nat) (x : Tile) (go : State) (hs : s.Canon) (hgo : go.Canon) :
    (State.sendTile s t x go).Canon := by
  unfold State.sendTile
  repeat' first
    | with_reducible first
        | assumption | apply State.readTile_canon | apply canon_fst (by assumption) | apply canon_snd (by assumption)
    | dsimp only | split

theorem State.tileSent_canon (s : State) (k t : Nat) (h : s.Canon) :
    (State.tileSent s k t).Canon := by
  unfold State.tileSent
  repeat' first | with_reducible (first | assumption | apply State.setTile_canon) | dsimp only

theorem execTdef_canon (f : Fields) (s : State) (h : s.Canon) :
    CanonN (execTdef f s) := by
  unfold execTdef
  repeat' first
    | with_reducible first
        | assumption | intro _ | apply issue_canon | apply State.raiseCv_canon | apply State.raiseTile_canon
        | apply State.setTile_canon | apply State.advance_canon | apply canonN_next
    | dsimp only | split

theorem execTfree_canon (f : Fields) (s : State) (h : s.Canon) :
    CanonN (execTfree f s) := by
  unfold execTfree
  repeat' first
    | with_reducible first
        | assumption | intro _ | apply issue_canon | apply State.withTile_canon | apply State.raiseTile_canon
        | apply State.setTile_canon | apply State.advance_canon | apply canonN_next
    | dsimp only | split

theorem execTstat_canon (f : Fields) (s : State) (h : s.Canon) :
    CanonN (execTstat f s) := by
  unfold execTstat
  repeat' first
    | with_reducible first
        | assumption | intro _ | apply issue_canon | apply State.setS_canon | apply State.advance_canon | apply canonN_next
    | dsimp only | split

theorem execTld_canon (f : Fields) (s : State) (h : s.Canon) :
    CanonN (execTld f s) := by
  unfold execTld
  repeat' first
    | with_reducible first
        | assumption | intro _ | apply issue_canon | apply State.withTile_canon | apply State.readTile_canon
        | apply State.addOp_canon | apply State.advance_canon | apply State.raiseLanes_canon | apply canonN_next
    | dsimp only

theorem execTst_canon (f : Fields) (s : State) (h : s.Canon) :
    CanonN (execTst f s) := by
  unfold execTst
  repeat' first
    | with_reducible first
        | assumption | intro _ | apply issue_canon | apply State.withTile_canon | apply State.fillTile_canon
        | apply State.raiseCv_canon | apply State.setTile_canon | apply State.addOp_canon | apply State.advance_canon
        | apply canonN_next
    | dsimp only | split

theorem State.landTst_canon (s : State) (o : Op) (t : Nat) (h : s.Canon) :
    (State.landTst s o t).Canon := by
  unfold State.landTst
  repeat' first
    | with_reducible first
        | assumption | intro _ | apply State.setStoreByte_canon | apply State.setTile_canon | apply foldl_canon
        | apply foldl_fst_canon | apply canon_fst (by assumption) | apply canon_snd (by assumption)
    | dsimp only | split

/-! ## Copy -/

theorem State.arriveAt_canon (s : State) (bar : Option (Nat × Nat × Nat × Nat)) (n : Nat) (h : s.Canon) :
    (State.arriveAt s bar n).Canon := by
  unfold State.arriveAt
  repeat' first
    | with_reducible first
        | assumption | apply State.arrive_canon | apply canon_fst (by assumption) | apply canon_snd (by assumption)
        | apply canon_some (by assumption)
    | dsimp only | split

theorem State.copyAccess_canon (s : State) (o : Op) (key : Nat) (va : W64) (n : Nat) (act : Act) (h : s.Canon) :
    (State.copyAccess s o key va n act).1.Canon := by
  unfold State.copyAccess
  repeat' first
    | with_reducible first
        | assumption | intro _ | apply State.checkedAccess_canon | apply canon_fst (by assumption)
        | apply canon_snd (by assumption) | apply canon_some (by assumption)
    | dsimp only | split

theorem State.copyLand_canon (s : State) (o : Op) (c : Copy) (x : Nat) (h : s.Canon) :
    (State.copyLand s o c x).Canon := by
  unfold State.copyLand
  repeat' first
    | with_reducible first
        | assumption | apply State.tilePut_canon | apply State.setTile_canon | apply State.landWord_canon
        | apply State.setCv_canon | apply canon_fst (by assumption) | apply canon_snd (by assumption)
    | dsimp only | split

theorem State.copyBad_canon (s : State) (o : Op) (c : Copy) (h : s.Canon) :
    (State.copyBad s o c).Canon := by
  unfold State.copyBad
  repeat' first
    | with_reducible first
        | assumption | apply State.setTile_canon | apply canon_fst (by assumption) | apply canon_snd (by assumption)
    | dsimp only | split

theorem State.copyOne_canon (s : State) (o : Op) (c : Copy) (h : s.Canon) :
    (State.copyOne s o c).1.Canon := by
  unfold State.copyOne
  repeat' first
    | with_reducible first
        | assumption | apply State.copyAccess_canon | apply State.copyBad_canon | apply State.copyLand_canon
        | apply canon_fst (by assumption) | apply canon_snd (by assumption) | apply canon_some (by assumption)
    | dsimp only | split

theorem State.setCopy_canon (s : State) (id : Nat) (g : Op → Copy → Op) (h : s.Canon) :
    (State.setCopy s id g).Canon := by
  unfold State.setCopy
  repeat' first
    | with_reducible first
        | assumption | intro _ | apply State.setOp_canon | apply canon_fst (by assumption) | apply canon_snd (by assumption)
        | apply canon_some (by assumption) | apply canon_id
    | dsimp only | split

theorem State.engineCause_canon (s : State) (o : Op) (dpc : Option W64) (m : Caravan → Mask) (c : LaneCause) (va : W64)
    (h : s.Canon) :
    (State.engineCause s o dpc m c va).Canon := by
  unfold State.engineCause
  repeat' first
    | with_reducible first
        | assumption | intro _ | apply State.sliceTrapAt_canon | apply State.raiseAll_canon | apply State.settle_canon
    | dsimp only | split

theorem State.endCopy_canon (s : State) (o : Op) (c : Copy) (dpc : Option W64) (fail : Option (LaneCause × W64)) (h : s.Canon) :
    (State.endCopy s o c dpc fail).Canon := by
  unfold State.endCopy
  repeat' first
    | with_reducible first
        | assumption | intro _ | apply Served.fail_canon | apply State.setTile_canon | apply State.tileSent_canon
        | apply State.finishOp_canon | apply State.engineCause_canon | apply State.drainFifo_canon | apply State.arriveAt_canon
        | apply canon_fst (by assumption) | apply canon_snd (by assumption) | apply canon_some (by assumption)
    | dsimp only | split

theorem State.endLast_canon (s : State) (fail : Option (LaneCause × W64)) (h : s.Canon) :
    (State.endLast s fail).Canon := by
  unfold State.endLast
  repeat' first
    | with_reducible first
        | assumption | apply State.endCopy_canon | apply Served.fail_canon | apply canon_fst (by assumption)
        | apply canon_snd (by assumption) | apply canon_some (by assumption)
    | dsimp only | split

theorem State.pendAt_canon (s : State) (o : Op) (c : Copy) (h : s.Canon) :
    (State.pendAt s o c).Canon := by
  unfold State.pendAt
  repeat' first
    | with_reducible first
        | assumption | apply State.setTile_canon | apply canon_fst (by assumption) | apply canon_snd (by assumption)
    | dsimp only | split

theorem State.parkEngine_canon (s : State) (o : Op) (kind : Nat) (pc : W64) (akind va level : Nat) (what : ParkWhat)
    (h : s.Canon) :
    (State.parkEngine s o kind pc akind va level what).Canon := by
  unfold State.parkEngine
  repeat' first
    | with_reducible first
        | assumption | apply State.postFaults_canon | apply State.setOp_canon | apply canon_fst (by assumption)
        | apply canon_snd (by assumption) | apply canon_id
    | dsimp only | split

theorem State.copyRun_canon (s : State) (id : Nat) (e0 : Nat) (h : s.Canon) :
    (State.copyRun s id e0).Canon := by
  induction e0 generalizing s id with
  | zero =>
    unfold State.copyRun
    repeat' first
      | with_reducible first
          | assumption | apply State.copyOne_canon | apply State.setOp_canon | apply State.sendRequests_canon
          | apply State.endCopy_canon | apply State.pendAt_canon | apply State.parkEngine_canon
          | apply canon_fst (by assumption) | apply canon_snd (by assumption) | apply canon_some (by assumption)
          | apply canon_id
      | dsimp only | split
  | succ _ ih =>
    unfold State.copyRun
    repeat' first
      | with_reducible first
          | assumption | apply ih | apply State.copyOne_canon | apply State.setOp_canon | apply State.sendRequests_canon
          | apply State.endCopy_canon | apply State.pendAt_canon | apply State.parkEngine_canon
          | apply canon_fst (by assumption) | apply canon_snd (by assumption) | apply canon_some (by assumption)
          | apply canon_id
      | dsimp only | split

theorem State.withArrival_canon (s : State) (bv : Bool) (b : Nat) (go : Option (Nat × Nat × Nat × Nat) → State) (h : s.Canon)
    (hgo : ∀ y0, (go y0).Canon) :
    (State.withArrival s bv b go).Canon := by
  unfold State.withArrival
  repeat' first
    | with_reducible first
        | assumption | intro _ | apply State.raiseCv_canon | apply canon_fst (by assumption) | apply canon_snd (by assumption)
        | apply canon_some (by assumption) | apply hgo
    | dsimp only | split

theorem State.withCopyBar_canon (s : State) (f : Fields) (go : Option (Nat × Nat × Nat × Nat) → State) (h : s.Canon)
    (hgo : ∀ y0, (go y0).Canon) :
    (State.withCopyBar s f go).Canon := by
  unfold State.withCopyBar
  repeat' first | with_reducible (first | assumption | intro _ | apply State.withArrival_canon | apply hgo) | dsimp only

theorem execCpl_canon (f : Fields) (s : State) (h : s.Canon) :
    CanonN (execCpl f s) := by
  unfold execCpl
  repeat' first
    | with_reducible first
        | assumption | intro _ | apply issue_canon | apply State.withCopyBar_canon | apply State.raiseCv_canon
        | apply State.addOp_canon | apply State.advance_canon | apply State.endLast_canon | apply canonN_next
    | dsimp only | split

theorem State.boxCopy_canon (s : State) (f : Fields) (t : Nat) (x : Tile) (begun : Nat → Tile) (bar : Option
    (Nat × Nat × Nat × Nat)) (kind : W64 → List Nat → List Int → CopyKind) (h : s.Canon) :
    (State.boxCopy s f t x begun bar kind).Canon := by
  unfold State.boxCopy
  repeat' first
    | with_reducible first
        | assumption | intro _ | apply State.raiseCv_canon | apply State.setTile_canon | apply State.addOp_canon
        | apply State.advance_canon | apply State.endLast_canon | apply canon_fst (by assumption)
        | apply canon_snd (by assumption) | apply canon_some (by assumption)
    | dsimp only | split

theorem execCpt_canon (f : Fields) (s : State) (h : s.Canon) :
    CanonN (execCpt f s) := by
  unfold execCpt
  repeat' first
    | with_reducible first
        | assumption | intro _ | apply issue_canon | apply State.withTile_canon | apply State.withCopyBar_canon
        | apply State.fillTile_canon | apply State.boxCopy_canon | apply canonN_next
    | dsimp only

theorem execCpo_canon (f : Fields) (s : State) (h : s.Canon) :
    CanonN (execCpo f s) := by
  unfold execCpo
  repeat' first
    | with_reducible first
        | assumption | intro _ | apply issue_canon | apply State.withTile_canon | apply State.withCopyBar_canon
        | apply State.sendTile_canon | apply State.boxCopy_canon | apply State.send_canon | apply canonN_next
    | dsimp only

theorem State.cpqReserve_canon (s : State) (id : Nat) (h : s.Canon) :
    (State.cpqReserve s id).Canon := by
  unfold State.cpqReserve
  repeat' first
    | with_reducible first
        | assumption | intro _ | apply State.reserveSlot_canon | apply State.setOp_canon | apply State.advance_canon
        | apply State.block_canon | apply foldl_canon | apply foldl_fst_canon | apply canon_fst (by assumption)
        | apply canon_snd (by assumption) | apply canon_some (by assumption) | apply canon_id | apply foldl_served_canon
    | dsimp only | split

theorem execCpq_canon (f : Fields) (s : State) (h : s.Canon) :
    CanonN (execCpq f s) := by
  unfold execCpq
  repeat' first
    | with_reducible first
        | assumption | intro _ | apply issue_canon | apply State.advance_canon | apply State.cpqReserve_canon
        | apply State.raiseCv_canon | apply State.raiseEvery_canon | apply State.addOp_canon | apply State.finishLast_canon
        | apply canon_fst (by assumption) | apply canon_snd (by assumption) | apply canon_some (by assumption) | apply canon_id
        | apply canonN_next
    | dsimp only | split

theorem execQclose_canon (f : Fields) (s : State) (h : s.Canon) :
    CanonN (execQclose f s) := by
  unfold execQclose
  repeat' first
    | with_reducible first
        | assumption | intro _ | apply issue_canon | apply State.setQueueOf_canon | apply State.advance_canon
        | apply canonN_next
    | dsimp only

theorem execQstat_canon (f : Fields) (s : State) (h : s.Canon) :
    CanonN (execQstat f s) := by
  unfold execQstat
  repeat' first
    | with_reducible first
        | assumption | intro _ | apply issue_canon | apply State.setS_canon | apply State.advance_canon | apply canonN_next
    | dsimp only

theorem State.setSlice_canon (s : State) (x : Slice) (h : s.Canon) :
    (State.setSlice s x).Canon := by
  unfold State.setSlice
  repeat' first | with_reducible (first | assumption | apply State.setMe_canon) | dsimp only

theorem execAfor_canon (f : Fields) (s : State) (h : s.Canon) :
    CanonN (execAfor f s) := by
  unfold execAfor
  repeat' first
    | with_reducible first
        | assumption | intro _ | apply issue_canon | apply State.setPc_canon | apply State.raiseCv_canon
        | apply State.setSlice_canon | apply State.advance_canon | apply canonN_next
    | dsimp only | split

theorem execAend_canon (f : Fields) (s : State) (h : s.Canon) :
    CanonN (execAend f s) := by
  unfold execAend
  repeat' first
    | with_reducible first
        | assumption | intro _ | apply issue_canon | apply State.raiseCv_canon | apply State.setS_canon
        | apply State.setSlice_canon | apply State.setPc_canon | apply State.advance_canon | apply canon_fst (by assumption)
        | apply canon_snd (by assumption) | apply canon_some (by assumption) | apply canonN_next
    | dsimp only | split

theorem execQpush_canon (f : Fields) (s : State) (h : s.Canon) :
    CanonN (execQpush f s) := by
  unfold execQpush
  repeat' first
    | with_reducible first
        | assumption | intro _ | apply issue_canon | apply State.advance_canon | apply State.block_canon
        | apply State.reserveSlot_canon | apply State.landWord_canon | apply foldl_canon | apply foldl_fst_canon
        | apply canon_fst (by assumption) | apply canon_snd (by assumption) | apply foldl_served_canon | apply canonN_next
    | dsimp only | split

theorem execAwait_canon (f : Fields) (s : State) (h : s.Canon) :
    CanonN (execAwait f s) := by
  unfold execAwait
  repeat' first
    | with_reducible first
        | assumption | intro _ | apply issue_canon | apply State.withTile_canon | apply State.advance_canon
        | apply State.block_canon | apply canonN_next
    | dsimp only | split

/-! ## Matrix -/

theorem accStore_canon (m : Memory) (k : Nat) (gs : List Nat) (x : Nat) (e0 : Nat) (e1 : Nat) (h : Memory.wf m = true) :
    Memory.wf (accStore m k gs x e0 e1) = true := by
  induction e0 generalizing m k gs x e1 with
  | zero =>
    unfold accStore
    repeat' first
      | with_reducible first
          | assumption | apply filter_keeps_wf | apply foldl_keeps_wf | apply mstore_keeps_wf | apply mset_keeps_wf
          | apply mzero_keeps_wf
      | dsimp only
  | succ _ ih =>
    unfold accStore
    repeat' first
      | with_reducible first
          | assumption | apply ih | apply filter_keeps_wf | apply foldl_keeps_wf | apply mstore_keeps_wf | apply mset_keeps_wf
          | apply mzero_keeps_wf
      | dsimp only

theorem State.setHdr_canon (s : State) (k : Nat) (p : Nat × Nat) (z : Nat) (g : W64 → W64) (h : s.Canon) :
    (State.setHdr s k p z g).Canon := by
  unfold State.setHdr
  repeat' first | with_reducible (first | assumption | intro _ | apply State.setCore_canon) | dsimp only | split

theorem State.mxIssue_canon (s : State) (i : Instr) (f : Fields) (h : s.Canon) :
    (State.mxIssue s i f).Canon := by
  unfold State.mxIssue
  repeat' first
    | with_reducible first
        | assumption | intro _ | apply State.raiseCv_canon | apply State.addOp_canon | apply State.advance_canon
        | apply State.block_canon | apply State.raiseTile_canon | apply State.fillTile_canon | apply State.setTile_canon
        | apply canon_fst (by assumption) | apply canon_snd (by assumption) | apply canon_some (by assumption)
    | dsimp only | split

theorem execMma_canon (f : Fields) (s : State) (h : s.Canon) :
    CanonN (execMma f s) := by
  unfold execMma
  repeat' first
    | with_reducible first
        | assumption | intro _ | apply issue_canon | apply State.mxIssue_canon | apply canonN_next
    | dsimp only

theorem execMmas_canon (f : Fields) (s : State) (h : s.Canon) :
    CanonN (execMmas f s) := by
  unfold execMmas
  repeat' first
    | with_reducible first
        | assumption | intro _ | apply issue_canon | apply State.mxIssue_canon | apply canonN_next
    | dsimp only

theorem execMmx_canon (f : Fields) (s : State) (h : s.Canon) :
    CanonN (execMmx f s) := by
  unfold execMmx
  repeat' first
    | with_reducible first
        | assumption | intro _ | apply issue_canon | apply State.mxIssue_canon | apply canonN_next
    | dsimp only

theorem execMsca_canon (f : Fields) (s : State) (h : s.Canon) :
    CanonN (execMsca f s) := by
  unfold execMsca
  repeat' first
    | with_reducible first
        | assumption | intro _ | apply issue_canon | apply State.mxIssue_canon | apply canonN_next
    | dsimp only

theorem execMsl_canon (f : Fields) (s : State) (h : s.Canon) :
    CanonN (execMsl f s) := by
  unfold execMsl
  repeat' first
    | with_reducible first
        | assumption | intro _ | apply issue_canon | apply State.mxIssue_canon | apply canonN_next
    | dsimp only

theorem execMzero_canon (f : Fields) (s : State) (h : s.Canon) :
    CanonN (execMzero f s) := by
  unfold execMzero
  repeat' first
    | with_reducible first
        | assumption | intro _ | apply issue_canon | apply State.mxIssue_canon | apply canonN_next
    | dsimp only

theorem execMlda_canon (f : Fields) (s : State) (h : s.Canon) :
    CanonN (execMlda f s) := by
  unfold execMlda
  repeat' first
    | with_reducible first
        | assumption | intro _ | apply issue_canon | apply State.mxIssue_canon | apply canonN_next
    | dsimp only

theorem execMcvt_canon (f : Fields) (s : State) (h : s.Canon) :
    CanonN (execMcvt f s) := by
  unfold execMcvt
  repeat' first
    | with_reducible first
        | assumption | intro _ | apply issue_canon | apply State.mxIssue_canon | apply canonN_next
    | dsimp only

theorem execMstat_canon (f : Fields) (s : State) (h : s.Canon) :
    CanonN (execMstat f s) := by
  unfold execMstat
  repeat' first
    | with_reducible first
        | assumption | intro _ | apply issue_canon | apply State.setS_canon | apply State.advance_canon
        | apply canon_fst (by assumption) | apply canon_snd (by assumption) | apply canon_some (by assumption)
        | apply canonN_next
    | dsimp only | split

theorem State.mxHeader_canon (s : State) (o : Op) (m : MxOp) (h : s.Canon) :
    (State.mxHeader s o m).Canon := by
  unfold State.mxHeader
  repeat' first | with_reducible (first | assumption | intro _ | apply State.setHdr_canon) | dsimp only | split

theorem execMatrixStart_canon (op : Nat) (s : State) (h : s.Canon) :
    CanonN (execMatrixStart op s) := by
  unfold execMatrixStart
  repeat' first
    | with_reducible first
        | assumption | intro _ | apply mstore_keeps_wf | apply mset_keeps_wf | apply mzero_keeps_wf | apply foldl_keeps_wf
        | apply filter_keeps_wf | apply foldl_fst_wf | apply wf_fst (by assumption) | apply State.setOp_canon
        | apply State.mxHeader_canon | apply accStore_canon | apply foldl_canon | apply foldl_fst_canon
        | apply canon_fst (by assumption) | apply canon_snd (by assumption) | apply canon_some (by assumption) | apply canon_id
        | apply canonN_next
    | dsimp only | split

theorem execMulticastRound_canon (die cluster mask tile : Nat) (s : State) (h : s.Canon) :
    CanonN (execMulticastRound die cluster mask tile s) := by
  unfold execMulticastRound
  repeat' first
    | with_reducible first
        | assumption | intro _ | apply State.setOp_canon | apply foldl_canon | apply foldl_fst_canon
        | apply canon_fst (by assumption) | apply canon_snd (by assumption) | apply canon_some (by assumption)
        | apply canonN_next
    | dsimp only | split

theorem State.streamRead_canon (s : State) (o : Op) (ty : Nat) (base pitch : W64) (e0 : List Nat) (h : s.Canon) :
    (State.streamRead s o ty base pitch e0).1.Canon := by
  induction e0 generalizing s o ty base pitch with
  | nil =>
    unfold State.streamRead
    repeat' first
      | with_reducible first
          | assumption | intro _ | apply State.checkedAccess_canon | apply canon_fst (by assumption)
          | apply canon_snd (by assumption) | apply canon_some (by assumption)
      | dsimp only | split
  | cons _ _ ih =>
    unfold State.streamRead
    repeat' first
      | with_reducible first
          | assumption | apply ih | intro _ | apply State.checkedAccess_canon | apply canon_fst (by assumption)
          | apply canon_snd (by assumption) | apply canon_some (by assumption)
      | dsimp only | split

theorem State.rowsOfB_canon (s : State) (o : Op) (m : MxOp) (lo n : Nat) (h : s.Canon) :
    (State.rowsOfB s o m lo n).1.Canon := by
  unfold State.rowsOfB
  repeat' first
    | with_reducible first
        | assumption | intro _ | apply State.streamRead_canon | apply canon_fst (by assumption)
        | apply canon_snd (by assumption)
    | dsimp only | split

theorem macStep_canon (s : State) (o : Op) (m : MxOp) (rows : Nat → List (Int × Flag)) (b : Nat → Nat → Nat) (h : s.Canon) :
    (macStep s o m rows b).1.Canon := by
  unfold macStep
  repeat' first
    | with_reducible first
        | assumption | intro _ | apply mstore_keeps_wf | apply mset_keeps_wf | apply mzero_keeps_wf | apply foldl_keeps_wf
        | apply filter_keeps_wf | apply foldl_fst_wf | apply wf_fst (by assumption) | apply accStore_canon | apply foldl_canon
        | apply foldl_fst_canon | apply canon_fst (by assumption) | apply canon_snd (by assumption)
    | dsimp only | split

theorem mmxPartials_canon (s : State) (o : Op) (m : MxOp) (b : Nat → Nat → Nat) (h : s.Canon) :
    (mmxPartials s o m b).1.Canon := by
  unfold mmxPartials
  repeat' first
    | with_reducible first
        | assumption | intro _ | apply mstore_keeps_wf | apply mset_keeps_wf | apply mzero_keeps_wf | apply foldl_keeps_wf
        | apply filter_keeps_wf | apply foldl_fst_wf | apply wf_fst (by assumption) | apply accStore_canon | apply foldl_canon
        | apply foldl_fst_canon | apply canon_fst (by assumption) | apply canon_snd (by assumption)
    | dsimp only | split

theorem mscaOut_canon (s : State) (o : Op) (m : MxOp) (a : Memory × Flag) (x : Nat) (ha : Memory.wf a.1 = true) :
    Memory.wf (mscaOut s o m a x).1 = true := by
  unfold mscaOut
  repeat' first | with_reducible (first | assumption | intro _ | apply accStore_canon) | dsimp only

theorem mscaAll_canon (s : State) (o : Op) (m : MxOp) (h : s.Canon) :
    (mscaAll s o m).1.Canon := by
  unfold mscaAll
  repeat' first
    | with_reducible first
        | assumption | intro _ | apply mstore_keeps_wf | apply mset_keeps_wf | apply mzero_keeps_wf | apply foldl_keeps_wf
        | apply filter_keeps_wf | apply foldl_fst_wf | apply wf_fst (by assumption) | apply mscaOut_canon | apply foldl_canon
        | apply foldl_fst_canon | apply canon_fst (by assumption) | apply canon_snd (by assumption)
    | dsimp only | split

theorem mzeroAll_canon (s : State) (o : Op) (m : MxOp) (h : s.Canon) :
    (mzeroAll s o m).Canon := by
  unfold mzeroAll
  repeat' first
    | with_reducible first
        | assumption | intro _ | apply mstore_keeps_wf | apply mset_keeps_wf | apply mzero_keeps_wf | apply foldl_keeps_wf
        | apply filter_keeps_wf | apply foldl_fst_wf | apply wf_fst (by assumption) | apply foldl_canon | apply foldl_fst_canon
        | apply canon_fst (by assumption) | apply canon_snd (by assumption)
    | dsimp only | split

theorem mldaAll_canon (s : State) (o : Op) (m : MxOp) (h : s.Canon) :
    (mldaAll s o m).1.Canon := by
  unfold mldaAll
  repeat' first
    | with_reducible first
        | assumption | intro _ | apply mstore_keeps_wf | apply mset_keeps_wf | apply mzero_keeps_wf | apply foldl_keeps_wf
        | apply filter_keeps_wf | apply foldl_fst_wf | apply wf_fst (by assumption) | apply accStore_canon | apply foldl_canon
        | apply foldl_fst_canon | apply canon_fst (by assumption) | apply canon_snd (by assumption)
    | dsimp only | split

theorem mcvtAll_canon (s : State) (o : Op) (m : MxOp) (h : s.Canon) :
    (mcvtAll s o m).1.Canon := by
  unfold mcvtAll
  repeat' first
    | with_reducible first
        | assumption | intro _ | apply State.tilePut_canon | apply State.setTile_canon | apply foldl_canon
        | apply foldl_fst_canon | apply canon_fst (by assumption) | apply canon_snd (by assumption)
    | dsimp only | split

theorem sliceStep_canon (s : State) (o : Op) (m : MxOp) (as_ bs : List Split) (step : Nat) (h : s.Canon) :
    (sliceStep s o m as_ bs step).Canon := by
  unfold sliceStep
  repeat' first
    | with_reducible first
        | assumption | intro _ | apply mstore_keeps_wf | apply mset_keeps_wf | apply mzero_keeps_wf | apply foldl_keeps_wf
        | apply filter_keeps_wf | apply foldl_fst_wf | apply wf_fst (by assumption) | apply accStore_canon | apply foldl_canon
        | apply foldl_fst_canon | apply canon_fst (by assumption) | apply canon_snd (by assumption) | apply canon_getD
    | dsimp only | split

theorem sliceEnd_canon (s : State) (o : Op) (m : MxOp) (as_ bs : List Split) (h : s.Canon) :
    (sliceEnd s o m as_ bs).1.Canon := by
  unfold sliceEnd
  repeat' first
    | with_reducible first
        | assumption | intro _ | apply mstore_keeps_wf | apply mset_keeps_wf | apply mzero_keeps_wf | apply foldl_keeps_wf
        | apply filter_keeps_wf | apply foldl_fst_wf | apply wf_fst (by assumption) | apply accStore_canon | apply foldl_canon
        | apply foldl_fst_canon | apply canon_fst (by assumption) | apply canon_snd (by assumption)
    | dsimp only | split

theorem State.recordStop_canon (s : State) (o : Op) (m : MxOp) (h : s.Canon) :
    (State.recordStop s o m).Canon := by
  unfold State.recordStop
  repeat' first | with_reducible (first | assumption | apply State.mxHeader_canon | apply State.setCv_canon) | dsimp only

theorem State.mxStopped_canon (s : State) (o : Op) (m : MxOp) (x : MxStop) (h : s.Canon) :
    (State.mxStopped s o m x).Canon := by
  unfold State.mxStopped
  repeat' first
    | with_reducible first
        | assumption | intro _ | apply State.setOp_canon | apply State.sendRequests_canon | apply State.recordStop_canon
        | apply State.finishOp_canon | apply State.engineCause_canon | apply State.parkEngine_canon
        | apply canon_fst (by assumption) | apply canon_snd (by assumption) | apply canon_id
    | dsimp only | split

theorem State.mxDone_canon (s : State) (o : Op) (m : MxOp) (fl : Flag) (h : s.Canon) :
    (State.mxDone s o m fl).Canon := by
  unfold State.mxDone
  repeat' first
    | with_reducible first
        | assumption | intro _ | apply State.setHdr_canon | apply State.setCv_canon | apply State.finishOp_canon
        | apply canon_fst (by assumption) | apply canon_snd (by assumption)
    | dsimp only | split

theorem State.kStep_canon (s : State) (o : Op) (m : MxOp) (h : s.Canon) :
    (State.kStep s o m).1.Canon := by
  unfold State.kStep
  repeat' first
    | with_reducible first
        | assumption | intro _ | apply State.fresh_canon | apply State.rowsOfB_canon | apply macStep_canon
        | apply State.setCv_canon | apply foldl_canon | apply foldl_fst_canon | apply canon_fst (by assumption)
        | apply canon_snd (by assumption)
    | dsimp only | split

theorem State.macRun_canon (s : State) (id : Nat) (e0 : Nat) (h : s.Canon) :
    (State.macRun s id e0).Canon := by
  induction e0 generalizing s id with
  | zero =>
    unfold State.macRun
    repeat' first
      | with_reducible first
          | assumption | apply State.kStep_canon | apply State.mxStopped_canon | apply State.mxDone_canon
          | apply State.setOp_canon | apply State.mxHeader_canon | apply canon_fst (by assumption)
          | apply canon_snd (by assumption) | apply canon_some (by assumption) | apply canon_id
      | dsimp only | split
  | succ _ ih =>
    unfold State.macRun
    repeat' first
      | with_reducible first
          | assumption | apply ih | apply State.kStep_canon | apply State.mxStopped_canon | apply State.mxDone_canon
          | apply State.setOp_canon | apply State.mxHeader_canon | apply canon_fst (by assumption)
          | apply canon_snd (by assumption) | apply canon_some (by assumption) | apply canon_id
      | dsimp only | split

theorem State.sliceRun_canon (s : State) (o : Op) (m : MxOp) (n : Nat) (h : s.Canon) :
    (State.sliceRun s o m n).Canon := by
  unfold State.sliceRun
  repeat' first
    | with_reducible first
        | assumption | intro _ | apply State.rowsOfB_canon | apply State.mxStopped_canon | apply sliceStep_canon
        | apply sliceEnd_canon | apply State.mxDone_canon | apply State.setOp_canon | apply State.mxHeader_canon
        | apply foldl_canon | apply foldl_fst_canon | apply canon_fst (by assumption) | apply canon_snd (by assumption)
    | dsimp only | split

theorem State.mxRun_canon (s : State) (o : Op) (m : MxOp) (n : Nat) (h : s.Canon) :
    (State.mxRun s o m n).Canon := by
  unfold State.mxRun
  repeat' first
    | with_reducible first
        | assumption | intro _ | apply State.macRun_canon | apply State.sliceRun_canon | apply mmxPartials_canon
        | apply State.mxDone_canon | apply mscaAll_canon | apply mzeroAll_canon | apply mldaAll_canon | apply mcvtAll_canon
        | apply canon_fst (by assumption) | apply canon_snd (by assumption) | apply canon_id
    | dsimp only | split

theorem execMatrixComplete_canon (op : Nat) (s : State) (h : s.Canon) :
    CanonN (execMatrixComplete op s) := by
  unfold execMatrixComplete
  repeat' first
    | with_reducible first
        | assumption | apply State.mxRun_canon | apply canon_fst (by assumption) | apply canon_snd (by assumption)
        | apply canon_some (by assumption) | apply canonN_next
    | dsimp only | split

theorem execMatrixStop_canon (op : Nat) (s : State) (h : s.Canon) :
    CanonN (execMatrixStop op s) := by
  unfold execMatrixStop
  repeat' first
    | with_reducible first
        | assumption | apply State.fresh_canon | apply State.mxRun_canon | apply State.recordStop_canon
        | apply State.setOp_canon | apply canon_fst (by assumption) | apply canon_snd (by assumption)
        | apply canon_some (by assumption) | apply canonN_next
    | dsimp only | split

/-! ## Fetch -/

theorem State.dropFetch_canon (s : State) (h : s.Canon) :
    (State.dropFetch s).Canon := by
  unfold State.dropFetch
  repeat' first | with_reducible (first | assumption | intro _) | dsimp only

theorem State.parkFetch_canon (s : State) (va level : Nat) (h : s.Canon) :
    (State.parkFetch s va level).Canon := by
  unfold State.parkFetch
  repeat' first
    | with_reducible first
        | assumption | intro _ | apply State.parkSlice_canon | apply State.parkCaravan_canon
    | dsimp only | split

theorem State.fetch_canon (s : State) (h : s.Canon) :
    (State.fetch s).1.Canon := by
  unfold State.fetch
  repeat' first
    | with_reducible first
        | assumption | apply State.dropOp_canon | apply State.dropFetch_canon | apply serve_canon
        | apply State.raiseEvery_canon | apply State.settle_canon | apply State.parkFetch_canon
        | apply State.sendRequests_canon | apply canon_fst (by assumption) | apply canon_snd (by assumption)
        | apply canon_some (by assumption) | apply canon_id
    | dsimp only | split

theorem State.noteIssue_canon (s : State) (k n : Nat) (el : List Nat) (h : s.Canon) :
    (State.noteIssue s k n el).Canon := by
  unfold State.noteIssue
  repeat' first
    | with_reducible first
        | assumption | intro _ | apply State.setCv_canon | apply foldl_canon | apply foldl_fst_canon
        | apply canon_fst (by assumption) | apply canon_snd (by assumption)
    | dsimp only | split

theorem State.takeTurn_canon (s : State) (k : Nat) (slice : Bool) (h : s.Canon) :
    CanonO (State.takeTurn s k slice) := by
  unfold State.takeTurn
  repeat' first
    | with_reducible first
        | assumption | apply State.setCore_canon | apply State.fetch_canon | apply State.noteIssue_canon
        | apply canon_fst (by assumption) | apply canon_snd (by assumption) | apply canon_some (by assumption)
        | apply canonO_none | apply canonO_some
    | dsimp only | split

theorem State.nextTurn_canon (s : State) (h : s.Canon) :
    CanonO (State.nextTurn s) := by
  unfold State.nextTurn
  repeat' first
    | with_reducible first
        | assumption | intro _ | apply State.takeTurn_canon | apply canon_fst (by assumption) | apply canon_snd (by assumption)
        | apply canonO_findSome | apply canonO_none | apply canonO_some
    | dsimp only | split

theorem exWordRun_canon (exec : Instr → State → Outcome State Fault Refusal) (w : W32) (s : State)
    (hexec : ∀ y x, x.Canon → CanonN (exec y x)) (h : s.Canon) :
    CanonN (exWordRun exec w s) := by
  unfold exWordRun
  repeat' first
    | with_reducible first
        | assumption | intro _ | apply State.exFault_canon | apply canon_fst (by assumption) | apply canon_snd (by assumption)
        | apply hexec | apply canonN_next
    | dsimp only | split

theorem State.placeWord_canon (s : State) (nbits w : Nat) (h : s.Canon) :
    (State.placeWord s nbits w).Canon := by
  unfold State.placeWord
  repeat' first
    | with_reducible first
        | assumption | apply State.setChan_canon | apply State.setExecutor_canon | apply State.setCtx_canon
        | apply State.setCore_canon | apply State.setCv_canon | apply canon_some (by assumption)
    | dsimp only | split

/-! ## Serve -/

theorem State.asAgent_canon (s : State) (a : Agent) (f : State → State) (h : s.Canon) (hf : ∀ x, x.Canon → (f x).Canon) :
    (State.asAgent s a f).Canon := by
  unfold State.asAgent
  repeat' first | with_reducible (first | assumption | intro _ | apply hf) | dsimp only

theorem State.deliver_canon (s : State) (o : Op) (h : s.Canon) :
    (State.deliver s o).Canon := by
  unfold State.deliver
  repeat' first
    | with_reducible first
        | assumption | intro _ | apply State.setCv_canon | apply State.asAgent_canon | apply State.setS_canon
        | apply State.landWord_canon | apply State.landTst_canon | apply foldl_canon | apply foldl_fst_canon
        | apply canon_fst (by assumption) | apply canon_snd (by assumption)
    | dsimp only | split

theorem State.syncDone_canon (s : State) (o : Op) (h : s.Canon) :
    (State.syncDone s o).Canon := by
  unfold State.syncDone
  repeat' first
    | with_reducible first
        | assumption | intro _ | apply State.deliver_canon | apply State.dropOp_canon | apply State.setCv_canon
        | apply State.asAgent_canon | apply State.acquire_canon | apply canon_fst (by assumption)
        | apply canon_snd (by assumption) | apply canon_id
    | dsimp only | split

theorem State.nowServed_canon (s : State) (id : Nat) (h : s.Canon) :
    (State.nowServed s id).Canon := by
  unfold State.nowServed
  repeat' first
    | with_reducible first
        | assumption | intro _ | apply State.syncDone_canon | apply State.setCv_canon | apply State.asAgent_canon
        | apply State.acquire_canon | apply canon_fst (by assumption) | apply canon_snd (by assumption)
        | apply canon_some (by assumption) | apply canon_id
    | dsimp only | split

theorem State.serveOp_canon (s : State) (o : Op) (rs : List Req) (h : s.Canon) :
    (State.serveOp s o rs).Canon := by
  unfold State.serveOp
  repeat' first
    | with_reducible first
        | assumption | intro _ | apply State.fetch_canon | apply State.dropOp_canon | apply serve_canon
        | apply State.setOp_canon | apply State.sendRequests_canon | apply State.asAgent_canon | apply State.raiseEvery_canon
        | apply State.settle_canon | apply State.parkFetch_canon | apply State.afterServe_canon | apply State.nowServed_canon
        | apply canon_fst (by assumption) | apply canon_snd (by assumption) | apply canon_id
    | dsimp only | split

theorem State.commandFlush_canon (s : State) (ch : Nat) (rel : Bool) (h : s.Canon) :
    (State.commandFlush s ch rel).1.Canon := by
  unfold State.commandFlush
  repeat' first | with_reducible (first | assumption | apply State.flushL2_canon) | dsimp only | split

theorem State.queueCommand_canon (s : State) (o : Op) (ch : Nat) (h : s.Canon) :
    (State.queueCommand s o ch).Canon := by
  unfold State.queueCommand
  repeat' first
    | with_reducible first
        | assumption | apply State.finishOp_canon | apply State.commandFlush_canon | apply State.setChan_canon
        | apply canon_fst (by assumption) | apply canon_snd (by assumption) | apply canon_id
    | dsimp only | split

theorem State.reply_canon (s : State) (o : Op) (h : s.Canon) :
    (State.reply s o).Canon := by
  unfold State.reply
  repeat' first
    | with_reducible first
        | assumption | apply State.syncDone_canon | apply State.deliver_canon | apply State.finishOp_canon
    | dsimp only | split

theorem execMemoryReply_canon (op : Nat) (s : State) (h : s.Canon) :
    CanonN (execMemoryReply op s) := by
  unfold execMemoryReply
  repeat' first
    | with_reducible first
        | assumption | apply State.reply_canon | apply canon_fst (by assumption) | apply canon_snd (by assumption)
        | apply canon_some (by assumption) | apply canonN_next
    | dsimp only | split

theorem execQueueEntryVisible_canon (core slot q : Nat) (s : State) (h : s.Canon) :
    CanonN (execQueueEntryVisible core slot q s) := by
  unfold execQueueEntryVisible
  repeat' first
    | with_reducible first
        | assumption | intro _ | apply State.reply_canon | apply canon_fst (by assumption) | apply canon_snd (by assumption)
        | apply canon_some (by assumption) | apply canonN_next
    | dsimp only | split

theorem execCopyBytesLand_canon (op : Nat) (s : State) (h : s.Canon) :
    CanonN (execCopyBytesLand op s) := by
  unfold execCopyBytesLand
  repeat' first
    | with_reducible first
        | assumption | apply State.copyRun_canon | apply canon_fst (by assumption) | apply canon_snd (by assumption)
        | apply canon_some (by assumption) | apply canonN_next
    | dsimp only | split

theorem execCopyComplete_canon (op : Nat) (s : State) (h : s.Canon) :
    CanonN (execCopyComplete op s) := by
  unfold execCopyComplete
  repeat' first
    | with_reducible first
        | assumption | apply State.endCopy_canon | apply canon_fst (by assumption) | apply canon_snd (by assumption)
        | apply canon_some (by assumption) | apply canonN_next
    | dsimp only | split

end Sys2Proof.Machine
end

