-- ==== Sys2Proof/Laws/CanonFabric.lean ====
section
/-! SUPPORT. Canonical memory is kept by the fabric, channels, control and system instructions. -/

set_option linter.unreachableTactic false
set_option linter.unusedTactic false

namespace Sys2Proof.Machine

open Host (Outcome)

/-! ## Fabric -/

theorem State.withNode_canon (s : State) (o : Operand) (go : BitVec 16 → BitVec 8 → State) (h : s.Canon) (hgo : ∀ y0 y1,
    (go y0 y1).Canon) :
    (State.withNode s o go).Canon := by
  unfold State.withNode
  repeat' first | with_reducible (first | assumption | intro _ | apply State.raiseCv_canon | apply hgo) | dsimp only | split

theorem State.remoteSend_canon (s : State) (id : Nat) (h : s.Canon) :
    (State.remoteSend s id).Canon := by
  unfold State.remoteSend
  repeat' first
    | with_reducible first
        | assumption | intro _ | apply State.setOp_canon | apply State.send_canon | apply foldl_canon | apply foldl_fst_canon
        | apply canon_fst (by assumption) | apply canon_snd (by assumption) | apply canon_some (by assumption) | apply canon_id
    | dsimp only | split

theorem State.remoteOp_canon (s : State) (f : Fields) (node : BitVec 16) (tctx : BitVec 8) (rd w : Nat) (sx returns : Bool)
    (act : Nat → Act) (h : s.Canon) :
    (State.remoteOp s f node tctx rd w sx returns act).Canon := by
  unfold State.remoteOp
  repeat' first
    | with_reducible first
        | assumption | intro _ | apply State.addOp_canon | apply State.remoteSend_canon | apply State.finishOp_canon
        | apply State.advance_canon | apply State.raiseLanes_canon | apply canon_fst (by assumption)
        | apply canon_snd (by assumption) | apply canon_some (by assumption)
    | dsimp only | split

theorem execRld_canon (f : Fields) (s : State) (h : s.Canon) :
    CanonN (execRld f s) := by
  unfold execRld
  repeat' first
    | with_reducible first
        | assumption | intro _ | apply issue_canon | apply State.withNode_canon | apply State.remoteOp_canon
        | apply canonN_next
    | dsimp only

theorem execRst_canon (f : Fields) (s : State) (h : s.Canon) :
    CanonN (execRst f s) := by
  unfold execRst
  repeat' first
    | with_reducible first
        | assumption | intro _ | apply issue_canon | apply State.withNode_canon | apply State.remoteOp_canon
        | apply canonN_next
    | dsimp only

theorem execRatom_canon (f : Fields) (s : State) (h : s.Canon) :
    CanonN (execRatom f s) := by
  unfold execRatom
  repeat' first
    | with_reducible first
        | assumption | intro _ | apply issue_canon | apply State.withNode_canon | apply State.strongStore_canon
        | apply State.remoteOp_canon | apply State.joinAcquire_canon | apply State.withRelease_canon | apply canonN_next
    | dsimp only | split

theorem State.blkSend_canon (s : State) (id : Nat) (h : s.Canon) :
    (State.blkSend s id).Canon := by
  unfold State.blkSend
  repeat' first
    | with_reducible first
        | assumption | intro _ | apply State.sendTile_canon | apply State.block_canon | apply State.send_canon
        | apply State.setOp_canon | apply foldl_canon | apply foldl_fst_canon | apply canon_fst (by assumption)
        | apply canon_snd (by assumption) | apply canon_some (by assumption) | apply canon_id
    | dsimp only | split | dsimp only [State.Canon]

theorem execRstBlk_canon (f : Fields) (s : State) (h : s.Canon) :
    CanonN (execRstBlk f s) := by
  unfold execRstBlk
  repeat' first
    | with_reducible first
        | assumption | intro _ | apply issue_canon | apply State.withNode_canon | apply State.withTile_canon
        | apply State.sendTile_canon | apply State.raiseCv_canon | apply State.setTile_canon | apply State.send_canon
        | apply State.addOp_canon | apply State.blkSend_canon | apply State.advance_canon | apply canon_id | apply canonN_next
    | dsimp only | split

theorem State.readRanks_canon (s : State) (c va : Nat) (e0 : Nat) (h : s.Canon) :
    (State.readRanks s c va e0).1.Canon := by
  induction e0 generalizing s c va with
  | zero =>
    unfold State.readRanks
    repeat' first
      | with_reducible first
          | assumption | apply State.devRead_canon | apply canon_fst (by assumption) | apply canon_snd (by assumption)
          | apply canon_some (by assumption)
      | dsimp only | split
  | succ _ ih =>
    unfold State.readRanks
    repeat' first
      | with_reducible first
          | assumption | apply ih | apply State.devRead_canon | apply canon_fst (by assumption)
          | apply canon_snd (by assumption) | apply canon_some (by assumption)
      | dsimp only | split

theorem State.readComm_canon (s : State) (c k : Nat) (h : s.Canon) :
    (State.readComm s c k).Canon := by
  unfold State.readComm
  repeat' first
    | with_reducible first
        | assumption | apply State.devReads_canon | apply State.setComm_canon | apply State.readRanks_canon
        | apply canon_fst (by assumption) | apply canon_snd (by assumption) | apply canon_some (by assumption)
    | dsimp only | split

theorem State.finishColl_canon (s : State) (c k inst : Nat) (h : s.Canon) :
    (State.finishColl s c k inst).Canon := by
  unfold State.finishColl
  repeat' first
    | with_reducible first
        | assumption | intro _ | apply State.finishOp_canon | apply foldl_canon | apply foldl_fst_canon
        | apply canon_fst (by assumption) | apply canon_snd (by assumption)
    | dsimp only | split

theorem State.endInstance_canon (s : State) (c k : Nat) (i : Instance) (err : Bool) (h : s.Canon) :
    (State.endInstance s c k i err).Canon := by
  unfold State.endInstance
  repeat' first
    | with_reducible first
        | assumption | apply State.setTile_canon | apply State.tileSent_canon | apply State.arriveAt_canon
        | apply State.finishColl_canon | apply canon_some (by assumption)
    | dsimp only | split

theorem State.failChunk_canon (s : State) (k td ta : Nat) (h : s.Canon) :
    (State.failChunk s k td ta).Canon := by
  unfold State.failChunk
  repeat' first
    | with_reducible first
        | assumption | apply mstore_keeps_wf | apply mset_keeps_wf | apply mzero_keeps_wf | apply foldl_keeps_wf
        | apply filter_keeps_wf | apply foldl_fst_wf | apply wf_fst (by assumption) | apply State.setTile_canon
        | apply State.tileSent_canon
    | dsimp only

theorem State.failChunks_canon (s : State) (c k : Nat) (h : s.Canon) :
    (State.failChunks s c k).Canon := by
  unfold State.failChunks
  repeat' first
    | with_reducible first
        | assumption | intro _ | apply State.failChunk_canon | apply State.finishOp_canon | apply foldl_canon
        | apply foldl_fst_canon | apply canon_fst (by assumption) | apply canon_snd (by assumption)
    | dsimp only | split

theorem State.breakComm_canon (s : State) (c k : Nat) (h : s.Canon) :
    (State.breakComm s c k).Canon := by
  unfold State.breakComm
  repeat' first
    | with_reducible first
        | assumption | intro _ | apply State.endInstance_canon | apply State.setParty_canon | apply State.finishColl_canon
        | apply State.failChunks_canon | apply State.setComm_canon | apply State.event_canon | apply foldl_canon
        | apply foldl_fst_canon | apply canon_fst (by assumption) | apply canon_snd (by assumption)
    | dsimp only | split

theorem State.freeSlots_canon (s : State) (c k : Nat) (h : s.Canon) :
    (State.freeSlots s c k).Canon := by
  unfold State.freeSlots
  repeat' first | with_reducible (first | assumption | intro _ | apply State.setComm_canon) | dsimp only | split

theorem State.relayWords_canon (s : State) (c : Nat) (h : s.Canon) :
    (State.relayWords s c).1.Canon := by
  unfold State.relayWords
  repeat' first
    | with_reducible first
        | assumption | apply State.devRead_canon | apply canon_fst (by assumption) | apply canon_snd (by assumption)
        | apply canon_some (by assumption)
    | dsimp only | split

theorem State.postRelay_canon (s : State) (c p req : Nat) (h : s.Canon) :
    (State.postRelay s c p req).1.Canon := by
  unfold State.postRelay
  repeat' first
    | with_reducible first
        | assumption | apply State.release_canon | apply State.devWrites_canon | apply State.devWrite_canon
        | apply canon_fst (by assumption) | apply canon_snd (by assumption)
    | dsimp only | split

theorem State.uncount_canon (s : State) (pk pe : Nat) (o : Op) (h : s.Canon) :
    (State.uncount s pk pe o).Canon := by
  unfold State.uncount
  repeat' first
    | with_reducible first
        | assumption | intro _ | apply State.dropOp_canon | apply State.setParty_canon | apply State.setComm_canon
        | apply canon_fst (by assumption) | apply canon_snd (by assumption) | apply canon_some (by assumption) | apply canon_id
    | dsimp only | split

theorem State.collGo_canon (s : State) (pk pe : Nat) (o : Op) (k inst : Nat) (last : Bool) (h : s.Canon) :
    (State.collGo s pk pe o k inst last).Canon := by
  unfold State.collGo
  repeat' first
    | with_reducible first
        | assumption | intro _ | apply State.setOp_canon | apply State.advance_canon | apply State.block_canon
        | apply State.uncount_canon | apply State.raiseTile_canon | apply State.relayWords_canon | apply State.raiseCv_canon
        | apply State.postRelay_canon | apply State.setTile_canon | apply State.send_canon | apply State.setParty_canon
        | apply State.setComm_canon | apply canon_fst (by assumption) | apply canon_snd (by assumption)
        | apply canon_some (by assumption)
    | dsimp only | split

theorem State.coll_canon (s : State) (f : Fields) (h : s.Canon) :
    (State.coll s f).Canon := by
  unfold State.coll
  repeat' first
    | with_reducible first
        | assumption | intro _ | apply State.raiseCv_canon | apply State.collGo_canon | apply State.readComm_canon
        | apply State.setParty_canon | apply State.setComm_canon | apply State.addOp_canon | apply canon_fst (by assumption)
        | apply canon_snd (by assumption) | apply canon_some (by assumption) | apply canon_id
    | dsimp only | split

theorem execColl_canon (f : Fields) (s : State) (h : s.Canon) :
    CanonN (execColl f s) := by
  unfold execColl
  repeat' first
    | with_reducible first
        | assumption | intro _ | apply issue_canon | apply State.coll_canon | apply State.orAway_canon | apply canonN_next
    | dsimp only

theorem execCollDone_canon (f : Fields) (s : State) (h : s.Canon) :
    CanonN (execCollDone f s) := by
  unfold execCollDone
  repeat' first
    | with_reducible first
        | assumption | intro _ | apply issue_canon | apply State.advance_canon | apply State.endInstance_canon
        | apply State.setComm_canon | apply State.send_canon | apply State.freeSlots_canon | apply foldl_canon
        | apply foldl_fst_canon | apply canon_fst (by assumption) | apply canon_snd (by assumption)
        | apply canon_some (by assumption) | apply canonN_next
    | dsimp only | split

theorem execMsv_canon (f : Fields) (s : State) (h : s.Canon) :
    CanonN (execMsv f s) := by
  unfold execMsv
  repeat' first
    | with_reducible first
        | assumption | intro _ | apply issue_canon | apply State.setMe_canon | apply State.raise_canon
        | apply State.advance_canon | apply canon_fst (by assumption) | apply canon_snd (by assumption) | apply canonN_next
    | dsimp only | split

theorem execVmask_canon (f : Fields) (s : State) (h : s.Canon) :
    CanonN (execVmask f s) := by
  unfold execVmask
  repeat' first
    | with_reducible first
        | assumption | intro _ | apply issue_canon | apply State.putP_canon | apply State.advance_canon | apply canonN_next
    | dsimp only

theorem execVrsc_canon (f : Fields) (s : State) (h : s.Canon) :
    CanonN (execVrsc f s) := by
  unfold execVrsc
  repeat' first
    | with_reducible first
        | assumption | intro _ | apply issue_canon | apply State.putV_canon | apply State.raise_canon
        | apply State.advance_canon | apply canonN_next
    | dsimp only

theorem State.rredSend_canon (s : State) (id : Nat) (h : s.Canon) :
    (State.rredSend s id).Canon := by
  unfold State.rredSend
  repeat' first
    | with_reducible first
        | assumption | intro _ | apply State.send_canon | apply State.setOp_canon | apply foldl_canon | apply foldl_fst_canon
        | apply canon_fst (by assumption) | apply canon_snd (by assumption) | apply canon_some (by assumption) | apply canon_id
        | apply foldl_served_canon
    | dsimp only | split

theorem State.rred_canon (s : State) (f : Fields) (xd xa : Tile) (h : s.Canon) :
    (State.rred s f xd xa).Canon := by
  unfold State.rred
  repeat' first
    | with_reducible first
        | assumption | intro _ | apply State.readComm_canon | apply State.setTile_canon | apply State.send_canon
        | apply State.failChunk_canon | apply State.advance_canon | apply serve_canon | apply State.parkCaravan_canon
        | apply State.addOp_canon | apply State.sendRequests_canon | apply State.rredSend_canon | apply State.raiseAll_canon
        | apply canon_fst (by assumption) | apply canon_snd (by assumption) | apply canon_id
    | dsimp only | split

theorem execRred_canon (f : Fields) (s : State) (h : s.Canon) :
    CanonN (execRred f s) := by
  unfold execRred
  repeat' first
    | with_reducible first
        | assumption | intro _ | apply issue_canon | apply State.rred_canon | apply State.withTile_canon
        | apply State.raiseTile_canon | apply State.sendTile_canon | apply State.orAway_canon | apply canonN_next
    | dsimp only | split

theorem State.engineWrites_canon (s : State) (o : Op) (va : W64) (e0 : List Nat) (h : s.Canon) :
    (State.engineWrites s o va e0).1.Canon := by
  induction e0 generalizing s o va with
  | nil =>
    unfold State.engineWrites
    repeat' first
      | with_reducible first
          | assumption | apply State.askChecked_canon | apply canon_fst (by assumption) | apply canon_snd (by assumption)
          | apply canon_some (by assumption)
      | dsimp only | split
  | cons _ _ ih =>
    unfold State.engineWrites
    repeat' first
      | with_reducible first
          | assumption | apply ih | apply State.askChecked_canon | apply canon_fst (by assumption)
          | apply canon_snd (by assumption) | apply canon_some (by assumption)
      | dsimp only | split

theorem State.rredEnd_canon (s : State) (o : Op) (h : s.Canon) :
    (State.rredEnd s o).Canon := by
  unfold State.rredEnd
  repeat' first
    | with_reducible first
        | assumption | intro _ | apply State.rred_canon | apply State.whole_canon | apply State.engineWrites_canon
        | apply State.storePut_canon | apply State.setTile_canon | apply State.tileSent_canon | apply State.finishOp_canon
        | apply State.parkEngine_canon | apply State.engineCause_canon | apply canon_fst (by assumption)
        | apply canon_snd (by assumption) | apply canon_some (by assumption) | apply canon_id
    | dsimp only | split

theorem State.sendEnd_canon (s : State) (o : Op) (h : s.Canon) :
    (State.sendEnd s o).Canon := by
  unfold State.sendEnd
  repeat' first
    | with_reducible first
        | assumption | apply State.sendTile_canon | apply State.send_canon | apply State.setOp_canon
        | apply State.tileSent_canon | apply State.finishOp_canon | apply canon_fst (by assumption)
        | apply canon_snd (by assumption)
    | dsimp only | split

theorem execSendComplete_canon (op : Nat) (s : State) (h : s.Canon) :
    CanonN (execSendComplete op s) := by
  unfold execSendComplete
  repeat' first
    | with_reducible first
        | assumption | apply State.tileSent_canon | apply State.setOp_canon | apply State.sendTile_canon
        | apply State.sendEnd_canon | apply State.rred_canon | apply State.rredEnd_canon | apply canon_fst (by assumption)
        | apply canon_snd (by assumption) | apply canon_some (by assumption) | apply canonN_next
    | dsimp only | split

theorem State.withComm_canon (s : State) (w : W64) (go : State → Nat → Nat → State) (h : s.Canon)
    (hgo : ∀ y0 y1 y2, y0.Canon → (go y0 y1 y2).Canon) :
    (State.withComm s w go).Canon := by
  unfold State.withComm
  repeat' first
    | with_reducible first
        | assumption | intro _ | apply State.raiseCv_canon | apply State.orAway_canon | apply State.readComm_canon | apply hgo
    | dsimp only | split

theorem execGangq_canon (f : Fields) (s : State) (h : s.Canon) :
    CanonN (execGangq f s) := by
  unfold execGangq
  repeat' first
    | with_reducible first
        | assumption | intro _ | apply issue_canon | apply State.withComm_canon | apply State.setComm_canon
        | apply State.setS_canon | apply State.advance_canon | apply State.block_canon | apply canon_fst (by assumption)
        | apply canon_snd (by assumption) | apply canon_some (by assumption) | apply canonN_next
    | dsimp only | split

theorem execGangack_canon (f : Fields) (s : State) (h : s.Canon) :
    CanonN (execGangack f s) := by
  unfold execGangack
  repeat' first
    | with_reducible first
        | assumption | intro _ | apply issue_canon | apply State.withComm_canon | apply State.advance_canon
        | apply State.setComm_canon | apply State.send_canon | apply canonN_next
    | dsimp only | split

/-! ## FabricEvents -/

theorem State.linkEvent_canon (s : State) (p typ : Nat) (h : s.Canon) :
    (State.linkEvent s p typ).Canon := by
  unfold State.linkEvent
  repeat' first | with_reducible (first | assumption | apply State.event_canon) | dsimp only

theorem State.retrain_canon (s : State) (port : Nat) (h : s.Canon) :
    (State.retrain s port).Canon := by
  unfold State.retrain
  repeat' first | with_reducible (first | assumption | apply State.setPort_canon) | dsimp only

theorem execFlitCheckFail_canon (port : Nat) (flit : FailedFlit) (s : State) (h : s.Canon) :
    CanonN (execFlitCheckFail port flit s) := by
  unfold execFlitCheckFail
  repeat' first
    | with_reducible first
        | assumption | apply State.setPort_canon | apply State.retrain_canon | apply canonN_next
    | dsimp only | split

theorem execRetrainEntry_canon (port : Nat) (s : State) (h : s.Canon) :
    CanonN (execRetrainEntry port s) := by
  unfold execRetrainEntry
  repeat' first | with_reducible (first | assumption | apply State.retrain_canon | apply canonN_next) | dsimp only | split

theorem execTrainingComplete_canon (port : Nat) (peer : BitVec 16) (peerPort : BitVec 8) (s : State) (h : s.Canon) :
    CanonN (execTrainingComplete port peer peerPort s) := by
  unfold execTrainingComplete
  repeat' first
    | with_reducible first
        | assumption | apply State.setPort_canon | apply State.linkEvent_canon | apply State.retrain_canon
        | apply State.fresh_canon | apply canon_fst (by assumption) | apply canon_snd (by assumption) | apply canonN_next
    | dsimp only | split

theorem execTrainingFailed_canon (port : Nat) (s : State) (h : s.Canon) :
    CanonN (execTrainingFailed port s) := by
  unfold execTrainingFailed
  repeat' first
    | with_reducible first
        | assumption | apply State.setPort_canon | apply State.linkEvent_canon | apply canonN_next
    | dsimp only | split

theorem State.loseRoutes_canon (s : State) (h : s.Canon) :
    (State.loseRoutes s).Canon := by
  unfold State.loseRoutes
  repeat' first
    | with_reducible first
        | assumption | intro _ | apply State.breakComm_canon | apply foldl_canon | apply foldl_fst_canon
        | apply canon_fst (by assumption) | apply canon_snd (by assumption)
    | dsimp only | split

theorem execRetrainTimeout_canon (port : Nat) (s : State) (h : s.Canon) :
    CanonN (execRetrainTimeout port s) := by
  unfold execRetrainTimeout
  repeat' first
    | with_reducible first
        | assumption | apply State.retrain_canon | apply State.setPort_canon | apply State.linkEvent_canon
        | apply State.reroute_canon | apply State.loseRoutes_canon | apply canonN_next
    | dsimp only | split

theorem execLctlDisSet_canon (port : Nat) (s : State) (h : s.Canon) :
    CanonN (execLctlDisSet port s) := by
  unfold execLctlDisSet
  repeat' first
    | with_reducible first
        | assumption | apply State.disSet_canon | apply State.loseRoutes_canon | apply canonN_next
    | dsimp only | split

theorem execLctlDisClear_canon (port : Nat) (s : State) (h : s.Canon) :
    CanonN (execLctlDisClear port s) := by
  unfold execLctlDisClear
  repeat' first | with_reducible (first | assumption | apply State.disClear_canon | apply canonN_next) | dsimp only | split

theorem State.remoteCause_canon (s : State) (o : Op) (r : Req) (x : LaneCause) (h : s.Canon) :
    (State.remoteCause s o r x).Canon := by
  unfold State.remoteCause
  repeat' first
    | with_reducible first
        | assumption | intro _ | apply State.fetch_canon | apply State.dropOp_canon | apply State.asAgent_canon
        | apply State.raiseEvery_canon | apply State.settle_canon | apply State.sliceTrapAt_canon
        | apply State.raiseLanes_canon | apply canon_id
    | dsimp only | split

theorem State.filled_canon (s : State) (o : Op) (r : Req) (x : BitVec 128) (h : s.Canon) :
    (State.filled s o r x).Canon := by
  unfold State.filled
  repeat' first | with_reducible (first | assumption | apply State.fillBytes_canon | apply State.serveOp_canon) | dsimp only

theorem State.remoteLane_canon (s : State) (o : Op) (r : Req) (x : BitVec 128) (h : s.Canon) :
    (State.remoteLane s o r x).Canon := by
  unfold State.remoteLane
  repeat' first
    | with_reducible first
        | assumption | apply State.deliver_canon | apply State.nowServed_canon | apply State.finishOp_canon | apply canon_id
    | dsimp only | split

theorem State.gangDecide_canon (s : State) (id : Nat) (h : s.Canon) :
    (State.gangDecide s id).Canon := by
  unfold State.gangDecide
  repeat' first
    | with_reducible first
        | assumption | intro _ | apply State.dropOp_canon | apply State.setComm_canon | apply State.send_canon
        | apply foldl_canon | apply foldl_fst_canon | apply canon_fst (by assumption) | apply canon_snd (by assumption)
        | apply canon_some (by assumption) | apply canon_id
    | dsimp only | split

theorem State.answered_canon (s : State) (o : Op) (r : Req) (out : RemoteOutcome) (x : BitVec 128) (h : s.Canon) :
    (State.answered s o r out x).Canon := by
  unfold State.answered
  repeat' first
    | with_reducible first
        | assumption | intro _ | apply State.setOp_canon | apply State.remoteLane_canon | apply State.remoteCause_canon
        | apply State.nowServed_canon | apply State.finishOp_canon | apply State.sendTile_canon | apply State.engineCause_canon
        | apply State.rred_canon | apply State.filled_canon | apply State.failChunk_canon | apply State.rredSend_canon
        | apply State.fillBytes_canon | apply State.endCopy_canon | apply State.mxStopped_canon | apply State.dropOp_canon
        | apply State.gangDecide_canon | apply State.updateL1_canon | apply canon_fst (by assumption)
        | apply canon_snd (by assumption) | apply canon_some (by assumption) | apply canon_id
    | dsimp only | split

theorem State.arrived_canon (s : State) (op lane : Nat) (h : s.Canon) :
    (State.arrived s op lane).Canon := by
  unfold State.arrived
  repeat' first
    | with_reducible first
        | assumption | intro _ | apply canon_fst (by assumption) | apply canon_snd (by assumption)
        | apply canon_some (by assumption)
    | dsimp only | split | dsimp only [State.Canon]

theorem execRemoteReply_canon (op lane : Nat) (out : RemoteOutcome) (data : BitVec 128) (s : State) (h : s.Canon) :
    CanonN (execRemoteReply op lane out data s) := by
  unfold execRemoteReply
  repeat' first
    | with_reducible first
        | assumption | intro _ | apply State.arrived_canon | apply State.answered_canon | apply canon_fst (by assumption)
        | apply canon_snd (by assumption) | apply canon_some (by assumption) | apply canonN_next
    | dsimp only | split

theorem execParkedNotice_canon (op lane : Nat) (s : State) (h : s.Canon) :
    CanonN (execParkedNotice op lane s) := by
  unfold execParkedNotice
  repeat' first
    | with_reducible first
        | assumption | intro _ | apply State.arrived_canon | apply State.setOp_canon | apply State.send_canon
        | apply foldl_canon | apply foldl_fst_canon | apply canon_fst (by assumption) | apply canon_snd (by assumption)
        | apply canon_some (by assumption) | apply canonN_next
    | dsimp only | split

theorem execFabricTimeout_canon (op lane : Nat) (s : State) (h : s.Canon) :
    CanonN (execFabricTimeout op lane s) := by
  unfold execFabricTimeout
  repeat' first
    | with_reducible first
        | assumption | intro _ | apply State.event_canon | apply State.rred_canon | apply State.answered_canon
        | apply State.breakComm_canon | apply canon_fst (by assumption) | apply canon_snd (by assumption)
        | apply canon_some (by assumption) | apply canonN_next
    | dsimp only | split

theorem State.readAcl_canon (s : State) (c : Nat) (h : s.Canon) :
    (State.readAcl s c).1.Canon := by
  unfold State.readAcl
  repeat' first
    | with_reducible first
        | assumption | intro _ | apply State.devRead_canon | apply foldl_canon | apply foldl_fst_canon
        | apply canon_fst (by assumption) | apply canon_snd (by assumption) | apply canon_some (by assumption)
    | dsimp only | split | dsimp only [State.Canon]

theorem State.admits_canon (s : State) (c : Nat) (node : BitVec 16) (sctx : BitVec 8) (r : Right) (h : s.Canon) :
    (State.admits s c node sctx r).1.Canon := by
  unfold State.admits
  repeat' first
    | with_reducible first
        | assumption | intro _ | apply State.readAcl_canon | apply canon_fst (by assumption) | apply canon_snd (by assumption)
    | dsimp only | split

theorem State.parkIncoming_canon (s : State) (c akind va level : Nat) (what : ParkWhat) (h : s.Canon) :
    (State.parkIncoming s c akind va level what).Canon := by
  unfold State.parkIncoming
  repeat' first
    | with_reducible first
        | assumption | apply State.postFaults_canon | apply canon_fst (by assumption) | apply canon_snd (by assumption)
        | apply canon_id
    | dsimp only | split

theorem State.serveRequest_canon (s : State) (id : Nat) (r : RemoteReq) (h : s.Canon) :
    (State.serveRequest s id r).Canon := by
  unfold State.serveRequest
  repeat' first
    | with_reducible first
        | assumption | apply State.send_canon | apply State.reply_canon | apply State.admits_canon
        | apply State.askChecked_canon | apply State.parkIncoming_canon | apply canon_fst (by assumption)
        | apply canon_snd (by assumption) | apply canon_id
    | dsimp only | split

theorem State.unwait_canon (s : State) (id : Nat) (h : s.Canon) :
    (State.unwait s id).Canon := by
  unfold State.unwait
  repeat' first
    | with_reducible first
        | assumption | intro _ | apply State.dropAsked_canon | apply canon_id
    | dsimp only | dsimp only [State.Canon]

theorem State.serveWaiting_canon (s : State) (w : Waiting) (body : State → State) (h : s.Canon) (hbody : ∀ x, x.Canon →
    (body x).Canon) :
    (State.serveWaiting s w body).Canon := by
  unfold State.serveWaiting
  repeat' first
    | with_reducible first
        | assumption | intro _ | apply State.whole_canon | apply State.unwait_canon | apply canon_fst (by assumption)
        | apply canon_snd (by assumption) | apply hbody | apply canon_id
    | dsimp only | split | dsimp only [State.Canon]

theorem State.waitId_canon (s : State) (h : s.Canon) :
    (State.waitId s).2.Canon := by
  unfold State.waitId
  repeat' first | with_reducible (first | assumption) | dsimp only

theorem State.newRequest_canon (s : State) (r : RemoteReq) (h : s.Canon) :
    (State.newRequest s r).Canon := by
  unfold State.newRequest
  repeat' first
    | with_reducible first
        | assumption | intro _ | apply State.waitId_canon | apply State.serveWaiting_canon | apply State.serveRequest_canon
        | apply canon_fst (by assumption) | apply canon_snd (by assumption) | apply canon_id
    | dsimp only | split

theorem execRemoteRequest_canon (r : RemoteReq) (s : State) (h : s.Canon) :
    CanonN (execRemoteRequest r s) := by
  unfold execRemoteRequest
  repeat' first | with_reducible (first | assumption | apply State.newRequest_canon | apply canonN_next) | dsimp only

theorem State.lossyWrite_canon (s : State) (c id : Nat) (va : W64) (n x : Nat) (h : s.Canon) :
    CanonO (State.lossyWrite s c id va n x) := by
  unfold State.lossyWrite
  repeat' first
    | with_reducible first
        | assumption | apply State.checkedAccess_canon | apply State.addDevOp_canon | apply State.send_canon
        | apply canon_fst (by assumption) | apply canon_snd (by assumption) | apply canon_some (by assumption) | apply canon_id
        | apply canonO_none | apply canonO_some
    | dsimp only | split | dsimp only [State.Canon]

theorem State.lossyBytes_canon (s : State) (c id : Nat) (va : W64) (x : Nat) (h : s.Canon) :
    CanonO (State.lossyBytes s c id va x) := by
  unfold State.lossyBytes
  repeat' first
    | with_reducible first
        | assumption | intro _ | apply State.lossyWrite_canon | apply foldl_canon | apply foldl_fst_canon
        | apply canon_fst (by assumption) | apply canon_snd (by assumption) | apply canon_some (by assumption)
        | apply canonO_foldl_bind | apply canon_id | apply canonO_none | apply canonO_some
    | dsimp only | split

theorem State.closeXfer_canon (s : State) (src : BitVec 16) (xfer : BitVec 32) (h : s.Canon) :
    (State.closeXfer s src xfer).Canon := by
  unfold State.closeXfer
  repeat' first | with_reducible (first | assumption | intro _) | dsimp only | dsimp only [State.Canon]

theorem State.dropBlock_canon (s : State) (p : Nat) (h : s.Canon) :
    (State.dropBlock s p).Canon := by
  unfold State.dropBlock
  repeat' first | with_reducible (first | assumption | apply State.setPort_canon) | dsimp only

theorem State.serveBlock_canon (s : State) (id port : Nat) (b : LossyBlock) (h : s.Canon) :
    (State.serveBlock s id port b).Canon := by
  have hd := State.dropBlock_canon s port h
  unfold State.serveBlock
  extract_lets c d old
  refine canon_if hd (canon_if hd (canon_if hd ?_))
  split
  rename_i s1 a1 e1
  have h1 : s1.Canon := canon_fst e1 (State.admits_canon s c b.src b.sctx .lossy h)
  clear e1 h hd
  split
  rename_i s2 a2 e2
  have h2 : s2.Canon := canon_fst e2 (State.admits_canon s1 c b.src b.sctx .wr h1)
  clear e2 h1
  refine canon_if (State.dropBlock_canon s2 port h2) ?_
  cases e3 : s2.lossyBytes c id b.va b.payload.toNat with
  | none => exact State.dropBlock_canon s2 port h2
  | some t => exact State.closeXfer_canon t b.src b.xfer (canon_some e3 (State.lossyBytes_canon s2 c id b.va _ h2))

theorem execLossyBlock_canon (port : Nat) (b : LossyBlock) (s : State) (h : s.Canon) :
    CanonN (execLossyBlock port b s) := by
  unfold execLossyBlock
  cases e : s.waitId with
  | mk id t =>
    have ht : t.Canon := canon_snd e (State.waitId_canon s h)
    exact canonN_next (State.serveWaiting_canon t _ _ ht (fun x hx => State.serveBlock_canon x id port b hx))

theorem State.markerBytes_canon (s : State) (c id : Nat) (va : W64) (e0 : List Nat) (h : s.Canon) :
    (State.markerBytes s c id va e0).1.Canon := by
  induction e0 generalizing s c id va with
  | nil =>
    unfold State.markerBytes
    repeat' first
      | with_reducible first
          | assumption | apply State.askChecked_canon | apply canon_fst (by assumption) | apply canon_snd (by assumption)
          | apply canon_some (by assumption) | apply canon_id
      | dsimp only | split
  | cons _ _ ih =>
    unfold State.markerBytes
    repeat' first
      | with_reducible first
          | assumption | apply ih | apply State.askChecked_canon | apply canon_fst (by assumption)
          | apply canon_snd (by assumption) | apply canon_some (by assumption) | apply canon_id
      | dsimp only | split

theorem State.markerWrites_canon (s : State) (id : Nat) (m : EndMarker) (got : List Nat) (h : s.Canon) :
    (State.markerWrites s id m got).1.Canon := by
  unfold State.markerWrites
  repeat' first
    | with_reducible first
        | assumption | intro _ | apply State.lossyBytes_canon | apply State.markerBytes_canon | apply foldl_canon
        | apply foldl_fst_canon | apply canon_fst (by assumption) | apply canon_snd (by assumption)
        | apply canon_some (by assumption) | apply canon_getD | apply canon_id
    | dsimp only | split

theorem State.markerEnd_canon (s : State) (m : EndMarker) (out : RemoteOutcome) (h : s.Canon) :
    (State.markerEnd s m out).Canon := by
  unfold State.markerEnd
  repeat' first
    | with_reducible first
        | assumption | apply State.closeXfer_canon | apply State.send_canon
    | dsimp only | dsimp only [State.Canon]

theorem State.markerStops_canon (s : State) (m : EndMarker) (wrote : Bool) (x : Res) (va : W64) (h : s.Canon) :
    (State.markerStops s m wrote x va).Canon := by
  unfold State.markerStops
  repeat' first
    | with_reducible first
        | assumption | apply State.parkIncoming_canon | apply State.markerEnd_canon | apply canon_fst (by assumption)
        | apply canon_snd (by assumption)
    | dsimp only | split

theorem State.markerNotify_canon (s : State) (id : Nat) (m : EndMarker) (h : s.Canon) :
    (State.markerNotify s id m).Canon := by
  unfold State.markerNotify
  repeat' first
    | with_reducible first
        | assumption | intro _ | apply State.markerEnd_canon | apply State.unwait_canon | apply State.flushFabric_canon
        | apply State.serveWaiting_canon | apply State.askChecked_canon | apply State.markerStops_canon
        | apply canon_fst (by assumption) | apply canon_snd (by assumption) | apply canon_id
    | dsimp only | split | dsimp only [State.Canon]

theorem State.serveMarker_canon (s : State) (id : Nat) (m : EndMarker) (wrote : Bool) (h : s.Canon) :
    (State.serveMarker s id m wrote).Canon := by
  unfold State.serveMarker
  repeat' first
    | with_reducible first
        | assumption | intro _ | apply State.serveWaiting_canon | apply State.markerNotify_canon | apply State.admits_canon
        | apply State.markerEnd_canon | apply State.markerWrites_canon | apply State.markerStops_canon
        | apply canon_fst (by assumption) | apply canon_snd (by assumption) | apply canon_some (by assumption) | apply canon_id
    | dsimp only | split | dsimp only [State.Canon]

theorem State.newMarker_canon (s : State) (m : EndMarker) (wrote : Bool) (h : s.Canon) :
    (State.newMarker s m wrote).Canon := by
  unfold State.newMarker
  repeat' first
    | with_reducible first
        | assumption | apply State.waitId_canon | apply State.serveMarker_canon | apply canon_fst (by assumption)
        | apply canon_snd (by assumption) | apply canon_id
    | dsimp only | split

theorem execEndMarker_canon (m : EndMarker) (s : State) (h : s.Canon) :
    CanonN (execEndMarker m s) := by
  unfold execEndMarker
  repeat' first | with_reducible (first | assumption | apply State.newMarker_canon | apply canonN_next) | dsimp only

theorem execNodeReset_canon (node : BitVec 16) (s : State) (h : s.Canon) :
    CanonN (execNodeReset node s) := by
  unfold execNodeReset
  repeat' first
    | with_reducible first
        | assumption | intro _ | apply State.block_canon | apply canon_fst (by assumption) | apply canon_snd (by assumption)
        | apply canonN_next
    | dsimp only | split

theorem execPeerContextReset_canon (c comm : Nat) (s : State) (h : s.Canon) :
    CanonN (execPeerContextReset c comm s) := by
  unfold execPeerContextReset
  repeat' first | with_reducible (first | assumption | apply State.breakComm_canon | apply canonN_next) | dsimp only | split

theorem execInstanceDone_canon (c comm inst peer : Nat) (s : State) (h : s.Canon) :
    CanonN (execInstanceDone c comm inst peer s) := by
  unfold execInstanceDone
  repeat' first
    | with_reducible first
        | assumption | intro _ | apply State.setComm_canon | apply State.freeSlots_canon | apply canonN_next
    | dsimp only | split

theorem execGangQuery_canon (c comm : Nat) (s : State) (h : s.Canon) :
    CanonN (execGangQuery c comm s) := by
  unfold execGangQuery
  repeat' first
    | with_reducible first
        | assumption | apply State.setComm_canon | apply State.send_canon | apply canon_fst (by assumption)
        | apply canon_snd (by assumption) | apply canonN_next
    | dsimp only | split

theorem execPause_canon (c comm cstar : Nat) (s : State) (h : s.Canon) :
    CanonN (execPause c comm cstar s) := by
  unfold execPause
  repeat' first
    | with_reducible first
        | assumption | apply State.send_canon | apply State.setComm_canon | apply canon_fst (by assumption)
        | apply canon_snd (by assumption) | apply canon_some (by assumption) | apply canonN_next
    | dsimp only | split

theorem execGangResume_canon (c comm : Nat) (s : State) (h : s.Canon) :
    CanonN (execGangResume c comm s) := by
  unfold execGangResume
  repeat' first | with_reducible (first | assumption | apply State.setComm_canon | apply canonN_next) | dsimp only | split

theorem State.startPause_canon (s : State) (c k : Nat) (h : s.Canon) :
    (State.startPause s c k).Canon := by
  unfold State.startPause
  repeat' first
    | with_reducible first
        | assumption | intro _ | apply State.setComm_canon | apply State.addDevOp_canon | apply State.send_canon
        | apply State.gangDecide_canon | apply foldl_canon | apply foldl_fst_canon | apply canon_fst (by assumption)
        | apply canon_snd (by assumption) | apply canon_id
    | dsimp only | split

theorem State.pauseComms_canon (s : State) (c : Nat) (h : s.Canon) :
    (State.pauseComms s c).Canon := by
  unfold State.pauseComms
  repeat' first
    | with_reducible first
        | assumption | intro _ | apply State.startPause_canon | apply foldl_canon | apply foldl_fst_canon
        | apply canon_fst (by assumption) | apply canon_snd (by assumption)
    | dsimp only | split

theorem State.resumeComms_canon (s : State) (c : Nat) (h : s.Canon) :
    (State.resumeComms s c).Canon := by
  unfold State.resumeComms
  repeat' first
    | with_reducible first
        | assumption | intro _ | apply State.send_canon | apply State.setComm_canon | apply foldl_canon | apply foldl_fst_canon
        | apply canon_fst (by assumption) | apply canon_snd (by assumption)
    | dsimp only | split

theorem execSwitchDecline_canon (op : Nat) (s : State) (h : s.Canon) :
    CanonN (execSwitchDecline op s) := by
  unfold execSwitchDecline
  repeat' first
    | with_reducible first
        | assumption | apply State.rred_canon | apply State.setOp_canon | apply canon_fst (by assumption)
        | apply canon_snd (by assumption) | apply canon_some (by assumption) | apply canonN_next
    | dsimp only | split

theorem execSwitchAbort_canon (op : Nat) (s : State) (h : s.Canon) :
    CanonN (execSwitchAbort op s) := by
  unfold execSwitchAbort
  repeat' first
    | with_reducible first
        | assumption | intro _ | apply State.rred_canon | apply State.setOp_canon | apply State.rredSend_canon
        | apply canon_fst (by assumption) | apply canon_snd (by assumption) | apply canon_some (by assumption) | apply canon_id
        | apply canonN_next
    | dsimp only | split

theorem State.extentEvent_canon (s : State) (typ id detail : Nat) (h : s.Canon) :
    (State.extentEvent s typ id detail).Canon := by
  unfold State.extentEvent
  repeat' first | with_reducible (first | assumption | apply State.ctxEvent_canon | apply canon_id) | dsimp only

theorem execExtentGrant_canon (id : Nat) (node : BitVec 16) (base : W64) (size owner : Nat) (s : State) (h : s.Canon) :
    CanonN (execExtentGrant id node base size owner s) := by
  unfold execExtentGrant
  repeat' first
    | with_reducible first
        | assumption | apply State.setExtent_canon | apply canon_id | apply canonN_next
    | dsimp only | split

theorem execExtentOrderlyRelease_canon (id : Nat) (s : State) (h : s.Canon) :
    CanonN (execExtentOrderlyRelease id s) := by
  unfold execExtentOrderlyRelease
  repeat' first
    | with_reducible first
        | assumption | apply State.setExtent_canon | apply canon_id | apply canonN_next
    | dsimp only | split

theorem State.dropExtent_canon (s : State) (id : Nat) (h : s.Canon) :
    (State.dropExtent s id).Canon := by
  unfold State.dropExtent
  repeat' first
    | with_reducible first
        | assumption | intro _ | apply State.dropL1_canon | apply State.dropL2_canon | apply foldl_canon
        | apply foldl_fst_canon | apply canon_fst (by assumption) | apply canon_snd (by assumption)
        | apply canon_some (by assumption) | apply canon_id
    | dsimp only | split

theorem execExtentForcedRelease_canon (id : Nat) (s : State) (h : s.Canon) :
    CanonN (execExtentForcedRelease id s) := by
  unfold execExtentForcedRelease
  repeat' first
    | with_reducible first
        | assumption | apply State.dropExtent_canon | apply State.setExtent_canon | apply State.extentEvent_canon
        | apply canon_id | apply canonN_next
    | dsimp only | split

theorem execExtentWritebackDone_canon (id : Nat) (s : State) (h : s.Canon) :
    CanonN (execExtentWritebackDone id s) := by
  unfold execExtentWritebackDone
  repeat' first
    | with_reducible first
        | assumption | intro _ | apply State.cleanL1_canon | apply State.flushL2_canon | apply State.flushExt_canon
        | apply State.dropExtent_canon | apply State.setExtent_canon | apply State.send_canon | apply State.extentEvent_canon
        | apply foldl_canon | apply foldl_fst_canon | apply canon_fst (by assumption) | apply canon_snd (by assumption)
        | apply canon_some (by assumption) | apply canon_id | apply canonN_next
    | dsimp only | split

/-! ## Bank -/

theorem State.withChannel_canon (s : State) (o : Operand) (bank : Bool) (go : Nat → Nat → State) (h : s.Canon) (hgo : ∀ y0 y1,
    (go y0 y1).Canon) :
    (State.withChannel s o bank go).Canon := by
  unfold State.withChannel
  repeat' first
    | with_reducible first
        | assumption | intro _ | apply State.raiseCv_canon | apply canon_fst (by assumption) | apply canon_snd (by assumption)
        | apply canon_some (by assumption) | apply hgo
    | dsimp only | split

theorem State.modeEvent_canon (s : State) (ch typ owner detail : Nat) (h : s.Canon) :
    (State.modeEvent s ch typ owner detail).Canon := by
  unfold State.modeEvent
  repeat' first | with_reducible (first | assumption | apply State.chanEvent_canon) | dsimp only

theorem State.failCommands_canon (s : State) (ch : Nat) (h : s.Canon) :
    (State.failCommands s ch).Canon := by
  unfold State.failCommands
  repeat' first
    | with_reducible first
        | assumption | intro _ | apply State.finishOp_canon | apply State.engineCause_canon | apply State.setChan_canon
        | apply foldl_canon | apply foldl_fst_canon | apply canon_fst (by assumption) | apply canon_snd (by assumption)
    | dsimp only | split

theorem State.toNormal_canon (s : State) (ch : Nat) (h : s.Canon) :
    (State.toNormal s ch).Canon := by
  unfold State.toNormal
  repeat' first | with_reducible (first | assumption | apply State.setChan_canon) | dsimp only

theorem State.modeLost_canon (s : State) (ch : Nat) (h : s.Canon) :
    (State.modeLost s ch).Canon := by
  unfold State.modeLost
  repeat' first
    | with_reducible first
        | assumption | apply State.failCommands_canon | apply State.zeroExecutors_canon | apply State.toNormal_canon
        | apply State.modeEvent_canon | apply canon_some (by assumption)
    | dsimp only | split

theorem State.loseChannels_canon (s : State) (ctx : Nat) (h : s.Canon) :
    (State.loseChannels s ctx).Canon := by
  unfold State.loseChannels
  repeat' first
    | with_reducible first
        | assumption | intro _ | apply State.modeLost_canon | apply foldl_canon | apply foldl_fst_canon
        | apply canon_fst (by assumption) | apply canon_snd (by assumption)
    | dsimp only | split

theorem State.abortArming_canon (s : State) (ch : Nat) (h : s.Canon) :
    (State.abortArming s ch).Canon := by
  unfold State.abortArming
  repeat' first | with_reducible (first | assumption | apply State.toNormal_canon | apply State.modeEvent_canon) | dsimp only

theorem State.deliverMode_canon (s : State) (ch x : Nat) (w : ModeWord) (h : s.Canon) :
    (State.deliverMode s ch x w).1.Canon := by
  unfold State.deliverMode
  repeat' first
    | with_reducible first
        | assumption | apply State.setChan_canon | apply State.zeroExecutors_canon | apply State.modeEvent_canon
        | apply State.abortArming_canon | apply canon_fst (by assumption) | apply canon_snd (by assumption)
    | dsimp only | split

theorem State.xmode_canon (s : State) (f : Fields) (h : s.Canon) :
    (State.xmode s f).Canon := by
  unfold State.xmode
  repeat' first
    | with_reducible first
        | assumption | intro _ | apply State.withChannel_canon | apply State.deliverMode_canon | apply State.setS_canon
        | apply State.advance_canon | apply canon_fst (by assumption) | apply canon_snd (by assumption)
    | dsimp only | split

theorem execXmodeStep1_canon (f : Fields) (s : State) (h : s.Canon) :
    CanonN (execXmodeStep1 f s) := by
  unfold execXmodeStep1
  repeat' first
    | with_reducible first
        | assumption | intro _ | apply issue_canon | apply State.xmode_canon | apply canonN_next
    | dsimp only

theorem execXmodeStep2_canon (f : Fields) (s : State) (h : s.Canon) :
    CanonN (execXmodeStep2 f s) := by
  unfold execXmodeStep2
  repeat' first
    | with_reducible first
        | assumption | intro _ | apply issue_canon | apply State.xmode_canon | apply canonN_next
    | dsimp only

theorem execXmodeStep3_canon (f : Fields) (s : State) (h : s.Canon) :
    CanonN (execXmodeStep3 f s) := by
  unfold execXmodeStep3
  repeat' first
    | with_reducible first
        | assumption | intro _ | apply issue_canon | apply State.xmode_canon | apply canonN_next
    | dsimp only

theorem execXmodeExit_canon (f : Fields) (s : State) (h : s.Canon) :
    CanonN (execXmodeExit f s) := by
  unfold execXmodeExit
  repeat' first
    | with_reducible first
        | assumption | intro _ | apply issue_canon | apply State.xmode_canon | apply canonN_next
    | dsimp only

theorem execXmodeOtherWord_canon (f : Fields) (s : State) (h : s.Canon) :
    CanonN (execXmodeOtherWord f s) := by
  unfold execXmodeOtherWord
  repeat' first
    | with_reducible first
        | assumption | intro _ | apply issue_canon | apply State.xmode_canon | apply canonN_next
    | dsimp only

theorem State.failAll_canon (s : State) (x : LaneCause) (va : W64) (h : s.Canon) :
    (State.failAll s x va).Canon := by
  unfold State.failAll
  repeat' first | with_reducible (first | assumption | apply State.advance_canon | apply State.raiseAll_canon) | dsimp only

theorem State.withExecutors_canon (s : State) (o : Operand) (bank : Bool) (go : Nat → Nat → State) (h : s.Canon)
    (hgo : ∀ y0 y1, (go y0 y1).Canon) :
    (State.withExecutors s o bank go).Canon := by
  unfold State.withExecutors
  repeat' first
    | with_reducible first
        | assumption | intro _ | apply State.withChannel_canon | apply State.failAll_canon | apply hgo
    | dsimp only | split

theorem State.sendCommand_canon (s : State) (f : Fields) (ch : Nat) (c : BankCmd) (adds : Bool) (todo remote : List Req)
    (vals : List (Nat × BitVec 128)) (h : s.Canon) :
    (State.sendCommand s f ch c adds todo remote vals).Canon := by
  unfold State.sendCommand
  repeat' first
    | with_reducible first
        | assumption | apply State.addOp_canon | apply State.sendRequests_canon | apply State.setMe_canon
        | apply State.queueCommand_canon | apply canon_fst (by assumption) | apply canon_snd (by assumption)
        | apply canon_some (by assumption) | apply canon_id
    | dsimp only | split

theorem State.afterCommands_canon (s : State) (ch : Nat) (go : State) (hs : s.Canon) (hgo : go.Canon) :
    (State.afterCommands s ch go).Canon := by
  unfold State.afterCommands
  repeat' first | with_reducible (first | assumption | apply State.block_canon) | dsimp only | split

theorem execXprog_canon (f : Fields) (s : State) (h : s.Canon) :
    CanonN (execXprog f s) := by
  unfold execXprog
  repeat' first
    | with_reducible first
        | assumption | intro _ | apply issue_canon | apply State.withChannel_canon | apply State.raiseCv_canon
        | apply State.withExecutors_canon | apply serve_canon | apply State.failAll_canon | apply State.parkCaravan_canon
        | apply State.sendCommand_canon | apply State.advance_canon | apply canon_fst (by assumption)
        | apply canon_snd (by assumption) | apply canonN_next
    | dsimp only | split

theorem execXcol_canon (f : Fields) (s : State) (h : s.Canon) :
    CanonN (execXcol f s) := by
  unfold execXcol
  repeat' first
    | with_reducible first
        | assumption | intro _ | apply issue_canon | apply State.withExecutors_canon | apply State.sendCommand_canon
        | apply State.advance_canon | apply canonN_next
    | dsimp only

theorem execXread_canon (f : Fields) (s : State) (h : s.Canon) :
    CanonN (execXread f s) := by
  unfold execXread
  repeat' first
    | with_reducible first
        | assumption | intro _ | apply issue_canon | apply State.withExecutors_canon | apply State.sendCommand_canon
        | apply State.advance_canon | apply canonN_next
    | dsimp only

theorem execXstat_canon (f : Fields) (s : State) (h : s.Canon) :
    CanonN (execXstat f s) := by
  unfold execXstat
  repeat' first
    | with_reducible first
        | assumption | intro _ | apply issue_canon | apply State.withExecutors_canon | apply State.afterCommands_canon
        | apply State.setS_canon | apply State.advance_canon | apply canonN_next
    | dsimp only

theorem State.idleExecutors_canon (s : State) (ch : Nat) (h : s.Canon) :
    (State.idleExecutors s ch).Canon := by
  unfold State.idleExecutors
  repeat' first
    | with_reducible first
        | assumption | intro _ | apply State.setExecutor_canon | apply foldl_canon | apply foldl_fst_canon
        | apply canon_fst (by assumption) | apply canon_snd (by assumption)
    | dsimp only | split

theorem execXreset_canon (f : Fields) (s : State) (h : s.Canon) :
    CanonN (execXreset f s) := by
  unfold execXreset
  repeat' first
    | with_reducible first
        | assumption | intro _ | apply issue_canon | apply State.withExecutors_canon | apply State.afterCommands_canon
        | apply State.idleExecutors_canon | apply State.advance_canon | apply canonN_next
    | dsimp only

theorem execArmingTimeout_canon (ch : Nat) (s : State) (h : s.Canon) :
    CanonN (execArmingTimeout ch s) := by
  unfold execArmingTimeout
  repeat' first | with_reducible (first | assumption | apply State.abortArming_canon | apply canonN_next) | dsimp only | split

theorem execExitingComplete_canon (ch : Nat) (s : State) (h : s.Canon) :
    CanonN (execExitingComplete ch s) := by
  unfold execExitingComplete
  repeat' first
    | with_reducible first
        | assumption | apply State.zeroExecutors_canon | apply State.toNormal_canon | apply State.modeEvent_canon
        | apply canon_some (by assumption) | apply canonN_next
    | dsimp only | split

theorem execOboundExpires_canon (ch : Nat) (s : State) (h : s.Canon) :
    CanonN (execOboundExpires ch s) := by
  unfold execOboundExpires
  repeat' first
    | with_reducible first
        | assumption | apply State.setChan_canon | apply canon_some (by assumption) | apply canonN_next
    | dsimp only | split

theorem execSnapshotServed_canon (ch : Nat) (s : State) (h : s.Canon) :
    CanonN (execSnapshotServed ch s) := by
  unfold execSnapshotServed
  repeat' first
    | with_reducible first
        | assumption | intro _ | apply State.setChan_canon | apply canonN_next
    | dsimp only | split

theorem execRfmBlockEnd_canon (ch bank : Nat) (s : State) (h : s.Canon) :
    CanonN (execRfmBlockEnd ch bank s) := by
  unfold execRfmBlockEnd
  repeat' first | with_reducible (first | assumption | intro _ | apply State.setChan_canon | apply canonN_next) | dsimp only

theorem execRefreshWindowBoundary_canon (ch : Nat) (s : State) (h : s.Canon) :
    CanonN (execRefreshWindowBoundary ch s) := by
  unfold execRefreshWindowBoundary
  repeat' first
    | with_reducible first
        | assumption | intro _ | apply State.setChan_canon | apply State.openRow_canon | apply foldl_canon
        | apply foldl_fst_canon | apply canon_fst (by assumption) | apply canon_snd (by assumption) | apply canonN_next
    | dsimp only | split

/-! ## Control -/

theorem State.jump_canon (s : State) (x : W64) (go : State → State) (h : s.Canon) (hgo : ∀ x, x.Canon → (go x).Canon) :
    (State.jump s x go).Canon := by
  unfold State.jump
  repeat' first
    | with_reducible first
        | assumption | intro _ | apply State.raiseEvery_canon | apply State.setPc_canon | apply hgo
    | dsimp only | split

theorem braBody_canon (f : Fields) (s : State) (h : s.Canon) :
    (braBody f s).Canon := by
  unfold braBody
  repeat' first
    | with_reducible first
        | assumption | apply State.setPc_canon | apply State.advance_canon | apply State.raiseCv_canon
        | apply State.setMe_canon
    | dsimp only | split

theorem yieldBody_canon (s : State) (h : s.Canon) :
    (yieldBody s).Canon := by
  unfold yieldBody
  repeat' first | with_reducible (first | assumption | apply State.setMe_canon | apply State.advance_canon) | dsimp only

theorem execNop_canon (f : Fields) (s : State) (h : s.Canon) :
    CanonN (execNop f s) := by
  unfold execNop
  repeat' first
    | with_reducible first
        | assumption | intro _ | apply issue_canon | apply State.advance_canon | apply canonN_next
    | dsimp only

theorem execBra_canon (f : Fields) (s : State) (h : s.Canon) :
    CanonN (execBra f s) := by
  unfold execBra
  repeat' first | with_reducible (first | assumption | apply issue_canon | apply braBody_canon | apply canonN_next) | dsimp only

theorem execBrx_canon (f : Fields) (s : State) (h : s.Canon) :
    CanonN (execBrx f s) := by
  unfold execBrx
  repeat' first
    | with_reducible first
        | assumption | intro _ | apply issue_canon | apply State.jump_canon | apply canon_id | apply canonN_next
    | dsimp only

theorem execBrany_canon (f : Fields) (s : State) (h : s.Canon) :
    CanonN (execBrany f s) := by
  unfold execBrany
  repeat' first
    | with_reducible first
        | assumption | intro _ | apply issue_canon | apply State.setPc_canon | apply State.advance_canon | apply canonN_next
    | dsimp only | split

theorem execBrall_canon (f : Fields) (s : State) (h : s.Canon) :
    CanonN (execBrall f s) := by
  unfold execBrall
  repeat' first
    | with_reducible first
        | assumption | intro _ | apply issue_canon | apply State.setPc_canon | apply State.advance_canon | apply canonN_next
    | dsimp only | split

theorem execCall_canon (f : Fields) (s : State) (h : s.Canon) :
    CanonN (execCall f s) := by
  unfold execCall
  repeat' first
    | with_reducible first
        | assumption | intro _ | apply issue_canon | apply State.jump_canon | apply State.setS_canon | apply State.setPc_canon
        | apply canon_fst (by assumption) | apply canon_snd (by assumption) | apply canonN_next
    | dsimp only | split

theorem execRet_canon (f : Fields) (s : State) (h : s.Canon) :
    CanonN (execRet f s) := by
  unfold execRet
  repeat' first
    | with_reducible first
        | assumption | intro _ | apply issue_canon | apply State.jump_canon | apply canon_id | apply canonN_next
    | dsimp only

theorem execReconv_canon (f : Fields) (s : State) (h : s.Canon) :
    CanonN (execReconv f s) := by
  unfold execReconv
  repeat' first
    | with_reducible first
        | assumption | intro _ | apply issue_canon | apply State.setMe_canon | apply canonN_next
    | dsimp only

theorem execExitI_canon (f : Fields) (s : State) (h : s.Canon) :
    CanonN (execExitI f s) := by
  unfold execExitI
  repeat' first
    | with_reducible first
        | assumption | intro _ | apply issue_canon | apply State.setMe_canon | apply State.advance_canon | apply canonN_next
    | dsimp only | split

theorem execYield_canon (f : Fields) (s : State) (h : s.Canon) :
    CanonN (execYield f s) := by
  unfold execYield
  repeat' first | with_reducible (first | assumption | apply issue_canon | apply yieldBody_canon | apply canonN_next) | dsimp only

theorem execSleep_canon (f : Fields) (s : State) (h : s.Canon) :
    CanonN (execSleep f s) := by
  unfold execSleep
  repeat' first
    | with_reducible first
        | assumption | intro _ | apply issue_canon | apply yieldBody_canon | apply State.setMe_canon
        | apply State.advance_canon | apply canonN_next
    | dsimp only | split

theorem execTrap_canon (f : Fields) (s : State) (h : s.Canon) :
    CanonN (execTrap f s) := by
  unfold execTrap
  repeat' first
    | with_reducible first
        | assumption | intro _ | apply issue_canon | apply State.raiseCv_canon | apply canonN_next
    | dsimp only

theorem execBrk_canon (f : Fields) (s : State) (h : s.Canon) :
    CanonN (execBrk f s) := by
  unfold execBrk
  repeat' first
    | with_reducible first
        | assumption | intro _ | apply issue_canon | apply State.raiseCv_canon | apply canonN_next
    | dsimp only

theorem execMskget_canon (f : Fields) (s : State) (h : s.Canon) :
    CanonN (execMskget f s) := by
  unfold execMskget
  repeat' first
    | with_reducible first
        | assumption | intro _ | apply issue_canon | apply State.setS_canon | apply State.advance_canon | apply canonN_next
    | dsimp only | split

theorem execMskset_canon (f : Fields) (s : State) (h : s.Canon) :
    CanonN (execMskset f s) := by
  unfold execMskset
  repeat' first
    | with_reducible first
        | assumption | intro _ | apply issue_canon | apply State.raiseCv_canon | apply State.setMe_canon
        | apply State.advance_canon | apply canonN_next
    | dsimp only | split

/-! ## System -/

theorem execCsrr_canon (f : Fields) (s : State) (h : s.Canon) :
    CanonN (execCsrr f s) := by
  unfold execCsrr
  repeat' first
    | with_reducible first
        | assumption | intro _ | apply issue_canon | apply State.chargeCtx_canon | apply State.setS_canon
        | apply State.advance_canon | apply canonN_next
    | dsimp only | split

theorem State.setContextReg_canon (s : State) (c n : Nat) (v : W64) (h : s.Canon) :
    (State.setContextReg s c n v).Canon := by
  unfold State.setContextReg
  repeat' first
    | with_reducible first
        | assumption | intro _ | apply State.setCtx_canon
    | dsimp only | split | dsimp only [State.Canon]

theorem execCsrw_canon (f : Fields) (s : State) (h : s.Canon) :
    CanonN (execCsrw f s) := by
  unfold execCsrw
  repeat' first
    | with_reducible first
        | assumption | intro _ | apply issue_canon | apply State.setMe_canon | apply State.advance_canon
        | apply State.setCtx_canon | apply canonN_next
    | dsimp only | split

theorem State.csrwDone_canon (s : State) (c : Nat) (h : s.Canon) :
    (State.csrwDone s c).Canon := by
  unfold State.csrwDone
  repeat' first
    | with_reducible first
        | assumption | apply State.setCtx_canon | apply State.setContextReg_canon | apply State.setCv_canon
        | apply canon_fst (by assumption) | apply canon_snd (by assumption)
    | dsimp only | split

theorem execContextRegisterWriteComplete_canon (c : Nat) (s : State) (h : s.Canon) :
    CanonN (execContextRegisterWriteComplete c s) := by
  unfold execContextRegisterWriteComplete
  repeat' first | with_reducible (first | assumption | apply State.csrwDone_canon | apply canonN_next) | dsimp only

theorem execRegisterWrite_canon (va x : BitVec 64) (s : State) (h : s.Canon) :
    CanonN (execRegisterWrite va x s) := by
  unfold execRegisterWrite
  repeat' first | with_reducible (first | assumption | apply State.regAccess_canon | apply canonN_next) | dsimp only | split

theorem State.wakePark_canon (s : State) (p : Park) (f : State → State) (h : s.Canon) (hf : ∀ x, x.Canon → (f x).Canon) :
    (State.wakePark s p f).Canon := by
  unfold State.wakePark
  repeat' first
    | with_reducible first
        | assumption | intro _ | apply State.setCv_canon | apply State.settle_canon | apply hf
    | dsimp only | split

theorem State.wakeSlice_canon (s : State) (p : Park) (h : s.Canon) :
    (State.wakeSlice s p).Canon := by
  unfold State.wakeSlice
  repeat' first | with_reducible (first | assumption | apply State.setCv_canon) | dsimp only | split

theorem State.replayLanes_canon (s : State) (op : Nat) (rs : List Req) (h : s.Canon) :
    (State.replayLanes s op rs).Canon := by
  unfold State.replayLanes
  repeat' first
    | with_reducible first
        | assumption | apply State.serveOp_canon | apply canon_fst (by assumption) | apply canon_snd (by assumption)
        | apply canon_some (by assumption)
    | dsimp only | split

theorem State.releasePark_canon (s : State) (p : Park) (h : s.Canon) :
    (State.releasePark s p).Canon := by
  unfold State.releasePark
  repeat' first
    | with_reducible first
        | assumption | intro _ | apply State.wakeSlice_canon | apply State.replayLanes_canon | apply State.wakePark_canon
        | apply State.unhold_canon | apply State.setExecutor_canon | apply State.setCtx_canon
        | apply State.writeTrapRecord_canon | apply State.newRequest_canon | apply State.newMarker_canon
        | apply canon_fst (by assumption) | apply canon_snd (by assumption) | apply canon_id
    | dsimp only | split

theorem State.replayPark_canon (s : State) (c kind id park : Nat) (h : s.Canon) :
    (State.replayPark s c kind id park).1.Canon := by
  unfold State.replayPark
  repeat' first
    | with_reducible first
        | assumption | intro _ | apply State.releasePark_canon | apply canon_fst (by assumption)
        | apply canon_snd (by assumption) | apply canon_some (by assumption) | apply canon_id
    | dsimp only | split

theorem execReplay_canon (f : Fields) (s : State) (h : s.Canon) :
    CanonN (execReplay f s) := by
  unfold execReplay
  repeat' first
    | with_reducible first
        | assumption | intro _ | apply issue_canon | apply State.raiseCv_canon | apply State.withRelease_canon
        | apply State.advance_canon | apply State.replayPark_canon | apply State.asAgent_canon | apply State.setS_canon
        | apply canon_fst (by assumption) | apply canon_snd (by assumption) | apply canonN_next
    | dsimp only | split

theorem State.serveDoorbell_canon (s : State) (node : BitVec 16) (sctx : BitVec 8) (w : BitVec 128) (h : s.Canon) :
    (State.serveDoorbell s node sctx w).Canon := by
  unfold State.serveDoorbell
  repeat' first
    | with_reducible first
        | assumption | apply State.admits_canon | apply State.replayPark_canon | apply canon_fst (by assumption)
        | apply canon_snd (by assumption)
    | dsimp only | split

theorem execReplayDoorbell_canon (node : BitVec 16) (sctx : BitVec 8) (w : BitVec 128) (s : State) (h : s.Canon) :
    CanonN (execReplayDoorbell node sctx w s) := by
  unfold execReplayDoorbell
  repeat' first
    | with_reducible first
        | assumption | intro _ | apply State.waitId_canon | apply State.serveWaiting_canon | apply State.serveDoorbell_canon
        | apply canon_fst (by assumption) | apply canon_snd (by assumption) | apply canon_id | apply canonN_next
    | dsimp only | split

theorem State.dropTranslations_canon (s : State) (asid : BitVec 16) (lo hi : Nat) (h : s.Canon) :
    (State.dropTranslations s asid lo hi).Canon := by
  unfold State.dropTranslations
  repeat' first | with_reducible (first | assumption | intro _ | apply State.region_canon) | dsimp only

theorem State.flushRange_canon (s : State) (asid : BitVec 16) (lo hi : Nat) (h : s.Canon) :
    (State.flushRange s asid lo hi).Canon := by
  unfold State.flushRange
  repeat' first
    | with_reducible first
        | assumption | intro _ | apply State.cleanL1_canon | apply State.dropL1_canon | apply State.flushL2_canon
        | apply State.flushExt_canon | apply State.mscOut_canon | apply foldl_canon | apply foldl_fst_canon
        | apply canon_fst (by assumption) | apply canon_snd (by assumption)
    | dsimp only | split

theorem execTlbinv_canon (f : Fields) (s : State) (h : s.Canon) :
    CanonN (execTlbinv f s) := by
  unfold execTlbinv
  repeat' first
    | with_reducible first
        | assumption | intro _ | apply issue_canon | apply State.raiseCv_canon | apply State.acquire_canon
        | apply State.advance_canon | apply State.setMe_canon | apply canonN_next
    | dsimp only | split

theorem execTlbinvComplete_canon (core slot : Nat) (s : State) (h : s.Canon) :
    CanonN (execTlbinvComplete core slot s) := by
  unfold execTlbinvComplete
  repeat' first
    | with_reducible first
        | assumption | intro _ | apply State.dropTranslations_canon | apply State.flushRange_canon | apply State.setCv_canon
        | apply State.asAgent_canon | apply State.acquire_canon | apply State.retryQueues_canon
        | apply canon_fst (by assumption) | apply canon_snd (by assumption) | apply canonN_next
    | dsimp only | split

theorem execEvpost_canon (f : Fields) (s : State) (h : s.Canon) :
    CanonN (execEvpost f s) := by
  unfold execEvpost
  repeat' first
    | with_reducible first
        | assumption | intro _ | apply issue_canon | apply State.withRelease_canon | apply State.event_canon
        | apply State.advance_canon | apply canonN_next
    | dsimp only

theorem State.pieces_canon (s : State) (u : User) (pl : Place) (va k : Nat) (e0 : Nat) (h : s.Canon) :
    (State.pieces s u pl va k e0).1.Canon := by
  induction e0 generalizing s u pl va k with
  | zero =>
    unfold State.pieces
    repeat' first
      | with_reducible first
          | assumption | apply State.askChecked_canon | apply canon_fst (by assumption) | apply canon_snd (by assumption)
      | dsimp only | split
  | succ _ ih =>
    unfold State.pieces
    repeat' first
      | with_reducible first
          | assumption | apply ih | apply State.askChecked_canon | apply canon_fst (by assumption)
          | apply canon_snd (by assumption)
      | dsimp only | split

theorem State.putPieces_canon (s : State) (u : User) (pl : Place) (va k : Nat) (e0 : Nat) (e1 : Nat) (h : s.Canon) :
    (State.putPieces s u pl va k e0 e1).1.Canon := by
  induction e0 generalizing s u pl va k e1 with
  | zero =>
    unfold State.putPieces
    repeat' first
      | with_reducible first
          | assumption | apply State.askChecked_canon | apply canon_fst (by assumption) | apply canon_snd (by assumption)
          | apply canon_some (by assumption)
      | dsimp only | split
  | succ _ ih =>
    unfold State.putPieces
    repeat' first
      | with_reducible first
          | assumption | apply ih | apply State.askChecked_canon | apply canon_fst (by assumption)
          | apply canon_snd (by assumption) | apply canon_some (by assumption)
      | dsimp only | split

theorem State.launchFails_canon (s : State) (akind : Nat) (p : Nat × Res) (h : s.Canon) :
    (State.launchFails s akind p).Canon := by
  unfold State.launchFails
  repeat' first
    | with_reducible first
        | assumption | apply State.parkCaravan_canon | apply State.failAll_canon | apply canon_fst (by assumption)
        | apply canon_snd (by assumption)
    | dsimp only | split

theorem State.launchCheck_canon (s : State) (va k : Nat) (h : s.Canon) :
    (State.launchCheck s va k).1.Canon := by
  unfold State.launchCheck
  repeat' first
    | with_reducible first
        | assumption | apply State.checkedAccess_canon | apply canon_fst (by assumption) | apply canon_snd (by assumption)
        | apply canon_some (by assumption)
    | dsimp only | split

theorem State.launchNow_canon (s : State) (f : Fields) (qn : Nat) (q : LaunchQ) (idx record : Nat) (relay : Bool) (h : s.Canon) :
    (State.launchNow s f qn q idx record relay).Canon := by
  unfold State.launchNow
  repeat' first
    | with_reducible first
        | assumption | apply State.putPieces_canon | apply State.launchFails_canon | apply State.setCtx_canon
        | apply State.setS_canon | apply State.advance_canon | apply canon_fst (by assumption)
        | apply canon_snd (by assumption) | apply canon_some (by assumption)
    | dsimp only | split

theorem State.launch_canon (s : State) (f : Fields) (qn src : Nat) (relay : Bool) (h : s.Canon) :
    (State.launch s f qn src relay).Canon := by
  unfold State.launch
  repeat' first
    | with_reducible first
        | assumption | apply State.pieces_canon | apply State.launchFails_canon | apply State.block_canon
        | apply State.launchCheck_canon | apply State.launchNow_canon | apply canon_fst (by assumption)
        | apply canon_snd (by assumption) | apply canon_some (by assumption)
    | dsimp only | split

theorem execLaunch_canon (f : Fields) (s : State) (h : s.Canon) :
    CanonN (execLaunch f s) := by
  unfold execLaunch
  repeat' first
    | with_reducible first
        | assumption | intro _ | apply issue_canon | apply State.launch_canon | apply State.raiseCv_canon
        | apply State.withRelease_canon | apply State.orAway_canon | apply canonN_next
    | dsimp only | split

theorem execResume_canon (f : Fields) (s : State) (h : s.Canon) :
    CanonN (execResume f s) := by
  unfold execResume
  repeat' first
    | with_reducible first
        | assumption | intro _ | apply issue_canon | apply State.raiseCv_canon | apply State.setMe_canon | apply canonN_next
    | dsimp only | split

theorem execKill_canon (f : Fields) (s : State) (h : s.Canon) :
    CanonN (execKill f s) := by
  unfold execKill
  repeat' first
    | with_reducible first
        | assumption | intro _ | apply issue_canon | apply State.raiseCv_canon | apply State.advance_canon
        | apply State.setMe_canon | apply canonN_next
    | dsimp only | split

theorem execEnergyq_canon (f : Fields) (s : State) (h : s.Canon) :
    CanonN (execEnergyq f s) := by
  unfold execEnergyq
  repeat' first
    | with_reducible first
        | assumption | intro _ | apply issue_canon | apply State.chargeDie_canon | apply State.chargeCtx_canon
        | apply State.setS_canon | apply State.advance_canon | apply canonN_next
    | dsimp only | split

end Sys2Proof.Machine
end

