-- ==== Sys2Proof/Laws/Dispatch.lean ====
section
/-! SUPPORT. Each arm of exec as an equation, so that no proof unfolds the whole dispatch. -/

namespace Sys2Proof.Machine

theorem exec_nop (s : State) : ∀ f, exec (.nop f) s = execNop f s := fun _ => rfl
theorem exec_bra (s : State) : ∀ f, exec (.bra f) s = execBra f s := fun _ => rfl
theorem exec_brx (s : State) : ∀ f, exec (.brx f) s = execBrx f s := fun _ => rfl
theorem exec_brany (s : State) : ∀ f, exec (.brany f) s = execBrany f s := fun _ => rfl
theorem exec_brall (s : State) : ∀ f, exec (.brall f) s = execBrall f s := fun _ => rfl
theorem exec_call (s : State) : ∀ f, exec (.call f) s = execCall f s := fun _ => rfl
theorem exec_ret (s : State) : ∀ f, exec (.ret f) s = execRet f s := fun _ => rfl
theorem exec_reconv (s : State) : ∀ f, exec (.reconv f) s = execReconv f s := fun _ => rfl
theorem exec_exitI (s : State) : ∀ f, exec (.exitI f) s = execExitI f s := fun _ => rfl
theorem exec_yield (s : State) : ∀ f, exec (.yield f) s = execYield f s := fun _ => rfl
theorem exec_sleep (s : State) : ∀ f, exec (.sleep f) s = execSleep f s := fun _ => rfl
theorem exec_trap (s : State) : ∀ f, exec (.trap f) s = execTrap f s := fun _ => rfl
theorem exec_brk (s : State) : ∀ f, exec (.brk f) s = execBrk f s := fun _ => rfl
theorem exec_mskget (s : State) : ∀ f, exec (.mskget f) s = execMskget f s := fun _ => rfl
theorem exec_mskset (s : State) : ∀ f, exec (.mskset f) s = execMskset f s := fun _ => rfl
theorem exec_iadd (s : State) : ∀ f, exec (.iadd f) s = execIadd f s := fun _ => rfl
theorem exec_isub (s : State) : ∀ f, exec (.isub f) s = execIsub f s := fun _ => rfl
theorem exec_imul (s : State) : ∀ f, exec (.imul f) s = execImul f s := fun _ => rfl
theorem exec_imulh (s : State) : ∀ f, exec (.imulh f) s = execImulh f s := fun _ => rfl
theorem exec_imad (s : State) : ∀ f, exec (.imad f) s = execImad f s := fun _ => rfl
theorem exec_imin (s : State) : ∀ f, exec (.imin f) s = execImin f s := fun _ => rfl
theorem exec_imax (s : State) : ∀ f, exec (.imax f) s = execImax f s := fun _ => rfl
theorem exec_iabs (s : State) : ∀ f, exec (.iabs f) s = execIabs f s := fun _ => rfl
theorem exec_iaddc (s : State) : ∀ f, exec (.iaddc f) s = execIaddc f s := fun _ => rfl
theorem exec_isubb (s : State) : ∀ f, exec (.isubb f) s = execIsubb f s := fun _ => rfl
theorem exec_shl (s : State) : ∀ f, exec (.shl f) s = execShl f s := fun _ => rfl
theorem exec_shr (s : State) : ∀ f, exec (.shr f) s = execShr f s := fun _ => rfl
theorem exec_sar (s : State) : ∀ f, exec (.sar f) s = execSar f s := fun _ => rfl
theorem exec_rotl (s : State) : ∀ f, exec (.rotl f) s = execRotl f s := fun _ => rfl
theorem exec_andI (s : State) : ∀ f, exec (.andI f) s = execAndI f s := fun _ => rfl
theorem exec_orI (s : State) : ∀ f, exec (.orI f) s = execOrI f s := fun _ => rfl
theorem exec_xorI (s : State) : ∀ f, exec (.xorI f) s = execXorI f s := fun _ => rfl
theorem exec_andn (s : State) : ∀ f, exec (.andn f) s = execAndn f s := fun _ => rfl
theorem exec_notI (s : State) : ∀ f, exec (.notI f) s = execNotI f s := fun _ => rfl
theorem exec_ttab (s : State) : ∀ f, exec (.ttab f) s = execTtab f s := fun _ => rfl
theorem exec_bfe (s : State) : ∀ f, exec (.bfe f) s = execBfe f s := fun _ => rfl
theorem exec_bfi (s : State) : ∀ f, exec (.bfi f) s = execBfi f s := fun _ => rfl
theorem exec_popc (s : State) : ∀ f, exec (.popc f) s = execPopc f s := fun _ => rfl
theorem exec_clz (s : State) : ∀ f, exec (.clz f) s = execClz f s := fun _ => rfl
theorem exec_brev (s : State) : ∀ f, exec (.brev f) s = execBrev f s := fun _ => rfl
theorem exec_prmt (s : State) : ∀ f, exec (.prmt f) s = execPrmt f s := fun _ => rfl
theorem exec_iset (s : State) : ∀ f, exec (.iset f) s = execIset f s := fun _ => rfl
theorem exec_iadd64 (s : State) : ∀ f, exec (.iadd64 f) s = execIadd64 f s := fun _ => rfl
theorem exec_imad64 (s : State) : ∀ f, exec (.imad64 f) s = execImad64 f s := fun _ => rfl
theorem exec_sel (s : State) : ∀ f, exec (.sel f) s = execSel f s := fun _ => rfl
theorem exec_mov (s : State) : ∀ f, exec (.mov f) s = execMov f s := fun _ => rfl
theorem exec_movi (s : State) : ∀ f, exec (.movi f) s = execMovi f s := fun _ => rfl
theorem exec_fadd (s : State) : ∀ f, exec (.fadd f) s = execFadd f s := fun _ => rfl
theorem exec_fmul (s : State) : ∀ f, exec (.fmul f) s = execFmul f s := fun _ => rfl
theorem exec_ffma (s : State) : ∀ f, exec (.ffma f) s = execFfma f s := fun _ => rfl
theorem exec_fmin (s : State) : ∀ f, exec (.fmin f) s = execFmin f s := fun _ => rfl
theorem exec_fmax (s : State) : ∀ f, exec (.fmax f) s = execFmax f s := fun _ => rfl
theorem exec_fset (s : State) : ∀ f, exec (.fset f) s = execFset f s := fun _ => rfl
theorem exec_frcp (s : State) : ∀ f, exec (.frcp f) s = execFrcp f s := fun _ => rfl
theorem exec_frsq (s : State) : ∀ f, exec (.frsq f) s = execFrsq f s := fun _ => rfl
theorem exec_fsqrt (s : State) : ∀ f, exec (.fsqrt f) s = execFsqrt f s := fun _ => rfl
theorem exec_fex2 (s : State) : ∀ f, exec (.fex2 f) s = execFex2 f s := fun _ => rfl
theorem exec_flg2 (s : State) : ∀ f, exec (.flg2 f) s = execFlg2 f s := fun _ => rfl
theorem exec_frnd (s : State) : ∀ f, exec (.frnd f) s = execFrnd f s := fun _ => rfl
theorem exec_fscl (s : State) : ∀ f, exec (.fscl f) s = execFscl f s := fun _ => rfl
theorem exec_fclass (s : State) : ∀ f, exec (.fclass f) s = execFclass f s := fun _ => rfl
theorem exec_dadd (s : State) : ∀ f, exec (.dadd f) s = execDadd f s := fun _ => rfl
theorem exec_dmul (s : State) : ∀ f, exec (.dmul f) s = execDmul f s := fun _ => rfl
theorem exec_dfma (s : State) : ∀ f, exec (.dfma f) s = execDfma f s := fun _ => rfl
theorem exec_dmin (s : State) : ∀ f, exec (.dmin f) s = execDmin f s := fun _ => rfl
theorem exec_dmax (s : State) : ∀ f, exec (.dmax f) s = execDmax f s := fun _ => rfl
theorem exec_dset (s : State) : ∀ f, exec (.dset f) s = execDset f s := fun _ => rfl
theorem exec_pkadd (s : State) : ∀ f, exec (.pkadd f) s = execPkadd f s := fun _ => rfl
theorem exec_pkmul (s : State) : ∀ f, exec (.pkmul f) s = execPkmul f s := fun _ => rfl
theorem exec_pkfma (s : State) : ∀ f, exec (.pkfma f) s = execPkfma f s := fun _ => rfl
theorem exec_pkset (s : State) : ∀ f, exec (.pkset f) s = execPkset f s := fun _ => rfl
theorem exec_cvt (s : State) : ∀ f, exec (.cvt f) s = execCvt f s := fun _ => rfl
theorem exec_cvtsi (s : State) : ∀ f, exec (.cvtsi f) s = execCvtsi f s := fun _ => rfl
theorem exec_cvtdx (s : State) : ∀ f, exec (.cvtdx f) s = execCvtdx f s := fun _ => rfl
theorem exec_plop (s : State) : ∀ f, exec (.plop f) s = execPlop f s := fun _ => rfl
theorem exec_pmov (s : State) : ∀ f, exec (.pmov f) s = execPmov f s := fun _ => rfl
theorem exec_ballot (s : State) : ∀ f, exec (.ballot f) s = execBallot f s := fun _ => rfl
theorem exec_vote (s : State) : ∀ f, exec (.vote f) s = execVote f s := fun _ => rfl
theorem exec_laneid (s : State) : ∀ f, exec (.laneid f) s = execLaneid f s := fun _ => rfl
theorem exec_shfl (s : State) : ∀ f, exec (.shfl f) s = execShfl f s := fun _ => rfl
theorem exec_redux (s : State) : ∀ f, exec (.redux f) s = execRedux f s := fun _ => rfl
theorem exec_scan (s : State) : ∀ f, exec (.scan f) s = execScan f s := fun _ => rfl
theorem exec_matchLanes (s : State) : ∀ f, exec (.matchLanes f) s = execMatchLanes f s := fun _ => rfl
theorem exec_firstLane (s : State) : ∀ f, exec (.firstLane f) s = execFirstLane f s := fun _ => rfl
theorem exec_smov (s : State) : ∀ f, exec (.smov f) s = execSmov f s := fun _ => rfl
theorem exec_smovi (s : State) : ∀ f, exec (.smovi f) s = execSmovi f s := fun _ => rfl
theorem exec_sadd (s : State) : ∀ f, exec (.sadd f) s = execSadd f s := fun _ => rfl
theorem exec_ssub (s : State) : ∀ f, exec (.ssub f) s = execSsub f s := fun _ => rfl
theorem exec_smul (s : State) : ∀ f, exec (.smul f) s = execSmul f s := fun _ => rfl
theorem exec_sand (s : State) : ∀ f, exec (.sand f) s = execSand f s := fun _ => rfl
theorem exec_sor (s : State) : ∀ f, exec (.sor f) s = execSor f s := fun _ => rfl
theorem exec_sxor (s : State) : ∀ f, exec (.sxor f) s = execSxor f s := fun _ => rfl
theorem exec_sshl (s : State) : ∀ f, exec (.sshl f) s = execSshl f s := fun _ => rfl
theorem exec_sshr (s : State) : ∀ f, exec (.sshr f) s = execSshr f s := fun _ => rfl
theorem exec_sset (s : State) : ∀ f, exec (.sset f) s = execSset f s := fun _ => rfl
theorem exec_ssel (s : State) : ∀ f, exec (.ssel f) s = execSsel f s := fun _ => rfl
theorem exec_sld (s : State) : ∀ f, exec (.sld f) s = execSld f s := fun _ => rfl
theorem exec_sst (s : State) : ∀ f, exec (.sst f) s = execSst f s := fun _ => rfl
theorem exec_s2v (s : State) : ∀ f, exec (.s2v f) s = execS2v f s := fun _ => rfl
theorem exec_v2s (s : State) : ∀ f, exec (.v2s f) s = execV2s f s := fun _ => rfl
theorem exec_ld (s : State) : ∀ f, exec (.ld f) s = execLd f s := fun _ => rfl
theorem exec_st (s : State) : ∀ f, exec (.st f) s = execSt f s := fun _ => rfl
theorem exec_ldl (s : State) : ∀ f, exec (.ldl f) s = execLdl f s := fun _ => rfl
theorem exec_stl (s : State) : ∀ f, exec (.stl f) s = execStl f s := fun _ => rfl
theorem exec_ldw (s : State) : ∀ f, exec (.ldw f) s = execLdw f s := fun _ => rfl
theorem exec_stw (s : State) : ∀ f, exec (.stw f) s = execStw f s := fun _ => rfl
theorem exec_ldr (s : State) : ∀ f, exec (.ldr f) s = execLdr f s := fun _ => rfl
theorem exec_atom (s : State) : ∀ f, exec (.atom f) s = execAtom f s := fun _ => rfl
theorem exec_red (s : State) : ∀ f, exec (.red f) s = execRed f s := fun _ => rfl
theorem exec_cas (s : State) : ∀ f, exec (.cas f) s = execCas f s := fun _ => rfl
theorem exec_mdld (s : State) : ∀ f, exec (.mdld f) s = execMdld f s := fun _ => rfl
theorem exec_mdst (s : State) : ∀ f, exec (.mdst f) s = execMdst f s := fun _ => rfl
theorem exec_prf (s : State) : ∀ f, exec (.prf f) s = execPrf f s := fun _ => rfl
theorem exec_cctl (s : State) : ∀ f, exec (.cctl f) s = execCctl f s := fun _ => rfl
theorem exec_ldq (s : State) : ∀ f, exec (.ldq f) s = execLdq f s := fun _ => rfl
theorem exec_region (s : State) : ∀ f, exec (.region f) s = execRegion f s := fun _ => rfl
theorem exec_fence (s : State) : ∀ f, exec (.fence f) s = execFence f s := fun _ => rfl
theorem exec_rel (s : State) : ∀ f, exec (.rel f) s = execRel f s := fun _ => rfl
theorem exec_acq (s : State) : ∀ f, exec (.acq f) s = execAcq f s := fun _ => rfl
theorem exec_waitc (s : State) : ∀ f, exec (.waitc f) s = execWaitc f s := fun _ => rfl
theorem exec_mark (s : State) : ∀ f, exec (.mark f) s = execMark f s := fun _ => rfl
theorem exec_barinit (s : State) : ∀ f, exec (.barinit f) s = execBarinit f s := fun _ => rfl
theorem exec_bararv (s : State) : ∀ f, exec (.bararv f) s = execBararv f s := fun _ => rfl
theorem exec_barexp (s : State) : ∀ f, exec (.barexp f) s = execBarexp f s := fun _ => rfl
theorem exec_barwait (s : State) : ∀ f, exec (.barwait f) s = execBarwait f s := fun _ => rfl
theorem exec_bartest (s : State) : ∀ f, exec (.bartest f) s = execBartest f s := fun _ => rfl
theorem exec_join (s : State) : ∀ f, exec (.join f) s = execJoin f s := fun _ => rfl
theorem exec_leave (s : State) : ∀ f, exec (.leave f) s = execLeave f s := fun _ => rfl
theorem exec_partyq (s : State) : ∀ f, exec (.partyq f) s = execPartyq f s := fun _ => rfl
theorem exec_spawn (s : State) : ∀ f, exec (.spawn f) s = execSpawn f s := fun _ => rfl
theorem exec_termq (s : State) : ∀ f, exec (.termq f) s = execTermq f s := fun _ => rfl
theorem exec_accalloc (s : State) : ∀ f, exec (.accalloc f) s = execAccalloc f s := fun _ => rfl
theorem exec_accfree (s : State) : ∀ f, exec (.accfree f) s = execAccfree f s := fun _ => rfl
theorem exec_tdef (s : State) : ∀ f, exec (.tdef f) s = execTdef f s := fun _ => rfl
theorem exec_tfree (s : State) : ∀ f, exec (.tfree f) s = execTfree f s := fun _ => rfl
theorem exec_tstat (s : State) : ∀ f, exec (.tstat f) s = execTstat f s := fun _ => rfl
theorem exec_tld (s : State) : ∀ f, exec (.tld f) s = execTld f s := fun _ => rfl
theorem exec_tst (s : State) : ∀ f, exec (.tst f) s = execTst f s := fun _ => rfl
theorem exec_cpl (s : State) : ∀ f, exec (.cpl f) s = execCpl f s := fun _ => rfl
theorem exec_cpt (s : State) : ∀ f, exec (.cpt f) s = execCpt f s := fun _ => rfl
theorem exec_cpq (s : State) : ∀ f, exec (.cpq f) s = execCpq f s := fun _ => rfl
theorem exec_cpo (s : State) : ∀ f, exec (.cpo f) s = execCpo f s := fun _ => rfl
theorem exec_qclose (s : State) : ∀ f, exec (.qclose f) s = execQclose f s := fun _ => rfl
theorem exec_qstat (s : State) : ∀ f, exec (.qstat f) s = execQstat f s := fun _ => rfl
theorem exec_mma (s : State) : ∀ f, exec (.mma f) s = execMma f s := fun _ => rfl
theorem exec_mmas (s : State) : ∀ f, exec (.mmas f) s = execMmas f s := fun _ => rfl
theorem exec_mmx (s : State) : ∀ f, exec (.mmx f) s = execMmx f s := fun _ => rfl
theorem exec_msca (s : State) : ∀ f, exec (.msca f) s = execMsca f s := fun _ => rfl
theorem exec_msl (s : State) : ∀ f, exec (.msl f) s = execMsl f s := fun _ => rfl
theorem exec_mzero (s : State) : ∀ f, exec (.mzero f) s = execMzero f s := fun _ => rfl
theorem exec_mlda (s : State) : ∀ f, exec (.mlda f) s = execMlda f s := fun _ => rfl
theorem exec_mcvt (s : State) : ∀ f, exec (.mcvt f) s = execMcvt f s := fun _ => rfl
theorem exec_mstat (s : State) : ∀ f, exec (.mstat f) s = execMstat f s := fun _ => rfl
theorem exec_coll (s : State) : ∀ f, exec (.coll f) s = execColl f s := fun _ => rfl
theorem exec_collDone (s : State) : ∀ f, exec (.collDone f) s = execCollDone f s := fun _ => rfl
theorem exec_rld (s : State) : ∀ f, exec (.rld f) s = execRld f s := fun _ => rfl
theorem exec_rst (s : State) : ∀ f, exec (.rst f) s = execRst f s := fun _ => rfl
theorem exec_rstBlk (s : State) : ∀ f, exec (.rstBlk f) s = execRstBlk f s := fun _ => rfl
theorem exec_rred (s : State) : ∀ f, exec (.rred f) s = execRred f s := fun _ => rfl
theorem exec_ratom (s : State) : ∀ f, exec (.ratom f) s = execRatom f s := fun _ => rfl
theorem exec_vmask (s : State) : ∀ f, exec (.vmask f) s = execVmask f s := fun _ => rfl
theorem exec_vrsc (s : State) : ∀ f, exec (.vrsc f) s = execVrsc f s := fun _ => rfl
theorem exec_msv (s : State) : ∀ f, exec (.msv f) s = execMsv f s := fun _ => rfl
theorem exec_gangq (s : State) : ∀ f, exec (.gangq f) s = execGangq f s := fun _ => rfl
theorem exec_gangack (s : State) : ∀ f, exec (.gangack f) s = execGangack f s := fun _ => rfl
theorem exec_xmodeStep1 (s : State) : ∀ f, exec (.xmodeStep1 f) s = execXmodeStep1 f s := fun _ => rfl
theorem exec_xmodeStep2 (s : State) : ∀ f, exec (.xmodeStep2 f) s = execXmodeStep2 f s := fun _ => rfl
theorem exec_xmodeStep3 (s : State) : ∀ f, exec (.xmodeStep3 f) s = execXmodeStep3 f s := fun _ => rfl
theorem exec_xmodeExit (s : State) : ∀ f, exec (.xmodeExit f) s = execXmodeExit f s := fun _ => rfl
theorem exec_xprog (s : State) : ∀ f, exec (.xprog f) s = execXprog f s := fun _ => rfl
theorem exec_xcol (s : State) : ∀ f, exec (.xcol f) s = execXcol f s := fun _ => rfl
theorem exec_xread (s : State) : ∀ f, exec (.xread f) s = execXread f s := fun _ => rfl
theorem exec_xstat (s : State) : ∀ f, exec (.xstat f) s = execXstat f s := fun _ => rfl
theorem exec_xreset (s : State) : ∀ f, exec (.xreset f) s = execXreset f s := fun _ => rfl
theorem exec_afor (s : State) : ∀ f, exec (.afor f) s = execAfor f s := fun _ => rfl
theorem exec_aend (s : State) : ∀ f, exec (.aend f) s = execAend f s := fun _ => rfl
theorem exec_qpush (s : State) : ∀ f, exec (.qpush f) s = execQpush f s := fun _ => rfl
theorem exec_await (s : State) : ∀ f, exec (.await f) s = execAwait f s := fun _ => rfl
theorem exec_csrr (s : State) : ∀ f, exec (.csrr f) s = execCsrr f s := fun _ => rfl
theorem exec_csrw (s : State) : ∀ f, exec (.csrw f) s = execCsrw f s := fun _ => rfl
theorem exec_replay (s : State) : ∀ f, exec (.replay f) s = execReplay f s := fun _ => rfl
theorem exec_tlbinv (s : State) : ∀ f, exec (.tlbinv f) s = execTlbinv f s := fun _ => rfl
theorem exec_evpost (s : State) : ∀ f, exec (.evpost f) s = execEvpost f s := fun _ => rfl
theorem exec_launch (s : State) : ∀ f, exec (.launch f) s = execLaunch f s := fun _ => rfl
theorem exec_resume (s : State) : ∀ f, exec (.resume f) s = execResume f s := fun _ => rfl
theorem exec_kill (s : State) : ∀ f, exec (.kill f) s = execKill f s := fun _ => rfl
theorem exec_ctxopCreate (s : State) : ∀ f, exec (.ctxopCreate f) s = execCtxopCreate f s := fun _ => rfl
theorem exec_ctxopActivate (s : State) : ∀ f, exec (.ctxopActivate f) s = execCtxopActivate f s := fun _ => rfl
theorem exec_ctxopPreempt (s : State) : ∀ f, exec (.ctxopPreempt f) s = execCtxopPreempt f s := fun _ => rfl
theorem exec_ctxopRestore (s : State) : ∀ f, exec (.ctxopRestore f) s = execCtxopRestore f s := fun _ => rfl
theorem exec_ctxopReset (s : State) : ∀ f, exec (.ctxopReset f) s = execCtxopReset f s := fun _ => rfl
theorem exec_ctxopDestroy (s : State) : ∀ f, exec (.ctxopDestroy f) s = execCtxopDestroy f s := fun _ => rfl
theorem exec_ctxopQuery (s : State) : ∀ f, exec (.ctxopQuery f) s = execCtxopQuery f s := fun _ => rfl
theorem exec_ctxopModify (s : State) : ∀ f, exec (.ctxopModify f) s = execCtxopModify f s := fun _ => rfl
theorem exec_energyq (s : State) : ∀ f, exec (.energyq f) s = execEnergyq f s := fun _ => rfl
theorem exec_execNop (s : State) : exec .execNop s = execExecNop s := rfl
theorem exec_latch (s : State) : ∀ r, exec (.latch r) s = execLatch r s := fun _ => rfl
theorem exec_store (s : State) : ∀ r, exec (.store r) s = execStore r s := fun _ => rfl
theorem exec_setk (s : State) : ∀ sel v, exec (.setk sel v) s = execSetk sel v s := fun _ _ => rfl
theorem exec_setm (s : State) : ∀ sel v, exec (.setm sel v) s = execSetm sel v s := fun _ _ => rfl
theorem exec_shk (s : State) : ∀ d n, exec (.shk d n) s = execShk d n s := fun _ _ => rfl
theorem exec_cmp (s : State) : ∀ v, exec (.cmp v) s = execCmp v s := fun _ => rfl
theorem exec_cmpa (s : State) : ∀ v, exec (.cmpa v) s = execCmpa v s := fun _ => rfl
theorem exec_cmpo (s : State) : ∀ v, exec (.cmpo v) s = execCmpo v s := fun _ => rfl
theorem exec_tnot (s : State) : ∀ v, exec (.tnot v) s = execTnot v s := fun _ => rfl
theorem exec_wr (s : State) : ∀ v, exec (.wr v) s = execWr v s := fun _ => rfl
theorem exec_wrn (s : State) : ∀ v, exec (.wrn v) s = execWrn v s := fun _ => rfl
theorem exec_tsave (s : State) : ∀ f, exec (.tsave f) s = execTsave f s := fun _ => rfl
theorem exec_tload (s : State) : ∀ f, exec (.tload f) s = execTload f s := fun _ => rfl
theorem exec_tshf (s : State) : ∀ v d n, exec (.tshf v d n) s = execTshf v d n s := fun _ _ _ => rfl
theorem exec_tcnt (s : State) : ∀ v j, exec (.tcnt v j) s = execTcnt v j s := fun _ _ => rfl
theorem exec_tfst (s : State) : ∀ v j, exec (.tfst v j) s = execTfst v j s := fun _ _ => rfl
theorem exec_rdw (s : State) : ∀ j w, exec (.rdw j w) s = execRdw j w s := fun _ _ => rfl
theorem exec_rdwF (s : State) : ∀ j v, exec (.rdwF j v) s = execRdwF j v s := fun _ _ => rfl
theorem exec_xout (s : State) : ∀ w, exec (.xout w) s = execXout w s := fun _ => rfl
theorem exec_xin (s : State) : ∀ b w, exec (.xin b w) s = execXin b w s := fun _ _ => rfl
theorem exec_execRel (s : State) : ∀ sel, exec (.execRel sel) s = execExecRel sel s := fun _ => rfl
theorem exec_execAcq (s : State) : ∀ sel, exec (.execAcq sel) s = execExecAcq sel s := fun _ => rfl
theorem exec_execFence (s : State) : ∀ sel, exec (.execFence sel) s = execExecFence sel s := fun _ => rfl
theorem exec_loop (s : State) : ∀ t, exec (.loop t) s = execLoop t s := fun _ => rfl
theorem exec_setc (s : State) : ∀ n, exec (.setc n) s = execSetc n s := fun _ => rfl
theorem exec_halt (s : State) : exec .halt s = execHalt s := rfl
theorem exec_rtag (s : State) : ∀ v, exec (.rtag v) s = execRtag v s := fun _ => rfl
theorem exec_xmodeOtherWord (s : State) : ∀ f, exec (.xmodeOtherWord f) s = execXmodeOtherWord f s := fun _ => rfl
theorem exec_illegalWord (s : State) : ∀ w, exec (.illegalWord w) s = execIllegalWord w s := fun _ => rfl
theorem exec_advance (s : State) : ∀ ch, exec (.advance ch) s = execAdvance ch s := fun _ => rfl
theorem exec_deviceReset (s : State) : exec .deviceReset s = execDeviceReset s := rfl
theorem exec_boot (s : State) : ∀ valid counter, exec (.boot valid counter) s = execBoot valid counter s := fun _ _ => rfl
theorem exec_repairStep (s : State) : exec .repairStep s = execRepairStep s := rfl
theorem exec_mapStep (s : State) : exec .mapStep s = execMapStep s := rfl
theorem exec_measure (s : State) : exec .measure s = execMeasure s := rfl
theorem exec_links (s : State) : exec .links s = execLinks s := rfl
theorem exec_nodeidAssigned (s : State) : ∀ id, exec (.nodeidAssigned id) s = execNodeidAssigned id s := fun _ => rfl
theorem exec_systemStep (s : State) : exec .systemStep s = execSystemStep s := rfl
theorem exec_drained (s : State) : ∀ c, exec (.drained c) s = execDrained c s := fun _ => rfl
theorem exec_d1Expires (s : State) : ∀ c, exec (.d1Expires c) s = execD1Expires c s := fun _ => rfl
theorem exec_d2Expires (s : State) : ∀ c, exec (.d2Expires c) s = execD2Expires c s := fun _ => rfl
theorem exec_saved (s : State) : ∀ c, exec (.saved c) s = execSaved c s := fun _ => rfl
theorem exec_saveFault (s : State) : ∀ c, exec (.saveFault c) s = execSaveFault c s := fun _ => rfl
theorem exec_restoreComplete (s : State) : ∀ c, exec (.restoreComplete c) s = execRestoreComplete c s := fun _ => rfl
theorem exec_resetDone (s : State) : ∀ c, exec (.resetDone c) s = execResetDone c s := fun _ => rfl
theorem exec_producerIndexObserved (s : State) : ∀ c q, exec (.producerIndexObserved c q) s = execProducerIndexObserved c q s :=
    fun _ _ => rfl
theorem exec_headRead (s : State) : ∀ c q, exec (.headRead c q) s = execHeadRead c q s := fun _ _ => rfl
theorem exec_admission (s : State) : ∀ c q, exec (.admission c q) s = execAdmission c q s := fun _ _ => rfl
theorem exec_dependenceReread (s : State) : ∀ c q, exec (.dependenceReread c q) s = execDependenceReread c q s :=
    fun _ _ => rfl
theorem exec_placement (s : State) : ∀ die, exec (.placement die) s = execPlacement die s := fun _ => rfl
theorem exec_stealRequest (s : State) : ∀ k thief victim, exec (.stealRequest k thief victim) s = execStealRequest k thief victim s :=
    fun _ _ _ => rfl
theorem exec_stealReply (s : State) : ∀ k thief, exec (.stealReply k thief) s = execStealReply k thief s := fun _ _ => rfl
theorem exec_remainingCount (s : State) : ∀ k src dst count, exec (.remainingCount k src dst count) s = execRemainingCount k src dst count s :=
    fun _ _ _ _ => rfl
theorem exec_spawnBinTimeout (s : State) : ∀ die bin, exec (.spawnBinTimeout die bin) s = execSpawnBinTimeout die bin s :=
    fun _ _ => rfl
theorem exec_zeroNotice (s : State) : ∀ k die, exec (.zeroNotice k die) s = execZeroNotice k die s := fun _ _ => rfl
theorem exec_quiescenceWave (s : State) : ∀ k, exec (.quiescenceWave k) s = execQuiescenceWave k s := fun _ => rfl
theorem exec_completionAction (s : State) : ∀ k, exec (.completionAction k) s = execCompletionAction k s := fun _ => rfl
theorem exec_controlIntervalBoundary (s : State) : exec .controlIntervalBoundary s = execControlIntervalBoundary s := rfl
theorem exec_priorityPromotion (s : State) : ∀ core slot, exec (.priorityPromotion core slot) s = execPriorityPromotion core slot s :=
    fun _ _ => rfl
theorem exec_yieldExpires (s : State) : ∀ core slot, exec (.yieldExpires core slot) s = execYieldExpires core slot s :=
    fun _ _ => rfl
theorem exec_sleepEnd (s : State) : ∀ core slot, exec (.sleepEnd core slot) s = execSleepEnd core slot s := fun _ _ => rfl
theorem exec_waitSatisfied (s : State) : ∀ core slot, exec (.waitSatisfied core slot) s = execWaitSatisfied core slot s :=
    fun _ _ => rfl
theorem exec_caravanExit (s : State) : ∀ core slot, exec (.caravanExit core slot) s = execCaravanExit core slot s :=
    fun _ _ => rfl
theorem exec_partyDeparture (s : State) : ∀ core slot, exec (.partyDeparture core slot) s = execPartyDeparture core slot s :=
    fun _ _ => rfl
theorem exec_accallocGrant (s : State) : ∀ core, exec (.accallocGrant core) s = execAccallocGrant core s := fun _ => rfl
theorem exec_copyBytesLand (s : State) : ∀ op, exec (.copyBytesLand op) s = execCopyBytesLand op s := fun _ => rfl
theorem exec_copyComplete (s : State) : ∀ op, exec (.copyComplete op) s = execCopyComplete op s := fun _ => rfl
theorem exec_sendComplete (s : State) : ∀ op, exec (.sendComplete op) s = execSendComplete op s := fun _ => rfl
theorem exec_queueEntryVisible (s : State) : ∀ core slot q, exec (.queueEntryVisible core slot q) s = execQueueEntryVisible core slot q s :=
    fun _ _ _ => rfl
theorem exec_heldRecordRetry (s : State) : ∀ c cons, exec (.heldRecordRetry c cons) s = execHeldRecordRetry c cons s :=
    fun _ _ => rfl
theorem exec_channelRequest (s : State) : ∀ op, exec (.channelRequest op) s = execChannelRequest op s := fun _ => rfl
theorem exec_rfmBlockEnd (s : State) : ∀ ch bank, exec (.rfmBlockEnd ch bank) s = execRfmBlockEnd ch bank s := fun _ _ => rfl
theorem exec_refreshWindowBoundary (s : State) : ∀ ch, exec (.refreshWindowBoundary ch) s = execRefreshWindowBoundary ch s :=
    fun _ => rfl
theorem exec_memoryReply (s : State) : ∀ op, exec (.memoryReply op) s = execMemoryReply op s := fun _ => rfl
theorem exec_releaseComplete (s : State) : ∀ core slot, exec (.releaseComplete core slot) s = execReleaseComplete core slot s :=
    fun _ _ => rfl
theorem exec_lineEviction (s : State) : ∀ core asid line, exec (.lineEviction core asid line) s = execLineEviction core asid line s :=
    fun _ _ _ => rfl
theorem exec_tlbinvComplete (s : State) : ∀ core slot, exec (.tlbinvComplete core slot) s = execTlbinvComplete core slot s :=
    fun _ _ => rfl
theorem exec_contextRegisterWriteComplete (s : State) : ∀ c, exec (.contextRegisterWriteComplete c) s = execContextRegisterWriteComplete c s :=
    fun _ => rfl
theorem exec_registerWrite (s : State) : ∀ va x, exec (.registerWrite va x) s = execRegisterWrite va x s := fun _ _ => rfl
theorem exec_replayDoorbell (s : State) : ∀ node sctx w, exec (.replayDoorbell node sctx w) s = execReplayDoorbell node sctx w s :=
    fun _ _ _ => rfl
theorem exec_extentGrant (s : State) : ∀ id node base size owner, exec (.extentGrant id node base size owner) s = execExtentGrant id node base size owner s :=
    fun _ _ _ _ _ => rfl
theorem exec_extentOrderlyRelease (s : State) : ∀ id, exec (.extentOrderlyRelease id) s = execExtentOrderlyRelease id s :=
    fun _ => rfl
theorem exec_extentForcedRelease (s : State) : ∀ id, exec (.extentForcedRelease id) s = execExtentForcedRelease id s :=
    fun _ => rfl
theorem exec_extentWritebackDone (s : State) : ∀ id, exec (.extentWritebackDone id) s = execExtentWritebackDone id s :=
    fun _ => rfl
theorem exec_armingTimeout (s : State) : ∀ ch, exec (.armingTimeout ch) s = execArmingTimeout ch s := fun _ => rfl
theorem exec_exitingComplete (s : State) : ∀ ch, exec (.exitingComplete ch) s = execExitingComplete ch s := fun _ => rfl
theorem exec_oboundExpires (s : State) : ∀ ch, exec (.oboundExpires ch) s = execOboundExpires ch s := fun _ => rfl
theorem exec_snapshotServed (s : State) : ∀ ch, exec (.snapshotServed ch) s = execSnapshotServed ch s := fun _ => rfl
theorem exec_flitCheckFail (s : State) : ∀ port flit, exec (.flitCheckFail port flit) s = execFlitCheckFail port flit s :=
    fun _ _ => rfl
theorem exec_retrainEntry (s : State) : ∀ port, exec (.retrainEntry port) s = execRetrainEntry port s := fun _ => rfl
theorem exec_trainingComplete (s : State) : ∀ port peer peerPort, exec (.trainingComplete port peer peerPort) s = execTrainingComplete port peer peerPort s :=
    fun _ _ _ => rfl
theorem exec_trainingFailed (s : State) : ∀ port, exec (.trainingFailed port) s = execTrainingFailed port s := fun _ => rfl
theorem exec_retrainTimeout (s : State) : ∀ port, exec (.retrainTimeout port) s = execRetrainTimeout port s := fun _ => rfl
theorem exec_lctlDisSet (s : State) : ∀ port, exec (.lctlDisSet port) s = execLctlDisSet port s := fun _ => rfl
theorem exec_lctlDisClear (s : State) : ∀ port, exec (.lctlDisClear port) s = execLctlDisClear port s := fun _ => rfl
theorem exec_remoteRequest (s : State) : ∀ r, exec (.remoteRequest r) s = execRemoteRequest r s := fun _ => rfl
theorem exec_remoteReply (s : State) : ∀ op lane out data, exec (.remoteReply op lane out data) s = execRemoteReply op lane out data s :=
    fun _ _ _ _ => rfl
theorem exec_parkedNotice (s : State) : ∀ op lane, exec (.parkedNotice op lane) s = execParkedNotice op lane s :=
    fun _ _ => rfl
theorem exec_fabricTimeout (s : State) : ∀ op lane, exec (.fabricTimeout op lane) s = execFabricTimeout op lane s :=
    fun _ _ => rfl
theorem exec_peerContextReset (s : State) : ∀ c comm, exec (.peerContextReset c comm) s = execPeerContextReset c comm s :=
    fun _ _ => rfl
theorem exec_lossyBlock (s : State) : ∀ port b, exec (.lossyBlock port b) s = execLossyBlock port b s := fun _ _ => rfl
theorem exec_endMarker (s : State) : ∀ m, exec (.endMarker m) s = execEndMarker m s := fun _ => rfl
theorem exec_nodeReset (s : State) : ∀ node, exec (.nodeReset node) s = execNodeReset node s := fun _ => rfl
theorem exec_gangQuery (s : State) : ∀ c comm, exec (.gangQuery c comm) s = execGangQuery c comm s := fun _ _ => rfl
theorem exec_pause (s : State) : ∀ c comm cstar, exec (.pause c comm cstar) s = execPause c comm cstar s := fun _ _ _ => rfl
theorem exec_gangResume (s : State) : ∀ c comm, exec (.gangResume c comm) s = execGangResume c comm s := fun _ _ => rfl
theorem exec_instanceDone (s : State) : ∀ c comm inst peer, exec (.instanceDone c comm inst peer) s = execInstanceDone c comm inst peer s :=
    fun _ _ _ _ => rfl
theorem exec_switchDecline (s : State) : ∀ op, exec (.switchDecline op) s = execSwitchDecline op s := fun _ => rfl
theorem exec_switchAbort (s : State) : ∀ op, exec (.switchAbort op) s = execSwitchAbort op s := fun _ => rfl
theorem exec_matrixStart (s : State) : ∀ op, exec (.matrixStart op) s = execMatrixStart op s := fun _ => rfl
theorem exec_multicastRound (s : State) : ∀ die cluster mask tile, exec (.multicastRound die cluster mask tile) s = execMulticastRound die cluster mask tile s :=
    fun _ _ _ _ => rfl
theorem exec_matrixStop (s : State) : ∀ op, exec (.matrixStop op) s = execMatrixStop op s := fun _ => rfl
theorem exec_matrixComplete (s : State) : ∀ op, exec (.matrixComplete op) s = execMatrixComplete op s := fun _ => rfl
theorem exec_getVersion (s : State) : exec .getVersion s = execGetVersion s := rfl
theorem exec_getCapabilities (s : State) : exec .getCapabilities s = execGetCapabilities s := rfl
theorem exec_negotiateAlgorithms (s : State) : exec .negotiateAlgorithms s = execNegotiateAlgorithms s := rfl
theorem exec_getDigests (s : State) : exec .getDigests s = execGetDigests s := rfl
theorem exec_getCertificate (s : State) : exec .getCertificate s = execGetCertificate s := rfl
theorem exec_challenge (s : State) : exec .challenge s = execChallenge s := rfl
theorem exec_getMeasurements (s : State) : ∀ index, exec (.getMeasurements index) s = execGetMeasurements index s :=
    fun _ => rfl
theorem exec_keyExchange (s : State) : exec .keyExchange s = execKeyExchange s := rfl
theorem exec_finish (s : State) : exec .finish s = execFinish s := rfl
theorem exec_endSession (s : State) : exec .endSession s = execEndSession s := rfl
theorem exec_loadKey (s : State) : ∀ slot key, exec (.loadKey slot key) s = execLoadKey slot key s := fun _ _ => rfl
theorem exec_admitHost (s : State) : ∀ node, exec (.admitHost node) s = execAdmitHost node s := fun _ => rfl
theorem exec_getBringup (s : State) : exec .getBringup s = execGetBringup s := rfl
theorem exec_setPinned (s : State) : ∀ dies caps, exec (.setPinned dies caps) s = execSetPinned dies caps s := fun _ _ => rfl
theorem exec_powerWindow (s : State) : ∀ watts, exec (.powerWindow watts) s = execPowerWindow watts s := fun _ => rfl
theorem exec_thermalLimit (s : State) : exec .thermalLimit s = execThermalLimit s := rfl
theorem exec_thermalShutdown (s : State) : exec .thermalShutdown s = execThermalShutdown s := rfl
theorem exec_contextCommand (s : State) : ∀ node sctx cmd, exec (.contextCommand node sctx cmd) s = execContextCommand node sctx cmd s :=
    fun _ _ _ => rfl

end Sys2Proof.Machine
end

