-- ==== Sys2Proof/Laws/CanonDevice.lean ====
section
/-! SUPPORT. Canonical memory is kept by the front end, contexts, events, bring-up, and the lane and scalar instructions; every instruction. -/

set_option linter.unreachableTactic false
set_option linter.unusedTactic false

namespace Sys2Proof.Machine

open Host (Outcome)

/-! ## FrontEnd -/

theorem State.kernelEvent_canon (s : State) (c typ handle tag code : Nat) (h : s.Canon) :
    (State.kernelEvent s c typ handle tag code).Canon := by
  unfold State.kernelEvent
  repeat' first | with_reducible (first | assumption | apply State.event_canon) | dsimp only

theorem State.setLQ_canon (s : State) (c q : Nat) (x : LaunchQ) (h : s.Canon) :
    (State.setLQ s c q x).Canon := by
  unfold State.setLQ
  repeat' first | with_reducible (first | assumption | apply State.setCtx_canon) | dsimp only

theorem State.parkFrontEnd_canon (s : State) (c akind va level : Nat) (what : ParkWhat) (h : s.Canon) :
    (State.parkFrontEnd s c akind va level what).Canon := by
  unfold State.parkFrontEnd
  repeat' first
    | with_reducible first
        | assumption | apply State.postFaults_canon | apply canon_fst (by assumption) | apply canon_snd (by assumption)
        | apply canon_id
    | dsimp only | split

theorem State.parkQueue_canon (s : State) (c q akind va level : Nat) (h : s.Canon) :
    (State.parkQueue s c q akind va level).Canon := by
  unfold State.parkQueue
  repeat' first | with_reducible (first | assumption | apply State.setLQ_canon | apply State.parkFrontEnd_canon) | dsimp only

theorem State.rejectQueue_canon (s : State) (c q : Nat) (h : s.Canon) :
    (State.rejectQueue s c q).Canon := by
  unfold State.rejectQueue
  repeat' first | with_reducible (first | assumption | apply State.setLQ_canon | apply State.kernelEvent_canon) | dsimp only

theorem State.feRead_canon (s : State) (c va k n : Nat) (h : s.Canon) :
    (State.feRead s c va k n).1.Canon := by
  unfold State.feRead
  repeat' first | with_reducible (first | assumption | apply State.pieces_canon) | dsimp only

theorem State.putCons_canon (s : State) (c q : Nat) (h : s.Canon) :
    (State.putCons s c q).Canon := by
  unfold State.putCons
  repeat' first
    | with_reducible first
        | assumption | intro _ | apply State.setLQ_canon | apply State.whole_canon | apply State.askChecked_canon
        | apply State.parkQueue_canon | apply State.rejectQueue_canon | apply canon_fst (by assumption)
        | apply canon_snd (by assumption)
    | dsimp only | split

theorem execProducerIndexObserved_canon (c q : Nat) (s : State) (h : s.Canon) :
    CanonN (execProducerIndexObserved c q s) := by
  unfold execProducerIndexObserved
  repeat' first
    | with_reducible first
        | assumption | intro _ | apply State.whole_canon | apply State.feRead_canon | apply State.setLQ_canon
        | apply State.parkQueue_canon | apply State.rejectQueue_canon | apply canon_fst (by assumption)
        | apply canon_snd (by assumption) | apply canonN_next
    | dsimp only | split

theorem State.popHead_canon (s : State) (c q : Nat) (h : s.Canon) :
    (State.popHead s c q).Canon := by
  unfold State.popHead
  repeat' first | with_reducible (first | assumption | intro _ | apply State.setLQ_canon | apply State.putCons_canon) | dsimp only

theorem State.rejectHead_canon (s : State) (c q tag code : Nat) (h : s.Canon) :
    (State.rejectHead s c q tag code).Canon := by
  unfold State.rejectHead
  repeat' first | with_reducible (first | assumption | apply State.kernelEvent_canon | apply State.popHead_canon) | dsimp only

theorem State.headFault_canon (s : State) (c q tag : Nat) (p : Nat × Res) (h : s.Canon) :
    (State.headFault s c q tag p).Canon := by
  unfold State.headFault
  repeat' first
    | with_reducible first
        | assumption | apply State.parkQueue_canon | apply State.rejectHead_canon | apply canon_fst (by assumption)
        | apply canon_snd (by assumption)
    | dsimp only | split

theorem State.readDeps_canon (s : State) (c : Nat) (r : BitVec 2048) (e0 : Nat) (h : s.Canon) :
    (State.readDeps s c r e0).1.Canon := by
  induction e0 generalizing s c r with
  | zero =>
    unfold State.readDeps
    repeat' first
      | with_reducible first
          | assumption | apply State.feRead_canon | apply canon_fst (by assumption) | apply canon_snd (by assumption)
      | dsimp only | split
  | succ _ ih =>
    unfold State.readDeps
    repeat' first
      | with_reducible first
          | assumption | apply ih | apply State.feRead_canon | apply canon_fst (by assumption)
          | apply canon_snd (by assumption)
      | dsimp only | split

theorem State.checkDeps_canon (s : State) (c q : Nat) (h : s.Canon) :
    (State.checkDeps s c q).Canon := by
  unfold State.checkDeps
  repeat' first
    | with_reducible first
        | assumption | intro _ | apply State.whole_canon | apply State.readDeps_canon | apply State.setLQ_canon
        | apply State.headFault_canon | apply canon_fst (by assumption) | apply canon_snd (by assumption)
    | dsimp only | split

theorem State.takeHead_canon (s : State) (c q : Nat) (r : BitVec 2048) (es : List (BitVec 256)) (h : s.Canon) :
    (State.takeHead s c q r es).Canon := by
  unfold State.takeHead
  repeat' first | with_reducible (first | assumption | apply State.setLQ_canon | apply State.checkDeps_canon) | dsimp only

theorem State.headTable_canon (s : State) (c q : Nat) (r : BitVec 2048) (h : s.Canon) :
    (State.headTable s c q r).Canon := by
  unfold State.headTable
  repeat' first
    | with_reducible first
        | assumption | apply State.feRead_canon | apply State.headFault_canon | apply State.rejectHead_canon
        | apply State.takeHead_canon | apply canon_fst (by assumption) | apply canon_snd (by assumption)
        | apply canon_some (by assumption)
    | dsimp only | split

theorem execHeadRead_canon (c q : Nat) (s : State) (h : s.Canon) :
    CanonN (execHeadRead c q s) := by
  unfold execHeadRead
  repeat' first
    | with_reducible first
        | assumption | intro _ | apply State.putCons_canon | apply State.whole_canon | apply State.feRead_canon
        | apply State.headFault_canon | apply State.rejectHead_canon | apply State.takeHead_canon | apply State.headTable_canon
        | apply canon_fst (by assumption) | apply canon_snd (by assumption) | apply canon_some (by assumption)
        | apply canonN_next
    | dsimp only | split

theorem execDependenceReread_canon (c q : Nat) (s : State) (h : s.Canon) :
    CanonN (execDependenceReread c q s) := by
  unfold execDependenceReread
  repeat' first | with_reducible (first | assumption | apply State.checkDeps_canon | apply canonN_next) | dsimp only

theorem execAdmission_canon (c q : Nat) (s : State) (h : s.Canon) :
    CanonN (execAdmission c q s) := by
  unfold execAdmission
  repeat' first
    | with_reducible first
        | assumption | apply State.chargeCtx_canon | apply State.setCtx_canon | apply State.popHead_canon
        | apply canon_some (by assumption) | apply canonN_next
    | dsimp only | split

theorem State.releaseAll_canon (s : State) (c : Nat) (h : s.Canon) :
    (State.releaseAll s c).Canon := by
  unfold State.releaseAll
  repeat' first
    | with_reducible first
        | assumption | intro _ | apply State.drainFifo_canon | apply State.flushFabric_canon | apply foldl_canon
        | apply foldl_fst_canon | apply canon_fst (by assumption) | apply canon_snd (by assumption)
    | dsimp only | split

theorem State.dropKernel_canon (s : State) (k : KernelId) (h : s.Canon) :
    (State.dropKernel s k).Canon := by
  unfold State.dropKernel
  repeat' first | with_reducible (first | assumption | intro _ | apply State.setCtx_canon) | dsimp only

theorem State.rereadAll_canon (s : State) (h : s.Canon) :
    (State.rereadAll s).Canon := by
  unfold State.rereadAll
  repeat' first
    | with_reducible first
        | assumption | intro _ | apply State.checkDeps_canon | apply foldl_canon | apply foldl_fst_canon
        | apply canon_fst (by assumption) | apply canon_snd (by assumption)
    | dsimp only | split

theorem State.retireKernel_canon (s : State) (k : Kernel) (status : Nat) (ev : Bool) (h : s.Canon) :
    (State.retireKernel s k status ev).Canon := by
  unfold State.retireKernel
  repeat' first
    | with_reducible first
        | assumption | apply State.dropKernel_canon | apply State.kernelEvent_canon
    | dsimp only | split

theorem State.completionAdd_canon (s : State) (k : Kernel) (h : s.Canon) :
    (State.completionAdd s k).Canon := by
  unfold State.completionAdd
  repeat' first
    | with_reducible first
        | assumption | apply State.askChecked_canon | apply State.retireKernel_canon | apply State.event_canon
        | apply State.rereadAll_canon | apply State.parkFrontEnd_canon | apply canon_fst (by assumption)
        | apply canon_snd (by assumption)
    | dsimp only | split

theorem State.complete_canon (s : State) (k : Kernel) (h : s.Canon) :
    (State.complete s k).Canon := by
  unfold State.complete
  repeat' first
    | with_reducible first
        | assumption | intro _ | apply State.releaseAll_canon | apply State.retireKernel_canon | apply State.event_canon
        | apply State.whole_canon | apply State.completionAdd_canon
    | dsimp only | split

theorem execCompletionAction_canon (k : KernelId) (s : State) (h : s.Canon) :
    CanonN (execCompletionAction k s) := by
  unfold execCompletionAction
  repeat' first
    | with_reducible first
        | assumption | apply State.complete_canon | apply canon_fst (by assumption) | apply canon_snd (by assumption)
        | apply canon_some (by assumption) | apply canonN_next
    | dsimp only | split

theorem execControlIntervalBoundary_canon (s : State) (h : s.Canon) :
    CanonN (execControlIntervalBoundary s) := by
  unfold execControlIntervalBoundary
  repeat' first | with_reducible (first | assumption | intro _ | apply canonN_next) | dsimp only

theorem State.placeOn_canon (s : State) (core : Nat) (k : Kernel) (x : Need) (t : Start) (h : s.Canon) :
    (State.placeOn s core k x t).Canon := by
  unfold State.placeOn
  repeat' first
    | with_reducible first
        | assumption | intro _ | apply mstore_keeps_wf | apply mset_keeps_wf | apply mzero_keeps_wf | apply foldl_keeps_wf
        | apply filter_keeps_wf | apply foldl_fst_wf | apply wf_fst (by assumption) | apply State.setCore_canon
        | apply State.setCv_canon | apply State.asAgent_canon | apply State.acquire_canon | apply canon_fst (by assumption)
        | apply canon_snd (by assumption) | apply canon_some (by assumption)
    | dsimp only | split

theorem State.placeGroup_canon (s : State) (g : Nat) (k : Kernel) (x : Need) (e0 : List Start) (h : s.Canon) :
    CanonO (State.placeGroup s g k x e0) := by
  induction e0 generalizing s g k x with
  | nil =>
    unfold State.placeGroup
    repeat' first
      | with_reducible first
          | assumption | apply State.placeOn_canon | apply canon_fst (by assumption) | apply canon_snd (by assumption)
          | apply canon_some (by assumption) | apply canonO_none | apply canonO_some
      | dsimp only | split
  | cons _ _ ih =>
    unfold State.placeGroup
    repeat' first
      | with_reducible first
          | assumption | apply ih | apply State.placeOn_canon | apply canon_fst (by assumption)
          | apply canon_snd (by assumption) | apply canon_some (by assumption) | apply canonO_none | apply canonO_some
      | dsimp only | split

theorem foldl_pick {P : Nat × State → Prop} {l : List (Nat × State)} {b : Option (Nat × State)}
    (hb : ∀ p, b = some p → P p) (hl : ∀ p ∈ l, P p) (p : Nat × State)
    (e : l.foldl (fun best p => match best with
      | none => some p
      | some b => if p.1 < b.1 then some p else some b) b = some p) : P p := by
  induction l generalizing b with
  | nil => exact hb p e
  | cons a l ih =>
    refine ih ?_ (fun q hq => hl q (List.mem_cons_of_mem _ hq)) e
    intro q hq
    have ha := hl a List.mem_cons_self
    dsimp only at hq
    split at hq
    · cases hq; exact ha
    · split at hq
      · cases hq; exact ha
      · exact hb q hq

theorem State.placeBest_canon (s : State) (k : Kernel) (d : Nat) (x : Need) (ts : List Start) (h : s.Canon) :
    CanonO (s.placeBest k d x ts) := by
  intro t e
  unfold State.placeBest at e
  obtain ⟨p, hp, rfl⟩ := Option.map_eq_some_iff.1 e
  refine foldl_pick (P := fun p => p.2.Canon) (fun p hp => by cases hp) ?_ p hp
  intro q hq
  obtain ⟨g, _, hg⟩ := List.mem_filterMap.1 hq
  obtain ⟨u, hu, rfl⟩ := Option.map_eq_some_iff.1 hg
  exact State.placeGroup_canon s g k x ts h u hu

theorem State.placeSpawned_canon (s : State) (k : Kernel) (d : Nat) (h : s.Canon) :
    CanonO (State.placeSpawned s k d) := by
  unfold State.placeSpawned
  repeat' first
    | with_reducible first
        | assumption | intro _ | apply State.placeBest_canon | apply State.setKernel_canon | apply canon_fst (by assumption)
        | apply canon_snd (by assumption) | apply canon_some (by assumption) | apply canonO_map | apply canonO_none
        | apply canonO_some
    | dsimp only | split

theorem State.placeShare_canon (s : State) (k : Kernel) (d : Nat) (h : s.Canon) :
    CanonO (State.placeShare s k d) := by
  unfold State.placeShare
  repeat' first
    | with_reducible first
        | assumption | intro _ | apply State.placeBest_canon | apply State.setKernel_canon | apply canon_fst (by assumption)
        | apply canon_snd (by assumption) | apply canonO_map | apply canonO_none | apply canonO_some
    | dsimp only | split

theorem State.nextPlacement_canon (s : State) (d : Nat) (h : s.Canon) :
    CanonO (State.nextPlacement s d) := by
  unfold State.nextPlacement
  repeat' first
    | with_reducible first
        | assumption | intro _ | apply State.placeSpawned_canon | apply State.placeShare_canon
        | apply canon_fst (by assumption) | apply canon_snd (by assumption) | apply canon_some (by assumption)
        | apply canonO_findSome | apply canonO_none | apply canonO_some
    | dsimp only | split

theorem execPlacement_canon (die : Nat) (s : State) (h : s.Canon) :
    CanonN (execPlacement die s) := by
  unfold execPlacement
  repeat' first
    | with_reducible first
        | assumption | apply State.nextPlacement_canon | apply canon_getD | apply canonN_next
    | dsimp only | split

theorem execStealRequest_canon (k : KernelId) (thief victim : Nat) (s : State) (h : s.Canon) :
    CanonN (execStealRequest k thief victim s) := by
  unfold execStealRequest
  repeat' first
    | with_reducible first
        | assumption | apply State.setKernel_canon | apply canon_fst (by assumption) | apply canon_snd (by assumption)
        | apply canon_some (by assumption) | apply canonN_next
    | dsimp only | split

theorem execStealReply_canon (k : KernelId) (thief : Nat) (s : State) (h : s.Canon) :
    CanonN (execStealReply k thief s) := by
  unfold execStealReply
  repeat' first
    | with_reducible first
        | assumption | intro _ | apply State.setKernel_canon | apply canon_fst (by assumption)
        | apply canon_snd (by assumption) | apply canon_some (by assumption) | apply canonN_next
    | dsimp only | split

theorem execRemainingCount_canon (k : KernelId) (src dst count : Nat) (s : State) (h : s.Canon) :
    CanonN (execRemainingCount k src dst count s) := by
  unfold execRemainingCount
  repeat' first
    | with_reducible first
        | assumption | apply State.setKernel_canon | apply canon_fst (by assumption) | apply canon_snd (by assumption)
        | apply canon_some (by assumption) | apply canonN_next
    | dsimp only | split

theorem execSpawnBinTimeout_canon (die bin : Nat) (s : State) (h : s.Canon) :
    CanonN (execSpawnBinTimeout die bin s) := by
  unfold execSpawnBinTimeout
  repeat' first | with_reducible (first | assumption | apply State.launchBin_canon | apply canonN_next) | dsimp only | split

theorem State.launchFull_canon (s : State) (c : Nat) (h : s.Canon) :
    (State.launchFull s c).Canon := by
  unfold State.launchFull
  repeat' first
    | with_reducible first
        | assumption | intro _ | apply State.launchBin_canon | apply foldl_canon | apply foldl_fst_canon
        | apply canon_fst (by assumption) | apply canon_snd (by assumption) | apply canon_some (by assumption)
    | dsimp only | split

theorem execZeroNotice_canon (k : KernelId) (die : Nat) (s : State) (h : s.Canon) :
    CanonN (execZeroNotice k die s) := by
  unfold execZeroNotice
  repeat' first
    | with_reducible first
        | assumption | apply State.setKernel_canon | apply canon_fst (by assumption) | apply canon_snd (by assumption)
        | apply canon_some (by assumption) | apply canonN_next
    | dsimp only | split

theorem execQuiescenceWave_canon (k : KernelId) (s : State) (h : s.Canon) :
    CanonN (execQuiescenceWave k s) := by
  unfold execQuiescenceWave
  repeat' first
    | with_reducible first
        | assumption | intro _ | apply State.setKernel_canon | apply foldl_canon | apply foldl_fst_canon
        | apply canon_fst (by assumption) | apply canon_snd (by assumption) | apply canon_some (by assumption)
        | apply canonN_next
    | dsimp only | split

/-! ## Context -/

theorem State.readDesc_canon (s : State) (u : User) (va : Nat) (h : s.Canon) :
    (State.readDesc s u va).1.Canon := by
  unfold State.readDesc
  repeat' first
    | with_reducible first
        | assumption | apply State.pieces_canon | apply canon_fst (by assumption) | apply canon_snd (by assumption)
        | apply canon_some (by assumption)
    | dsimp only | split

theorem State.setSt_canon (s : State) (c : Nat) (st : CtxState) (h : s.Canon) :
    (State.setSt s c st).Canon := by
  unfold State.setSt
  repeat' first | with_reducible (first | assumption | apply State.setCtx_canon) | dsimp only

theorem State.nodeReads_canon (s : State) (u : User) (node : BitVec 16) (va : Nat) (e0 : Nat) (h : s.Canon) :
    (State.nodeReads s u node va e0).1.Canon := by
  induction e0 generalizing s u node va with
  | zero =>
    unfold State.nodeReads
    repeat' first
      | with_reducible first
          | assumption | apply State.askNode_canon | apply canon_fst (by assumption) | apply canon_snd (by assumption)
          | apply canon_some (by assumption)
      | dsimp only | split
  | succ _ ih =>
    unfold State.nodeReads
    repeat' first
      | with_reducible first
          | assumption | apply ih | apply State.askNode_canon | apply canon_fst (by assumption)
          | apply canon_snd (by assumption) | apply canon_some (by assumption)
      | dsimp only | split

theorem State.readHeader_canon (s : State) (w : User) (c : Nat) (fault : Bool) (h : s.Canon) :
    (State.readHeader s w c fault).1.Canon := by
  unfold State.readHeader
  repeat' first
    | with_reducible first
        | assumption | apply State.nodeReads_canon | apply State.pieces_canon | apply canon_fst (by assumption)
        | apply canon_snd (by assumption) | apply canon_some (by assumption)
    | dsimp only | split

theorem State.readHeaders_canon (s : State) (w : User) (c : Nat) (h : s.Canon) :
    (State.readHeaders s w c).1.Canon := by
  unfold State.readHeaders
  repeat' first
    | with_reducible first
        | assumption | apply State.readHeader_canon | apply canon_fst (by assumption) | apply canon_snd (by assumption)
        | apply canon_some (by assumption)
    | dsimp only | split

theorem State.openQueues_canon (s : State) (c : Nat) (h : Nat × Nat) (hcan : s.Canon) :
    (State.openQueues s c h).Canon := by
  unfold State.openQueues
  repeat' first | with_reducible (first | assumption | apply State.setCtx_canon) | dsimp only

theorem State.postEarly_canon (s : State) (h : s.Canon) :
    (State.postEarly s).Canon := by
  unfold State.postEarly
  repeat' first
    | with_reducible first
        | assumption | intro _ | apply State.setQueue_canon | apply State.writeOvf_canon
    | dsimp only | split

theorem State.takeQueue_canon (s : State) (w : User) (c q : Nat) (h : s.Canon) :
    (State.takeQueue s w c q).Canon := by
  unfold State.takeQueue
  repeat' first
    | with_reducible first
        | assumption | apply State.pieces_canon | apply State.setLQ_canon | apply State.rejectQueue_canon
        | apply canon_fst (by assumption) | apply canon_snd (by assumption)
    | dsimp only | split

theorem State.takeQueues_canon (s : State) (w : User) (c : Nat) (h : s.Canon) :
    (State.takeQueues s w c).Canon := by
  unfold State.takeQueues
  repeat' first
    | with_reducible first
        | assumption | intro _ | apply State.takeQueue_canon | apply foldl_canon | apply foldl_fst_canon
        | apply canon_fst (by assumption) | apply canon_snd (by assumption)
    | dsimp only | split

theorem State.writePrivate_canon (s : State) (c : Nat) (h : s.Canon) :
    (State.writePrivate s c).Canon := by
  unfold State.writePrivate
  repeat' first
    | with_reducible first
        | assumption | intro _ | apply State.cleanL1All_canon | apply foldl_canon | apply foldl_fst_canon
        | apply canon_fst (by assumption) | apply canon_snd (by assumption)
    | dsimp only | split

theorem State.strip_canon (s : State) (c : Nat) (h : s.Canon) :
    (State.strip s c).Canon := by
  unfold State.strip
  repeat' first
    | with_reducible first
        | assumption | intro _ | apply State.dropAsked_canon | apply canon_fst (by assumption)
        | apply canon_snd (by assumption)
    | dsimp only | split

theorem State.enterResetting_canon (s : State) (c : Nat) (why : ResetCause) (h : s.Canon) :
    (State.enterResetting s c why).Canon := by
  unfold State.enterResetting
  repeat' first
    | with_reducible first
        | assumption | intro _ | apply State.strip_canon | apply State.loseChannels_canon | apply State.setCtx_canon
        | apply canon_fst (by assumption) | apply canon_snd (by assumption)
    | dsimp only | split | dsimp only [State.Canon]

theorem State.enterSaving_canon (s : State) (c : Nat) (h : s.Canon) :
    (State.enterSaving s c).Canon := by
  unfold State.enterSaving
  repeat' first
    | with_reducible first
        | assumption | apply State.setSt_canon | apply State.loseChannels_canon | apply State.pauseComms_canon
    | dsimp only

theorem State.freeBytes_canon (s : State) (c va : Nat) (e0 : Nat) (h : s.Canon) :
    (State.freeBytes s c va e0).1.Canon := by
  induction e0 generalizing s c va with
  | zero =>
    unfold State.freeBytes
    repeat' first
      | with_reducible first
          | assumption | apply State.fresh_canon | apply State.devWrite_canon | apply canon_fst (by assumption)
          | apply canon_snd (by assumption)
      | dsimp only | split
  | succ _ ih =>
    unfold State.freeBytes
    repeat' first
      | with_reducible first
          | assumption | apply ih | apply State.fresh_canon | apply State.devWrite_canon | apply canon_fst (by assumption)
          | apply canon_snd (by assumption)
      | dsimp only | split

theorem State.writeSections_canon (s : State) (c base : Nat) (e0 : List (Section × Nat)) (h : s.Canon) :
    (State.writeSections s c base e0).1.Canon := by
  induction e0 generalizing s c base with
  | nil =>
    unfold State.writeSections
    repeat' first
      | with_reducible first
          | assumption | apply State.devWrites_canon | apply State.freeBytes_canon | apply canon_fst (by assumption)
          | apply canon_snd (by assumption) | apply canon_some (by assumption)
      | dsimp only | split
  | cons _ _ ih =>
    unfold State.writeSections
    repeat' first
      | with_reducible first
          | assumption | apply ih | apply State.devWrites_canon | apply State.freeBytes_canon | apply canon_fst (by assumption)
          | apply canon_snd (by assumption) | apply canon_some (by assumption)
      | dsimp only | split

theorem State.writeImage_canon (s : State) (c : Nat) (h : s.Canon) :
    (State.writeImage s c).1.Canon := by
  unfold State.writeImage
  repeat' first
    | with_reducible first
        | assumption | apply State.devWrites_canon | apply State.writeSections_canon | apply canon_fst (by assumption)
        | apply canon_snd (by assumption)
    | dsimp only | split

theorem State.writeKernels_canon (s : State) (c q : Nat) (h : s.Canon) :
    (State.writeKernels s c q).1.Canon := by
  unfold State.writeKernels
  repeat' first
    | with_reducible first
        | assumption | intro _ | apply State.devWrites_canon | apply canon_fst (by assumption)
        | apply canon_snd (by assumption) | apply canon_some (by assumption)
    | dsimp only | split

theorem State.writeAllKernels_canon (s : State) (c : Nat) (h : s.Canon) :
    (State.writeAllKernels s c).1.Canon := by
  unfold State.writeAllKernels
  repeat' first
    | with_reducible first
        | assumption | intro _ | apply State.writeKernels_canon | apply foldl_canon | apply foldl_fst_canon
        | apply canon_fst (by assumption) | apply canon_snd (by assumption)
    | dsimp only | split

theorem mrange_canon (m : Memory) (a n : Nat) (h : Memory.wf m = true) :
    Memory.wf (mrange m a n) = true := by
  unfold mrange
  repeat' first
    | with_reducible first
        | assumption | intro _ | apply filter_keeps_wf | apply foldl_keeps_wf | apply mstore_keeps_wf | apply mset_keeps_wf
        | apply mzero_keeps_wf
    | dsimp only

theorem State.settleContext_canon (s : State) (c : Nat) (h : s.Canon) :
    (State.settleContext s c).Canon := by
  unfold State.settleContext
  repeat' first
    | with_reducible first
        | assumption | intro _ | apply State.csrwDone_canon | apply State.setCtx_canon | apply foldl_canon
        | apply foldl_fst_canon | apply canon_fst (by assumption) | apply canon_snd (by assumption)
    | dsimp only | split

theorem State.trySave_canon (s : State) (c : Nat) (h : s.Canon) :
    (State.trySave s c).1.Canon := by
  unfold State.trySave
  repeat' first
    | with_reducible first
        | assumption | apply State.writeImage_canon | apply State.writeAllKernels_canon | apply canon_fst (by assumption)
        | apply canon_snd (by assumption)
    | dsimp only | split

theorem State.save_canon (s : State) (c : Nat) (h : s.Canon) :
    (State.save s c).Canon := by
  unfold State.save
  repeat' first
    | with_reducible first
        | assumption | intro _ | apply State.settleContext_canon | apply State.writePrivate_canon | apply State.whole_canon
        | apply State.trySave_canon | apply State.enterResetting_canon | apply State.strip_canon | apply State.setCtx_canon
        | apply State.ctxEvent_canon | apply canon_fst (by assumption) | apply canon_snd (by assumption)
    | dsimp only | split

theorem execSaved_canon (c : Nat) (s : State) (h : s.Canon) :
    CanonN (execSaved c s) := by
  unfold execSaved
  repeat' first | with_reducible (first | assumption | apply State.save_canon | apply canonN_next) | dsimp only | split

theorem execSaveFault_canon (c : Nat) (s : State) (h : s.Canon) :
    CanonN (execSaveFault c s) := by
  unfold execSaveFault
  repeat' first
    | with_reducible first
        | assumption | apply State.settleContext_canon | apply State.writePrivate_canon | apply State.trySave_canon
        | apply State.enterResetting_canon | apply canon_fst (by assumption) | apply canon_snd (by assumption)
        | apply canonN_next
    | dsimp only | split

theorem execDrained_canon (c : Nat) (s : State) (h : s.Canon) :
    CanonN (execDrained c s) := by
  unfold execDrained
  repeat' first | with_reducible (first | assumption | apply State.enterSaving_canon | apply canonN_next) | dsimp only | split

theorem execD1Expires_canon (c : Nat) (s : State) (h : s.Canon) :
    CanonN (execD1Expires c s) := by
  unfold execD1Expires
  repeat' first | with_reducible (first | assumption | apply State.enterSaving_canon | apply canonN_next) | dsimp only | split

theorem execD2Expires_canon (c : Nat) (s : State) (h : s.Canon) :
    CanonN (execD2Expires c s) := by
  unfold execD2Expires
  repeat' first | with_reducible (first | assumption | apply State.enterResetting_canon | apply canonN_next) | dsimp only | split

theorem execResetDone_canon (c : Nat) (s : State) (h : s.Canon) :
    CanonN (execResetDone c s) := by
  unfold execResetDone
  repeat' first
    | with_reducible first
        | assumption | apply State.setSt_canon | apply State.ctxEvent_canon | apply canonN_next
    | dsimp only | split

theorem State.bindSaved_canon (s : State) (k : Nat) (bytes : Memory) (z : ZName) (h : s.Canon) :
    (State.bindSaved s k bytes z).Canon := by
  unfold State.bindSaved
  repeat' first
    | with_reducible first
        | assumption | intro _ | apply mstore_keeps_wf | apply mset_keeps_wf | apply mzero_keeps_wf | apply foldl_keeps_wf
        | apply filter_keeps_wf | apply foldl_fst_wf | apply wf_fst (by assumption) | apply State.setCore_canon
        | apply mrange_canon | apply foldl_canon | apply foldl_fst_canon | apply canon_fst (by assumption)
        | apply canon_snd (by assumption)
    | dsimp only | split

theorem State.readDescs_canon (s : State) (c base : Nat) (h : s.Canon) :
    (State.readDescs s c base).1.Canon := by
  unfold State.readDescs
  repeat' first
    | with_reducible first
        | assumption | intro _ | apply State.devRead_canon | apply State.devReads_canon | apply canon_fst (by assumption)
        | apply canon_snd (by assumption) | apply canon_some (by assumption)
    | dsimp only | split

theorem State.readItems_canon (s : State) (c va : Nat) (e0 : List Nat) (h : s.Canon) :
    (State.readItems s c va e0).1.Canon := by
  induction e0 generalizing s c va with
  | nil =>
    unfold State.readItems
    repeat' first
      | with_reducible first
          | assumption | apply State.devReads_canon | apply canon_fst (by assumption) | apply canon_snd (by assumption)
          | apply canon_some (by assumption)
      | dsimp only | split
  | cons _ _ ih =>
    unfold State.readItems
    repeat' first
      | with_reducible first
          | assumption | apply ih | apply State.devReads_canon | apply canon_fst (by assumption)
          | apply canon_snd (by assumption) | apply canon_some (by assumption)
      | dsimp only | split

theorem State.readSection_canon (s : State) (c base : Nat) (ds : List (Nat × Nat × Nat × Nat)) (typ k : Nat) (lens : List Nat)
    (h : s.Canon) :
    (State.readSection s c base ds typ k lens).1.Canon := by
  unfold State.readSection
  repeat' first
    | with_reducible first
        | assumption | intro _ | apply State.readItems_canon | apply foldl_canon | apply foldl_fst_canon
        | apply canon_fst (by assumption) | apply canon_snd (by assumption) | apply canon_some (by assumption)
    | dsimp only | split

theorem State.loadTiles_canon (s : State) (c base : Nat) (ds : List (Nat × Nat × Nat × Nat)) (k : Nat) (ts : List
    (Nat × Tile)) (h : s.Canon) :
    (State.loadTiles s c base ds k ts).Canon := by
  unfold State.loadTiles
  repeat' first
    | with_reducible first
        | assumption | intro _ | apply State.setTile_canon | apply State.readSection_canon | apply State.coreStore_canon
        | apply foldl_canon | apply foldl_fst_canon | apply canon_fst (by assumption) | apply canon_snd (by assumption)
        | apply canon_some (by assumption)
    | dsimp only | split

theorem State.loadParties_canon (s : State) (c base : Nat) (ds : List (Nat × Nat × Nat × Nat)) (k : Nat) (ps : List
    (Nat × Party)) (h : s.Canon) :
    (State.loadParties s c base ds k ps).Canon := by
  unfold State.loadParties
  repeat' first
    | with_reducible first
        | assumption | intro _ | apply State.setParty_canon | apply State.readSection_canon | apply State.coreStore_canon
        | apply foldl_canon | apply foldl_fst_canon | apply canon_fst (by assumption) | apply canon_snd (by assumption)
        | apply canon_some (by assumption)
    | dsimp only | split

theorem State.bindAll_canon (s : State) (k : Nat) (bytes : Memory) (e0 : List ZName) (e1 : List Nat) (e2 : List Nat)
    (h : s.Canon) :
    (State.bindAll s k bytes e0 e1 e2).Canon := by
  induction e0 generalizing s k bytes e1 e2 with
  | nil =>
    unfold State.bindAll
    repeat' first
      | with_reducible first
          | assumption | intro _ | apply mstore_keeps_wf | apply mset_keeps_wf | apply mzero_keeps_wf | apply foldl_keeps_wf
          | apply filter_keeps_wf | apply foldl_fst_wf | apply wf_fst (by assumption) | apply State.bindSaved_canon
          | apply foldl_canon | apply foldl_fst_canon | apply canon_fst (by assumption) | apply canon_snd (by assumption)
          | apply canonO_foldl_bind
      | dsimp only | split
  | cons _ _ ih =>
    unfold State.bindAll
    repeat' first
      | with_reducible first
          | assumption | apply ih | intro _ | apply mstore_keeps_wf | apply mset_keeps_wf | apply mzero_keeps_wf
          | apply foldl_keeps_wf | apply filter_keeps_wf | apply foldl_fst_wf | apply wf_fst (by assumption)
          | apply State.bindSaved_canon | apply foldl_canon | apply foldl_fst_canon | apply canon_fst (by assumption)
          | apply canon_snd (by assumption) | apply canonO_foldl_bind
      | dsimp only | split

theorem State.loadGrans_canon (s : State) (c base : Nat) (ds : List (Nat × Nat × Nat × Nat)) (k : Nat) (bytes : Memory)
    (zs : List ZName) (h : s.Canon) :
    (State.loadGrans s c base ds k bytes zs).Canon := by
  unfold State.loadGrans
  repeat' first
    | with_reducible first
        | assumption | intro _ | apply State.readSection_canon | apply State.bindAll_canon | apply foldl_canon
        | apply foldl_fst_canon | apply canon_fst (by assumption) | apply canon_snd (by assumption)
        | apply canon_some (by assumption) | apply canonO_foldl_bind
    | dsimp only | split

theorem State.readCaravans_canon (s : State) (c base : Nat) (e0 : List (Nat × Nat × Nat × Nat)) (e1 : List (Nat × Caravan))
    (h : s.Canon) :
    (State.readCaravans s c base e0 e1).1.Canon := by
  induction e1 generalizing s e0 with
  | nil => rw [State.readCaravans]; exact h
  | cons p r ih =>
    obtain ⟨key, v⟩ := p
    cases e0 with
    | nil => exact h
    | cons d ds =>
      rw [State.readCaravans]
      have hr := State.devReads_canon s c (base + d.2.2.2) 16 (caravanBytes v / 16) h
      split
      rename_i t w e
      refine ih t ds (canon_fst e ?_)
      clear e
      split <;> exact canon_fst (by assumption) hr

theorem State.loadBins_canon (s : State) (d : Nat) (bs : List (Nat × Bin)) (h : s.Canon) :
    (State.loadBins s d bs).Canon := by
  unfold State.loadBins
  repeat' first
    | with_reducible first
        | assumption | intro _ | apply State.setDie_canon | apply State.launchBin_canon | apply foldl_canon
        | apply foldl_fst_canon | apply canon_fst (by assumption) | apply canon_snd (by assumption)
        | apply canon_some (by assumption)
    | dsimp only | split

theorem State.loadUnits_canon (s : State) (c : Nat) (i : SaveImage) (h : s.Canon) :
    (State.loadUnits s c i).Canon := by
  unfold State.loadUnits
  repeat' first
    | with_reducible first
        | assumption | intro _ | apply mstore_keeps_wf | apply mset_keeps_wf | apply mzero_keeps_wf | apply foldl_keeps_wf
        | apply filter_keeps_wf | apply foldl_fst_wf | apply wf_fst (by assumption) | apply State.readDescs_canon
        | apply State.readCaravans_canon | apply State.setCv_canon | apply State.setCore_canon | apply State.loadTiles_canon
        | apply State.loadParties_canon | apply State.loadGrans_canon | apply State.loadBins_canon | apply foldl_canon
        | apply foldl_fst_canon | apply canon_fst (by assumption) | apply canon_snd (by assumption)
    | dsimp only | split

theorem State.readKernels_canon (s : State) (c q : Nat) (h : s.Canon) :
    (State.readKernels s c q).Canon := by
  unfold State.readKernels
  repeat' first
    | with_reducible first
        | assumption | intro _ | apply State.devReads_canon | apply State.setKernel_canon | apply foldl_canon
        | apply foldl_fst_canon | apply canon_fst (by assumption) | apply canon_snd (by assumption)
        | apply canon_some (by assumption)
    | dsimp only | split

theorem canon_fab {s : State} (f : Fabric) (h : s.Canon) : State.Canon { s with fab := f } := h

theorem execRestoreComplete_canon (c : Nat) (s : State) (h : s.Canon) :
    CanonN (execRestoreComplete c s) := by
  unfold execRestoreComplete
  refine canonN_next ?_
  extract_lets y
  refine canon_if h (State.whole_canon s _ h fun x hx => ?_)
  extract_lets x1 x2 f x3 x4
  have h2 : x2.Canon := foldl_canon (fun t q ht => State.readKernels_canon t c q ht)
    (State.takeQueues_canon x1 _ c (State.setCtx_canon x c _ hx))
  have h3 : x3.Canon := canon_fab _ h2
  have h4 : x4.Canon := foldl_canon (fun t p ht => State.releasePark_canon t p ht)
    (State.launchFull_canon _ c (State.resumeComms_canon x3 c h3))
  exact canon_if h3 (State.ctxEvent_canon _ _ _ _ _ _ (State.retryQueues_canon x4 c h4))

theorem State.opCreate_canon (s : State) (w : User) (c arg : Nat) (h : s.Canon) :
    (State.opCreate s w c arg).1.Canon := by
  unfold State.opCreate
  repeat' first
    | with_reducible first
        | assumption | apply State.readDesc_canon | apply State.setCtx_canon | apply canon_fst (by assumption)
        | apply canon_snd (by assumption) | apply canon_some (by assumption)
    | dsimp only | split

theorem State.opModify_canon (s : State) (w : User) (c arg : Nat) (window : Bool) (h : s.Canon) :
    (State.opModify s w c arg window).1.Canon := by
  unfold State.opModify
  repeat' first
    | with_reducible first
        | assumption | apply State.readDesc_canon | apply State.setCtx_canon | apply canon_fst (by assumption)
        | apply canon_snd (by assumption) | apply canon_some (by assumption)
    | dsimp only | split

theorem State.opActivate_canon (s : State) (w : User) (c : Nat) (h : s.Canon) :
    (State.opActivate s w c).1.Canon := by
  unfold State.opActivate
  repeat' first
    | with_reducible first
        | assumption | intro _ | apply State.readHeaders_canon | apply State.setCtx_canon | apply State.openQueues_canon
        | apply State.takeQueues_canon | apply State.retryQueues_canon | apply State.postEarly_canon
        | apply canon_fst (by assumption) | apply canon_snd (by assumption) | apply canon_some (by assumption)
    | dsimp only | split | dsimp only [State.Canon]

theorem State.opPreempt_canon (s : State) (c arg : Nat) (h : s.Canon) :
    (State.opPreempt s c arg).1.Canon := by
  unfold State.opPreempt
  repeat' first
    | with_reducible first
        | assumption | apply State.setCtx_canon | apply State.enterSaving_canon
    | dsimp only | split

theorem State.opReset_canon (s : State) (c : Nat) (h : s.Canon) :
    (State.opReset s c).1.Canon := by
  unfold State.opReset
  repeat' first | with_reducible (first | assumption | apply State.enterResetting_canon) | dsimp only | split

theorem State.opDestroy_canon (s : State) (c : Nat) (h : s.Canon) :
    (State.opDestroy s c).1.Canon := by
  unfold State.opDestroy
  repeat' first
    | with_reducible first
        | assumption | intro _ | apply State.setCtx_canon
    | dsimp only | split | dsimp only [State.Canon]

theorem State.opRestore_canon (s : State) (w : User) (c : Nat) (h : s.Canon) :
    (State.opRestore s w c).1.Canon := by
  unfold State.opRestore
  repeat' first
    | with_reducible first
        | assumption | apply State.pieces_canon | apply State.readHeaders_canon | apply State.setCtx_canon
        | apply State.openQueues_canon | apply State.loadUnits_canon | apply canon_fst (by assumption)
        | apply canon_snd (by assumption) | apply canon_some (by assumption)
    | dsimp only | split

theorem State.opQuery_canon (s : State) (c : Nat) (h : s.Canon) :
    (State.opQuery s c).1.Canon := by
  unfold State.opQuery
  repeat' first | with_reducible (first | assumption) | dsimp only | split

theorem State.ctxop_canon (s : State) (w : User) (op : CtxOp) (c arg : Nat) (window : Bool) (h : s.Canon) :
    (State.ctxop s w op c arg window).1.Canon := by
  unfold State.ctxop
  repeat' first
    | with_reducible first
        | assumption | apply State.opCreate_canon | apply State.activate_canon | apply State.opActivate_canon
        | apply State.opPreempt_canon | apply State.opRestore_canon | apply State.opReset_canon | apply State.opDestroy_canon
        | apply State.opQuery_canon | apply State.opModify_canon | apply canon_fst (by assumption)
        | apply canon_snd (by assumption)
    | dsimp only | split

theorem State.ctxopBy_canon (s : State) (f : Fields) (op : CtxOp) (h : s.Canon) :
    (State.ctxopBy s f op).Canon := by
  unfold State.ctxopBy
  repeat' first
    | with_reducible first
        | assumption | intro _ | apply State.withRelease_canon | apply State.orAway_canon | apply State.ctxop_canon
        | apply State.setS_canon | apply State.advance_canon | apply canon_fst (by assumption)
        | apply canon_snd (by assumption)
    | dsimp only | split

theorem execCtxopCreate_canon (f : Fields) (s : State) (h : s.Canon) :
    CanonN (execCtxopCreate f s) := by
  unfold execCtxopCreate
  repeat' first
    | with_reducible first
        | assumption | intro _ | apply issue_canon | apply State.ctxopBy_canon | apply canonN_next
    | dsimp only

theorem execCtxopActivate_canon (f : Fields) (s : State) (h : s.Canon) :
    CanonN (execCtxopActivate f s) := by
  unfold execCtxopActivate
  repeat' first
    | with_reducible first
        | assumption | intro _ | apply issue_canon | apply State.ctxopBy_canon | apply State.activate_canon | apply canonN_next
    | dsimp only

theorem execCtxopPreempt_canon (f : Fields) (s : State) (h : s.Canon) :
    CanonN (execCtxopPreempt f s) := by
  unfold execCtxopPreempt
  repeat' first
    | with_reducible first
        | assumption | intro _ | apply issue_canon | apply State.ctxopBy_canon | apply canonN_next
    | dsimp only

theorem execCtxopRestore_canon (f : Fields) (s : State) (h : s.Canon) :
    CanonN (execCtxopRestore f s) := by
  unfold execCtxopRestore
  repeat' first
    | with_reducible first
        | assumption | intro _ | apply issue_canon | apply State.ctxopBy_canon | apply canonN_next
    | dsimp only

theorem execCtxopReset_canon (f : Fields) (s : State) (h : s.Canon) :
    CanonN (execCtxopReset f s) := by
  unfold execCtxopReset
  repeat' first
    | with_reducible first
        | assumption | intro _ | apply issue_canon | apply State.ctxopBy_canon | apply canonN_next
    | dsimp only

theorem execCtxopDestroy_canon (f : Fields) (s : State) (h : s.Canon) :
    CanonN (execCtxopDestroy f s) := by
  unfold execCtxopDestroy
  repeat' first
    | with_reducible first
        | assumption | intro _ | apply issue_canon | apply State.ctxopBy_canon | apply canonN_next
    | dsimp only

theorem execCtxopQuery_canon (f : Fields) (s : State) (h : s.Canon) :
    CanonN (execCtxopQuery f s) := by
  unfold execCtxopQuery
  repeat' first
    | with_reducible first
        | assumption | intro _ | apply issue_canon | apply State.ctxopBy_canon | apply canonN_next
    | dsimp only

theorem execCtxopModify_canon (f : Fields) (s : State) (h : s.Canon) :
    CanonN (execCtxopModify f s) := by
  unfold execCtxopModify
  repeat' first
    | with_reducible first
        | assumption | intro _ | apply issue_canon | apply State.ctxopBy_canon | apply canonN_next
    | dsimp only

theorem State.answerCommand_canon (s : State) (u : User) (cmd : BitVec 256) (w : W64) (h : s.Canon) :
    (State.answerCommand s u cmd w).Canon := by
  unfold State.answerCommand
  repeat' first | with_reducible (first | assumption | apply State.askChecked_canon) | dsimp only | split

theorem State.serveCommand_canon (s : State) (id : Nat) (node : BitVec 16) (sctx : BitVec 8) (cmd : BitVec 256) (h : s.Canon) :
    (State.serveCommand s id node sctx cmd).Canon := by
  unfold State.serveCommand
  repeat' first
    | with_reducible first
        | assumption | apply State.admits_canon | apply State.ctxop_canon | apply State.answerCommand_canon
        | apply canon_fst (by assumption) | apply canon_snd (by assumption) | apply canon_some (by assumption) | apply canon_id
    | dsimp only | split

theorem execContextCommand_canon (node : BitVec 16) (sctx : BitVec 8) (cmd : BitVec 256) (s : State) (h : s.Canon) :
    CanonN (execContextCommand node sctx cmd s) := by
  unfold execContextCommand
  repeat' first
    | with_reducible first
        | assumption | intro _ | apply State.waitId_canon | apply State.serveWaiting_canon | apply State.serveCommand_canon
        | apply canon_fst (by assumption) | apply canon_snd (by assumption) | apply canon_id | apply canonN_next
    | dsimp only | split

/-! ## CoreEvents -/

theorem execIllegalWord_canon (u_ : BitVec 96) (s : State) (h : s.Canon) :
    CanonN (execIllegalWord u_ s) := by
  unfold execIllegalWord
  repeat' first
    | with_reducible first
        | assumption | apply State.raiseCv_canon | apply State.settle_canon | apply canonN_next
    | dsimp only | split

theorem execPriorityPromotion_canon (core slot : Nat) (s : State) (h : s.Canon) :
    CanonN (execPriorityPromotion core slot s) := by
  unfold execPriorityPromotion
  repeat' first | with_reducible (first | assumption | apply State.setCv_canon | apply canonN_next) | dsimp only

theorem execYieldExpires_canon (core slot : Nat) (s : State) (h : s.Canon) :
    CanonN (execYieldExpires core slot s) := by
  unfold execYieldExpires
  repeat' first | with_reducible (first | assumption | apply State.setCv_canon | apply canonN_next) | dsimp only

theorem execSleepEnd_canon (core slot : Nat) (s : State) (h : s.Canon) :
    CanonN (execSleepEnd core slot s) := by
  unfold execSleepEnd
  repeat' first
    | with_reducible first
        | assumption | apply State.setCv_canon | apply State.settle_canon | apply canonN_next
    | dsimp only | split

theorem State.serveWait_canon (s : State) (w : Waiting) (h : s.Canon) :
    (State.serveWait s w).Canon := by
  unfold State.serveWait
  repeat' first
    | with_reducible first
        | assumption | intro _ | apply State.serveWaiting_canon | apply State.serveRequest_canon | apply State.block_canon
        | apply State.serveBlock_canon | apply State.serveMarker_canon | apply State.serveCommand_canon
        | apply State.serveDoorbell_canon | apply canon_fst (by assumption) | apply canon_snd (by assumption) | apply canon_id
    | dsimp only | split

theorem State.goOp_canon (s : State) (o : Op) (h : s.Canon) :
    (State.goOp s o).Canon := by
  unfold State.goOp
  repeat' first
    | with_reducible first
        | assumption | apply State.queueCommand_canon | apply State.serveOp_canon | apply State.remoteSend_canon
        | apply State.sendTile_canon | apply State.blkSend_canon | apply State.rred_canon | apply State.rredSend_canon
        | apply canon_fst (by assumption) | apply canon_snd (by assumption) | apply canon_id
    | dsimp only | split

theorem execChannelRequest_canon (op : Nat) (s : State) (h : s.Canon) :
    CanonN (execChannelRequest op s) := by
  unfold execChannelRequest
  repeat' first
    | with_reducible first
        | assumption | intro _ | apply State.serveWait_canon | apply State.postWaiting_canon | apply State.writeOvf_canon
        | apply State.goOp_canon | apply foldl_canon | apply foldl_fst_canon | apply canon_fst (by assumption)
        | apply canon_snd (by assumption) | apply canon_some (by assumption) | apply canon_id | apply foldl_served_canon
        | apply canonN_next
    | dsimp only | split

theorem State.goOn_canon (s : State) (k slot : Nat) (h : s.Canon) :
    (State.goOn s k slot).Canon := by
  unfold State.goOn
  repeat' first
    | with_reducible first
        | assumption | apply State.wakeBarrier_canon | apply State.setCv_canon | apply State.settle_canon
        | apply canon_fst (by assumption) | apply canon_snd (by assumption)
    | dsimp only | split

theorem execWaitSatisfied_canon (core slot : Nat) (s : State) (h : s.Canon) :
    CanonN (execWaitSatisfied core slot s) := by
  unfold execWaitSatisfied
  repeat' first
    | with_reducible first
        | assumption | apply State.goOn_canon | apply State.setCv_canon | apply State.writeTrapRecord_canon | apply canonN_next
    | dsimp only | split

theorem execPartyDeparture_canon (core slot : Nat) (s : State) (h : s.Canon) :
    CanonN (execPartyDeparture core slot s) := by
  unfold execPartyDeparture
  repeat' first
    | with_reducible first
        | assumption | apply State.setCv_canon | apply State.leaveParty_canon | apply State.settle_canon | apply canonN_next
    | dsimp only | split

theorem execAccallocGrant_canon (core : Nat) (s : State) (h : s.Canon) :
    CanonN (execAccallocGrant core s) := by
  unfold execAccallocGrant
  repeat' first
    | with_reducible first
        | assumption | apply State.setCore_canon | apply State.setCv_canon | apply State.bindGranules_canon
        | apply State.answerP_canon | apply State.settle_canon | apply canon_fst (by assumption)
        | apply canon_snd (by assumption) | apply canon_some (by assumption) | apply canonO_foldl_bind | apply canonN_next
    | dsimp only | split

theorem State.leaveOps_canon (s : State) (k slot : Nat) (h : s.Canon) :
    (State.leaveOps s k slot).Canon := by
  unfold State.leaveOps
  repeat' first
    | with_reducible first
        | assumption | intro _ | apply State.landTst_canon | apply State.fetch_canon | apply State.setCv_canon
        | apply foldl_canon | apply foldl_fst_canon | apply canon_fst (by assumption) | apply canon_snd (by assumption)
    | dsimp only | split

theorem State.leaveCore_canon (s : State) (k slot : Nat) (h : s.Canon) :
    (State.leaveCore s k slot).Canon := by
  unfold State.leaveCore
  repeat' first
    | with_reducible first
        | assumption | intro _ | apply State.setCore_canon | apply State.leaveParty_canon | apply State.leaveOps_canon
        | apply State.dropAsked_canon | apply State.setCtx_canon | apply State.setCv_canon
    | dsimp only | split | dsimp only [State.Canon]

theorem execCaravanExit_canon (core slot : Nat) (s : State) (h : s.Canon) :
    CanonN (execCaravanExit core slot s) := by
  unfold execCaravanExit
  repeat' first | with_reducible (first | assumption | apply State.leaveCore_canon | apply canonN_next) | dsimp only | split

theorem State.releaseDone_canon (s : State) (k slot : Nat) (h : s.Canon) :
    (State.releaseDone s k slot).Canon := by
  unfold State.releaseDone
  repeat' first
    | with_reducible first
        | assumption | intro _ | apply State.drainFifo_canon | apply State.flushFabric_canon | apply State.setCv_canon
        | apply State.release_canon | apply State.asAgent_canon | apply State.acquire_canon | apply State.joinedStore_canon
        | apply State.settle_canon | apply canon_fst (by assumption) | apply canon_snd (by assumption)
        | apply canon_some (by assumption)
    | dsimp only | split

theorem execReleaseComplete_canon (core slot : Nat) (s : State) (h : s.Canon) :
    CanonN (execReleaseComplete core slot s) := by
  unfold execReleaseComplete
  repeat' first | with_reducible (first | assumption | apply State.releaseDone_canon | apply canonN_next) | dsimp only

theorem execLineEviction_canon (cache : CacheId) (asid : BitVec 16) (line : Nat) (s : State) (h : s.Canon) :
    CanonN (execLineEviction cache asid line s) := by
  unfold execLineEviction
  repeat' first
    | with_reducible first
        | assumption | intro _ | apply State.cleanL1_canon | apply State.dropL1_canon | apply State.flushL2_canon
        | apply State.mscOut_canon | apply foldl_canon | apply foldl_fst_canon | apply canon_fst (by assumption)
        | apply canon_snd (by assumption) | apply canonN_next
    | dsimp only | split

theorem execHeldRecordRetry_canon (c : Nat) (cons : Option (BitVec 64)) (s : State) (h : s.Canon) :
    CanonN (execHeldRecordRetry c cons s) := by
  unfold execHeldRecordRetry
  repeat' first
    | with_reducible first
        | assumption | apply State.setQueue_canon | apply State.retryQueues_canon | apply canon_fst (by assumption)
        | apply canon_snd (by assumption) | apply canon_some (by assumption) | apply canonN_next
    | dsimp only | split

/-! ## BringUp -/

theorem State.resetDevice_canon (s : State) (h : s.Canon) :
    (State.resetDevice s).Canon := by
  unfold State.resetDevice
  repeat' first | with_reducible (first | assumption | intro _) | dsimp only
  exact (rfl : Memory.wf State.reset.mem = true)

theorem execDeviceReset_canon (s : State) (h : s.Canon) :
    CanonN (execDeviceReset s) := by
  unfold execDeviceReset
  repeat' first | with_reducible (first | assumption | apply State.resetDevice_canon | apply canonN_next) | dsimp only

theorem State.toStep_canon (s : State) (n : Nat) (h : s.Canon) :
    (State.toStep s n).Canon := by
  unfold State.toStep
  repeat' first | with_reducible (first | assumption) | dsimp only

theorem execBoot_canon (valid : Bool) (counter : Nat) (s : State) (h : s.Canon) :
    CanonN (execBoot valid counter s) := by
  unfold execBoot
  repeat' first | with_reducible (first | assumption | apply State.toStep_canon | apply canonN_next) | dsimp only | split

theorem execRepairStep_canon (s : State) (h : s.Canon) :
    CanonN (execRepairStep s) := by
  unfold execRepairStep
  repeat' first
    | with_reducible first
        | assumption | intro _ | apply mstore_keeps_wf | apply mset_keeps_wf | apply mzero_keeps_wf | apply foldl_keeps_wf
        | apply filter_keeps_wf | apply foldl_fst_wf | apply wf_fst (by assumption) | apply State.toStep_canon
        | apply canonN_next
    | dsimp only | split

theorem execMapStep_canon (s : State) (h : s.Canon) :
    CanonN (execMapStep s) := by
  unfold execMapStep
  repeat' first
    | with_reducible first
        | assumption | intro _ | apply State.setDie_canon | apply State.toStep_canon | apply foldl_canon
        | apply foldl_fst_canon | apply canon_fst (by assumption) | apply canon_snd (by assumption) | apply canonN_next
    | dsimp only | split

theorem execMeasure_canon (s : State) (h : s.Canon) :
    CanonN (execMeasure s) := by
  unfold execMeasure
  repeat' first | with_reducible (first | assumption | apply canon_some (by assumption) | apply canonN_next) | dsimp only | split

theorem State.train_canon (s : State) (p : Nat) (h : s.Canon) :
    (State.train s p).Canon := by
  unfold State.train
  repeat' first | with_reducible (first | assumption | apply State.setPort_canon) | dsimp only | split

theorem execLinks_canon (s : State) (h : s.Canon) :
    CanonN (execLinks s) := by
  unfold execLinks
  repeat' first
    | with_reducible first
        | assumption | intro _ | apply State.train_canon | apply foldl_canon | apply foldl_fst_canon
        | apply canon_fst (by assumption) | apply canon_snd (by assumption) | apply canonN_next
    | dsimp only | split

theorem execNodeidAssigned_canon (id : BitVec 16) (s : State) (h : s.Canon) :
    CanonN (execNodeidAssigned id s) := by
  unfold execNodeidAssigned
  repeat' first | with_reducible (first | assumption | intro _ | apply canon_id | apply canonN_next) | dsimp only | split

theorem execSystemStep_canon (s : State) (h : s.Canon) :
    CanonN (execSystemStep s) := by
  unfold execSystemStep
  repeat' first
    | with_reducible first
        | assumption | intro _ | apply State.setCtx_canon | apply State.devWrites_canon | apply State.toStep_canon
        | apply State.event_canon | apply canonN_next
    | dsimp only | split

theorem State.reclock_canon (s : State) (f : Nat → Nat) (h : s.Canon) :
    (State.reclock s f).Canon := by
  unfold State.reclock
  repeat' first
    | with_reducible first
        | assumption | intro _ | apply State.setDie_canon | apply State.event_canon | apply foldl_canon | apply foldl_fst_canon
        | apply canon_fst (by assumption) | apply canon_snd (by assumption)
    | dsimp only | split

theorem execPowerWindow_canon (watts : Nat) (s : State) (h : s.Canon) :
    CanonN (execPowerWindow watts s) := by
  unfold execPowerWindow
  repeat' first | with_reducible (first | assumption | apply State.reclock_canon | apply canonN_next) | dsimp only | split

theorem execThermalLimit_canon (s : State) (h : s.Canon) :
    CanonN (execThermalLimit s) := by
  unfold execThermalLimit
  repeat' first | with_reducible (first | assumption | apply State.reclock_canon | apply canonN_next) | dsimp only

theorem execThermalShutdown_canon (s : State) (h : s.Canon) :
    CanonN (execThermalShutdown s) := by
  unfold execThermalShutdown
  repeat' first | with_reducible (first | assumption | apply State.resetDevice_canon | apply canonN_next) | dsimp only

theorem State.setSpdm_canon (s : State) (x : Spdm) (h : s.Canon) :
    (State.setSpdm s x).Canon := by
  unfold State.setSpdm
  repeat' first | with_reducible (first | assumption) | dsimp only

theorem State.spdmAnswer_canon (s : State) (code : Nat) (h : s.Canon) :
    (State.spdmAnswer s code).Canon := by
  unfold State.spdmAnswer
  repeat' first | with_reducible (first | assumption | apply State.send_canon) | dsimp only

theorem State.spdm_canon (s : State) (ok : Spdm → Bool) (go : State → State) (h : s.Canon) (hgo : ∀ x, x.Canon → (go x).Canon) :
    (State.spdm s ok go).Canon := by
  unfold State.spdm
  repeat' first | with_reducible (first | assumption | intro _ | apply State.send_canon | apply hgo) | dsimp only | split

theorem execGetVersion_canon (s : State) (h : s.Canon) :
    CanonN (execGetVersion s) := by
  unfold execGetVersion
  repeat' first
    | with_reducible first
        | assumption | intro _ | apply State.spdm_canon | apply State.setSpdm_canon | apply State.spdmAnswer_canon
        | apply canonN_next
    | dsimp only

theorem execGetCapabilities_canon (s : State) (h : s.Canon) :
    CanonN (execGetCapabilities s) := by
  unfold execGetCapabilities
  repeat' first
    | with_reducible first
        | assumption | intro _ | apply State.spdm_canon | apply State.setSpdm_canon | apply State.spdmAnswer_canon
        | apply canonN_next
    | dsimp only

theorem execNegotiateAlgorithms_canon (s : State) (h : s.Canon) :
    CanonN (execNegotiateAlgorithms s) := by
  unfold execNegotiateAlgorithms
  repeat' first
    | with_reducible first
        | assumption | intro _ | apply State.spdm_canon | apply State.setSpdm_canon | apply State.spdmAnswer_canon
        | apply canonN_next
    | dsimp only

theorem execGetDigests_canon (s : State) (h : s.Canon) :
    CanonN (execGetDigests s) := by
  unfold execGetDigests
  repeat' first
    | with_reducible first
        | assumption | intro _ | apply State.spdm_canon | apply State.spdmAnswer_canon | apply canonN_next
    | dsimp only

theorem execGetCertificate_canon (s : State) (h : s.Canon) :
    CanonN (execGetCertificate s) := by
  unfold execGetCertificate
  repeat' first
    | with_reducible first
        | assumption | intro _ | apply State.spdm_canon | apply State.spdmAnswer_canon | apply canonN_next
    | dsimp only

theorem execChallenge_canon (s : State) (h : s.Canon) :
    CanonN (execChallenge s) := by
  unfold execChallenge
  repeat' first
    | with_reducible first
        | assumption | intro _ | apply State.spdm_canon | apply State.spdmAnswer_canon | apply canonN_next
    | dsimp only

theorem execGetMeasurements_canon (index : Nat) (s : State) (h : s.Canon) :
    CanonN (execGetMeasurements index s) := by
  unfold execGetMeasurements
  repeat' first
    | with_reducible first
        | assumption | intro _ | apply State.spdm_canon | apply State.send_canon | apply State.setSpdm_canon
        | apply canon_fst (by assumption) | apply canon_snd (by assumption) | apply canon_some (by assumption)
        | apply canonN_next
    | dsimp only | split

theorem execKeyExchange_canon (s : State) (h : s.Canon) :
    CanonN (execKeyExchange s) := by
  unfold execKeyExchange
  repeat' first
    | with_reducible first
        | assumption | intro _ | apply State.spdm_canon | apply State.setSpdm_canon | apply State.spdmAnswer_canon
        | apply canonN_next
    | dsimp only

theorem execFinish_canon (s : State) (h : s.Canon) :
    CanonN (execFinish s) := by
  unfold execFinish
  repeat' first
    | with_reducible first
        | assumption | intro _ | apply State.spdm_canon | apply State.setSpdm_canon | apply State.spdmAnswer_canon
        | apply canonN_next
    | dsimp only

theorem execEndSession_canon (s : State) (h : s.Canon) :
    CanonN (execEndSession s) := by
  unfold execEndSession
  repeat' first
    | with_reducible first
        | assumption | intro _ | apply State.spdm_canon | apply State.setSpdm_canon | apply State.spdmAnswer_canon
        | apply canonN_next
    | dsimp only

theorem State.vendorOk_canon (s : State) (data : BitVec 512) (h : s.Canon) :
    (State.vendorOk s data).Canon := by
  unfold State.vendorOk
  repeat' first | with_reducible (first | assumption | apply State.send_canon) | dsimp only

theorem execLoadKey_canon (slot : Nat) (key : BitVec 512) (s : State) (h : s.Canon) :
    CanonN (execLoadKey slot key s) := by
  unfold execLoadKey
  repeat' first
    | with_reducible first
        | assumption | intro _ | apply State.spdm_canon | apply State.send_canon | apply State.event_canon
        | apply State.vendorOk_canon | apply canonN_next
    | dsimp only | split

theorem execAdmitHost_canon (node : BitVec 16) (s : State) (h : s.Canon) :
    CanonN (execAdmitHost node s) := by
  unfold execAdmitHost
  repeat' first
    | with_reducible first
        | assumption | intro _ | apply State.spdm_canon | apply State.vendorOk_canon | apply State.send_canon
        | apply canonN_next
    | dsimp only | split

theorem execGetBringup_canon (s : State) (h : s.Canon) :
    CanonN (execGetBringup s) := by
  unfold execGetBringup
  repeat' first
    | with_reducible first
        | assumption | intro _ | apply State.spdm_canon | apply State.vendorOk_canon | apply canonN_next
    | dsimp only

theorem execSetPinned_canon (dies : BitVec 8) (caps : BitVec 40) (s : State) (h : s.Canon) :
    CanonN (execSetPinned dies caps s) := by
  unfold execSetPinned
  repeat' first
    | with_reducible first
        | assumption | intro _ | apply State.spdm_canon | apply State.send_canon | apply State.vendorOk_canon
        | apply foldl_canon | apply foldl_fst_canon | apply canon_fst (by assumption) | apply canon_snd (by assumption)
        | apply canonN_next
    | dsimp only | split

/-! ## Integer -/

theorem State.alu_canon (s : State) (f : Fields) (zero : Bool) (g : W32 → W32 → W32 → W32) (h : s.Canon) :
    (State.alu s f zero g).Canon := by
  unfold State.alu
  repeat' first | with_reducible (first | assumption | intro _ | apply State.putV_canon | apply State.advance_canon) | dsimp only

theorem State.aluF_canon (s : State) (f : Fields) (g : W32 → W32 → W32 × Flag) (h : s.Canon) :
    (State.aluF s f g).Canon := by
  unfold State.aluF
  repeat' first
    | with_reducible first
        | assumption | intro _ | apply State.putV_canon | apply State.raise_canon | apply State.advance_canon
    | dsimp only

theorem State.aluC_canon (s : State) (f : Fields) (g : W32 → W32 → Nat → W32 × Bool) (h : s.Canon) :
    (State.aluC s f g).Canon := by
  unfold State.aluC
  repeat' first
    | with_reducible first
        | assumption | intro _ | apply State.putV_canon | apply State.putP_canon | apply State.advance_canon
    | dsimp only | split

theorem State.alu64_canon (s : State) (f : Fields) (g : W64 → Nat → W64) (h : s.Canon) :
    (State.alu64 s f g).Canon := by
  unfold State.alu64
  repeat' first
    | with_reducible first
        | assumption | intro _ | apply State.putV64_canon | apply State.advance_canon
    | dsimp only

theorem execIadd_canon (f : Fields) (s : State) (h : s.Canon) :
    CanonN (execIadd f s) := by
  unfold execIadd
  repeat' first
    | with_reducible first
        | assumption | intro _ | apply issue_canon | apply State.aluF_canon | apply canonN_next
    | dsimp only

theorem execIsub_canon (f : Fields) (s : State) (h : s.Canon) :
    CanonN (execIsub f s) := by
  unfold execIsub
  repeat' first
    | with_reducible first
        | assumption | intro _ | apply issue_canon | apply State.aluF_canon | apply canonN_next
    | dsimp only

theorem execImul_canon (f : Fields) (s : State) (h : s.Canon) :
    CanonN (execImul f s) := by
  unfold execImul
  repeat' first
    | with_reducible first
        | assumption | intro _ | apply issue_canon | apply State.alu_canon | apply canonN_next
    | dsimp only

theorem execImulh_canon (f : Fields) (s : State) (h : s.Canon) :
    CanonN (execImulh f s) := by
  unfold execImulh
  repeat' first
    | with_reducible first
        | assumption | intro _ | apply issue_canon | apply State.alu_canon | apply canonN_next
    | dsimp only

theorem execImad_canon (f : Fields) (s : State) (h : s.Canon) :
    CanonN (execImad f s) := by
  unfold execImad
  repeat' first
    | with_reducible first
        | assumption | intro _ | apply issue_canon | apply State.alu_canon | apply canonN_next
    | dsimp only

theorem execImin_canon (f : Fields) (s : State) (h : s.Canon) :
    CanonN (execImin f s) := by
  unfold execImin
  repeat' first
    | with_reducible first
        | assumption | intro _ | apply issue_canon | apply State.alu_canon | apply canonN_next
    | dsimp only | split

theorem execImax_canon (f : Fields) (s : State) (h : s.Canon) :
    CanonN (execImax f s) := by
  unfold execImax
  repeat' first
    | with_reducible first
        | assumption | intro _ | apply issue_canon | apply State.alu_canon | apply canonN_next
    | dsimp only | split

theorem execIabs_canon (f : Fields) (s : State) (h : s.Canon) :
    CanonN (execIabs f s) := by
  unfold execIabs
  repeat' first
    | with_reducible first
        | assumption | intro _ | apply issue_canon | apply State.aluF_canon | apply canonN_next
    | dsimp only

theorem execIaddc_canon (f : Fields) (s : State) (h : s.Canon) :
    CanonN (execIaddc f s) := by
  unfold execIaddc
  repeat' first
    | with_reducible first
        | assumption | intro _ | apply issue_canon | apply State.aluC_canon | apply canonN_next
    | dsimp only

theorem execIsubb_canon (f : Fields) (s : State) (h : s.Canon) :
    CanonN (execIsubb f s) := by
  unfold execIsubb
  repeat' first
    | with_reducible first
        | assumption | intro _ | apply issue_canon | apply State.aluC_canon | apply canonN_next
    | dsimp only

theorem execShl_canon (f : Fields) (s : State) (h : s.Canon) :
    CanonN (execShl f s) := by
  unfold execShl
  repeat' first
    | with_reducible first
        | assumption | intro _ | apply issue_canon | apply State.alu_canon | apply canonN_next
    | dsimp only

theorem execShr_canon (f : Fields) (s : State) (h : s.Canon) :
    CanonN (execShr f s) := by
  unfold execShr
  repeat' first
    | with_reducible first
        | assumption | intro _ | apply issue_canon | apply State.alu_canon | apply canonN_next
    | dsimp only

theorem execSar_canon (f : Fields) (s : State) (h : s.Canon) :
    CanonN (execSar f s) := by
  unfold execSar
  repeat' first
    | with_reducible first
        | assumption | intro _ | apply issue_canon | apply State.alu_canon | apply canonN_next
    | dsimp only

theorem execRotl_canon (f : Fields) (s : State) (h : s.Canon) :
    CanonN (execRotl f s) := by
  unfold execRotl
  repeat' first
    | with_reducible first
        | assumption | intro _ | apply issue_canon | apply State.alu_canon | apply canonN_next
    | dsimp only

theorem execAndI_canon (f : Fields) (s : State) (h : s.Canon) :
    CanonN (execAndI f s) := by
  unfold execAndI
  repeat' first
    | with_reducible first
        | assumption | intro _ | apply issue_canon | apply State.alu_canon | apply canonN_next
    | dsimp only

theorem execOrI_canon (f : Fields) (s : State) (h : s.Canon) :
    CanonN (execOrI f s) := by
  unfold execOrI
  repeat' first
    | with_reducible first
        | assumption | intro _ | apply issue_canon | apply State.alu_canon | apply canonN_next
    | dsimp only

theorem execXorI_canon (f : Fields) (s : State) (h : s.Canon) :
    CanonN (execXorI f s) := by
  unfold execXorI
  repeat' first
    | with_reducible first
        | assumption | intro _ | apply issue_canon | apply State.alu_canon | apply canonN_next
    | dsimp only

theorem execAndn_canon (f : Fields) (s : State) (h : s.Canon) :
    CanonN (execAndn f s) := by
  unfold execAndn
  repeat' first
    | with_reducible first
        | assumption | intro _ | apply issue_canon | apply State.alu_canon | apply canonN_next
    | dsimp only

theorem execNotI_canon (f : Fields) (s : State) (h : s.Canon) :
    CanonN (execNotI f s) := by
  unfold execNotI
  repeat' first
    | with_reducible first
        | assumption | intro _ | apply issue_canon | apply State.alu_canon | apply canonN_next
    | dsimp only

theorem execTtab_canon (f : Fields) (s : State) (h : s.Canon) :
    CanonN (execTtab f s) := by
  unfold execTtab
  repeat' first
    | with_reducible first
        | assumption | intro _ | apply issue_canon | apply State.alu_canon | apply canonN_next
    | dsimp only

theorem execBfe_canon (f : Fields) (s : State) (h : s.Canon) :
    CanonN (execBfe f s) := by
  unfold execBfe
  repeat' first
    | with_reducible first
        | assumption | intro _ | apply issue_canon | apply State.alu_canon | apply canonN_next
    | dsimp only

theorem execBfi_canon (f : Fields) (s : State) (h : s.Canon) :
    CanonN (execBfi f s) := by
  unfold execBfi
  repeat' first
    | with_reducible first
        | assumption | intro _ | apply issue_canon | apply State.alu_canon | apply canonN_next
    | dsimp only

theorem execPopc_canon (f : Fields) (s : State) (h : s.Canon) :
    CanonN (execPopc f s) := by
  unfold execPopc
  repeat' first
    | with_reducible first
        | assumption | intro _ | apply issue_canon | apply State.alu_canon | apply canonN_next
    | dsimp only

theorem execClz_canon (f : Fields) (s : State) (h : s.Canon) :
    CanonN (execClz f s) := by
  unfold execClz
  repeat' first
    | with_reducible first
        | assumption | intro _ | apply issue_canon | apply State.alu_canon | apply canonN_next
    | dsimp only

theorem execBrev_canon (f : Fields) (s : State) (h : s.Canon) :
    CanonN (execBrev f s) := by
  unfold execBrev
  repeat' first
    | with_reducible first
        | assumption | intro _ | apply issue_canon | apply State.alu_canon | apply canonN_next
    | dsimp only

theorem execPrmt_canon (f : Fields) (s : State) (h : s.Canon) :
    CanonN (execPrmt f s) := by
  unfold execPrmt
  repeat' first
    | with_reducible first
        | assumption | intro _ | apply issue_canon | apply State.alu_canon | apply canonN_next
    | dsimp only

theorem execIset_canon (f : Fields) (s : State) (h : s.Canon) :
    CanonN (execIset f s) := by
  unfold execIset
  repeat' first
    | with_reducible first
        | assumption | intro _ | apply issue_canon | apply State.putP_canon | apply State.advance_canon | apply canonN_next
    | dsimp only

theorem execIadd64_canon (f : Fields) (s : State) (h : s.Canon) :
    CanonN (execIadd64 f s) := by
  unfold execIadd64
  repeat' first
    | with_reducible first
        | assumption | intro _ | apply issue_canon | apply State.alu64_canon | apply canonN_next
    | dsimp only

theorem execImad64_canon (f : Fields) (s : State) (h : s.Canon) :
    CanonN (execImad64 f s) := by
  unfold execImad64
  repeat' first
    | with_reducible first
        | assumption | intro _ | apply issue_canon | apply State.alu64_canon | apply canonN_next
    | dsimp only

theorem execSel_canon (f : Fields) (s : State) (h : s.Canon) :
    CanonN (execSel f s) := by
  unfold execSel
  repeat' first
    | with_reducible first
        | assumption | intro _ | apply issue_canon | apply State.putV_canon | apply State.advance_canon | apply canonN_next
    | dsimp only | split

theorem execMov_canon (f : Fields) (s : State) (h : s.Canon) :
    CanonN (execMov f s) := by
  unfold execMov
  repeat' first
    | with_reducible first
        | assumption | intro _ | apply issue_canon | apply State.putV_canon | apply State.advance_canon
        | apply State.putV64_canon | apply canonN_next
    | dsimp only | split

theorem execMovi_canon (f : Fields) (s : State) (h : s.Canon) :
    CanonN (execMovi f s) := by
  unfold execMovi
  repeat' first
    | with_reducible first
        | assumption | intro _ | apply issue_canon | apply State.putV_canon | apply State.advance_canon | apply canonN_next
    | dsimp only

/-! ## Float -/

theorem State.fpu_canon (s : State) (f : Fields) (v : Nat → Nat × Flag) (h : s.Canon) :
    (State.fpu s f v).Canon := by
  unfold State.fpu
  repeat' first
    | with_reducible first
        | assumption | intro _ | apply State.putV_canon | apply State.raise_canon | apply State.advance_canon
    | dsimp only

theorem State.fpu64_canon (s : State) (f : Fields) (v : Nat → Nat × Flag) (h : s.Canon) :
    (State.fpu64 s f v).Canon := by
  unfold State.fpu64
  repeat' first
    | with_reducible first
        | assumption | intro _ | apply State.putV64_canon | apply State.raise_canon | apply State.advance_canon
    | dsimp only

theorem State.fpuP_canon (s : State) (f : Fields) (v : Nat → Bool × Flag) (h : s.Canon) :
    (State.fpuP s f v).Canon := by
  unfold State.fpuP
  repeat' first
    | with_reducible first
        | assumption | intro _ | apply State.putP_canon | apply State.raise_canon | apply State.advance_canon
    | dsimp only

theorem State.f32op_canon (s : State) (f : Fields) (g : Nat → Nat → Nat → Nat × Flag) (h : s.Canon) :
    (State.f32op s f g).Canon := by
  unfold State.f32op
  repeat' first | with_reducible (first | assumption | intro _ | apply State.fpu_canon) | dsimp only

theorem State.f64op_canon (s : State) (f : Fields) (g : Nat → Nat → Nat → Nat × Flag) (h : s.Canon) :
    (State.f64op s f g).Canon := by
  unfold State.f64op
  repeat' first | with_reducible (first | assumption | intro _ | apply State.fpu64_canon) | dsimp only

theorem State.pkop_canon (s : State) (f : Fields) (g : Nat → Nat → Nat → Nat × Flag) (h : s.Canon) :
    (State.pkop s f g).Canon := by
  unfold State.pkop
  repeat' first | with_reducible (first | assumption | intro _ | apply State.fpu_canon) | dsimp only

theorem State.putType_canon (s : State) (f : Fields) (t : Nat) (v : Nat → Nat × Flag) (h : s.Canon) :
    (State.putType s f t v).Canon := by
  unfold State.putType
  repeat' first
    | with_reducible first
        | assumption | intro _ | apply State.fpu64_canon | apply State.fpu_canon
    | dsimp only | split

theorem execFadd_canon (f : Fields) (s : State) (h : s.Canon) :
    CanonN (execFadd f s) := by
  unfold execFadd
  repeat' first
    | with_reducible first
        | assumption | intro _ | apply issue_canon | apply State.f32op_canon | apply canonN_next
    | dsimp only

theorem execFmul_canon (f : Fields) (s : State) (h : s.Canon) :
    CanonN (execFmul f s) := by
  unfold execFmul
  repeat' first
    | with_reducible first
        | assumption | intro _ | apply issue_canon | apply State.f32op_canon | apply canonN_next
    | dsimp only

theorem execFfma_canon (f : Fields) (s : State) (h : s.Canon) :
    CanonN (execFfma f s) := by
  unfold execFfma
  repeat' first
    | with_reducible first
        | assumption | intro _ | apply issue_canon | apply State.f32op_canon | apply canonN_next
    | dsimp only

theorem execFmin_canon (f : Fields) (s : State) (h : s.Canon) :
    CanonN (execFmin f s) := by
  unfold execFmin
  repeat' first
    | with_reducible first
        | assumption | intro _ | apply issue_canon | apply State.f32op_canon | apply canonN_next
    | dsimp only

theorem execFmax_canon (f : Fields) (s : State) (h : s.Canon) :
    CanonN (execFmax f s) := by
  unfold execFmax
  repeat' first
    | with_reducible first
        | assumption | intro _ | apply issue_canon | apply State.f32op_canon | apply canonN_next
    | dsimp only

theorem execFset_canon (f : Fields) (s : State) (h : s.Canon) :
    CanonN (execFset f s) := by
  unfold execFset
  repeat' first
    | with_reducible first
        | assumption | intro _ | apply issue_canon | apply State.fpuP_canon | apply canonN_next
    | dsimp only

theorem execFrcp_canon (f : Fields) (s : State) (h : s.Canon) :
    CanonN (execFrcp f s) := by
  unfold execFrcp
  repeat' first
    | with_reducible first
        | assumption | intro _ | apply issue_canon | apply State.f32op_canon | apply canonN_next
    | dsimp only

theorem execFrsq_canon (f : Fields) (s : State) (h : s.Canon) :
    CanonN (execFrsq f s) := by
  unfold execFrsq
  repeat' first
    | with_reducible first
        | assumption | intro _ | apply issue_canon | apply State.f32op_canon | apply canonN_next
    | dsimp only

theorem execFsqrt_canon (f : Fields) (s : State) (h : s.Canon) :
    CanonN (execFsqrt f s) := by
  unfold execFsqrt
  repeat' first
    | with_reducible first
        | assumption | intro _ | apply issue_canon | apply State.f32op_canon | apply canonN_next
    | dsimp only

theorem execFex2_canon (f : Fields) (s : State) (h : s.Canon) :
    CanonN (execFex2 f s) := by
  unfold execFex2
  repeat' first
    | with_reducible first
        | assumption | intro _ | apply issue_canon | apply State.f32op_canon | apply canonN_next
    | dsimp only

theorem execFlg2_canon (f : Fields) (s : State) (h : s.Canon) :
    CanonN (execFlg2 f s) := by
  unfold execFlg2
  repeat' first
    | with_reducible first
        | assumption | intro _ | apply issue_canon | apply State.f32op_canon | apply canonN_next
    | dsimp only

theorem execFrnd_canon (f : Fields) (s : State) (h : s.Canon) :
    CanonN (execFrnd f s) := by
  unfold execFrnd
  repeat' first
    | with_reducible first
        | assumption | intro _ | apply issue_canon | apply State.f32op_canon | apply canonN_next
    | dsimp only

theorem execFscl_canon (f : Fields) (s : State) (h : s.Canon) :
    CanonN (execFscl f s) := by
  unfold execFscl
  repeat' first
    | with_reducible first
        | assumption | intro _ | apply issue_canon | apply State.fpu_canon | apply canonN_next
    | dsimp only

theorem execFclass_canon (f : Fields) (s : State) (h : s.Canon) :
    CanonN (execFclass f s) := by
  unfold execFclass
  repeat' first
    | with_reducible first
        | assumption | intro _ | apply issue_canon | apply State.putV_canon | apply State.advance_canon | apply canonN_next
    | dsimp only

theorem execDadd_canon (f : Fields) (s : State) (h : s.Canon) :
    CanonN (execDadd f s) := by
  unfold execDadd
  repeat' first
    | with_reducible first
        | assumption | intro _ | apply issue_canon | apply State.f64op_canon | apply canonN_next
    | dsimp only

theorem execDmul_canon (f : Fields) (s : State) (h : s.Canon) :
    CanonN (execDmul f s) := by
  unfold execDmul
  repeat' first
    | with_reducible first
        | assumption | intro _ | apply issue_canon | apply State.f64op_canon | apply canonN_next
    | dsimp only

theorem execDfma_canon (f : Fields) (s : State) (h : s.Canon) :
    CanonN (execDfma f s) := by
  unfold execDfma
  repeat' first
    | with_reducible first
        | assumption | intro _ | apply issue_canon | apply State.f64op_canon | apply canonN_next
    | dsimp only

theorem execDmin_canon (f : Fields) (s : State) (h : s.Canon) :
    CanonN (execDmin f s) := by
  unfold execDmin
  repeat' first
    | with_reducible first
        | assumption | intro _ | apply issue_canon | apply State.f64op_canon | apply canonN_next
    | dsimp only

theorem execDmax_canon (f : Fields) (s : State) (h : s.Canon) :
    CanonN (execDmax f s) := by
  unfold execDmax
  repeat' first
    | with_reducible first
        | assumption | intro _ | apply issue_canon | apply State.f64op_canon | apply canonN_next
    | dsimp only

theorem execDset_canon (f : Fields) (s : State) (h : s.Canon) :
    CanonN (execDset f s) := by
  unfold execDset
  repeat' first
    | with_reducible first
        | assumption | intro _ | apply issue_canon | apply State.fpuP_canon | apply canonN_next
    | dsimp only

theorem execPkadd_canon (f : Fields) (s : State) (h : s.Canon) :
    CanonN (execPkadd f s) := by
  unfold execPkadd
  repeat' first
    | with_reducible first
        | assumption | intro _ | apply issue_canon | apply State.pkop_canon | apply canonN_next
    | dsimp only

theorem execPkmul_canon (f : Fields) (s : State) (h : s.Canon) :
    CanonN (execPkmul f s) := by
  unfold execPkmul
  repeat' first
    | with_reducible first
        | assumption | intro _ | apply issue_canon | apply State.pkop_canon | apply canonN_next
    | dsimp only

theorem execPkfma_canon (f : Fields) (s : State) (h : s.Canon) :
    CanonN (execPkfma f s) := by
  unfold execPkfma
  repeat' first
    | with_reducible first
        | assumption | intro _ | apply issue_canon | apply State.pkop_canon | apply canonN_next
    | dsimp only

theorem execPkset_canon (f : Fields) (s : State) (h : s.Canon) :
    CanonN (execPkset f s) := by
  unfold execPkset
  repeat' first
    | with_reducible first
        | assumption | intro _ | apply issue_canon | apply State.pkop_canon | apply canon_fst (by assumption)
        | apply canon_snd (by assumption) | apply canonN_next
    | dsimp only | split

theorem execCvt_canon (f : Fields) (s : State) (h : s.Canon) :
    CanonN (execCvt f s) := by
  unfold execCvt
  repeat' first
    | with_reducible first
        | assumption | intro _ | apply issue_canon | apply State.putType_canon | apply canonN_next
    | dsimp only

theorem execCvtsi_canon (f : Fields) (s : State) (h : s.Canon) :
    CanonN (execCvtsi f s) := by
  unfold execCvtsi
  repeat' first
    | with_reducible first
        | assumption | intro _ | apply issue_canon | apply State.putType_canon | apply canonN_next
    | dsimp only

theorem State.dxEncode_canon (s : State) (f : Fields) (h : s.Canon) :
    (State.dxEncode s f).Canon := by
  unfold State.dxEncode
  repeat' first
    | with_reducible first
        | assumption | intro _ | apply State.putV_canon | apply State.setMe_canon | apply State.raise_canon
        | apply State.advance_canon
    | dsimp only | split

theorem execCvtdx_canon (f : Fields) (s : State) (h : s.Canon) :
    CanonN (execCvtdx f s) := by
  unfold execCvtdx
  repeat' first
    | with_reducible first
        | assumption | intro _ | apply issue_canon | apply State.fpu_canon | apply State.dxEncode_canon | apply canonN_next
    | dsimp only | split

/-! ## Lane -/

theorem execPlop_canon (f : Fields) (s : State) (h : s.Canon) :
    CanonN (execPlop f s) := by
  unfold execPlop
  repeat' first
    | with_reducible first
        | assumption | intro _ | apply issue_canon | apply State.putP_canon | apply State.advance_canon | apply canonN_next
    | dsimp only

theorem execPmov_canon (f : Fields) (s : State) (h : s.Canon) :
    CanonN (execPmov f s) := by
  unfold execPmov
  repeat' first
    | with_reducible first
        | assumption | intro _ | apply issue_canon | apply State.putP_canon | apply State.putV_canon
        | apply State.advance_canon | apply canon_fst (by assumption) | apply canon_snd (by assumption) | apply canonN_next
    | dsimp only | split

theorem execBallot_canon (f : Fields) (s : State) (h : s.Canon) :
    CanonN (execBallot f s) := by
  unfold execBallot
  repeat' first
    | with_reducible first
        | assumption | intro _ | apply issue_canon | apply State.putV_canon | apply State.advance_canon | apply canonN_next
    | dsimp only

theorem execVote_canon (f : Fields) (s : State) (h : s.Canon) :
    CanonN (execVote f s) := by
  unfold execVote
  repeat' first
    | with_reducible first
        | assumption | intro _ | apply issue_canon | apply State.putP_canon | apply State.advance_canon
        | apply canon_fst (by assumption) | apply canon_snd (by assumption) | apply canonN_next
    | dsimp only | split

theorem execLaneid_canon (f : Fields) (s : State) (h : s.Canon) :
    CanonN (execLaneid f s) := by
  unfold execLaneid
  repeat' first
    | with_reducible first
        | assumption | intro _ | apply issue_canon | apply State.putV_canon | apply State.advance_canon
        | apply canon_fst (by assumption) | apply canon_snd (by assumption) | apply canonN_next
    | dsimp only | split

theorem execShfl_canon (f : Fields) (s : State) (h : s.Canon) :
    CanonN (execShfl f s) := by
  unfold execShfl
  repeat' first
    | with_reducible first
        | assumption | intro _ | apply issue_canon | apply State.putV_canon | apply State.advance_canon | apply canonN_next
    | dsimp only

theorem execRedux_canon (f : Fields) (s : State) (h : s.Canon) :
    CanonN (execRedux f s) := by
  unfold execRedux
  repeat' first
    | with_reducible first
        | assumption | intro _ | apply issue_canon | apply State.putV_canon | apply State.advance_canon | apply canonN_next
    | dsimp only

theorem execScan_canon (f : Fields) (s : State) (h : s.Canon) :
    CanonN (execScan f s) := by
  unfold execScan
  repeat' first
    | with_reducible first
        | assumption | intro _ | apply issue_canon | apply State.putV_canon | apply State.advance_canon | apply canonN_next
    | dsimp only | split

theorem execMatchLanes_canon (f : Fields) (s : State) (h : s.Canon) :
    CanonN (execMatchLanes f s) := by
  unfold execMatchLanes
  repeat' first
    | with_reducible first
        | assumption | intro _ | apply issue_canon | apply State.putV_canon | apply State.advance_canon
        | apply canon_fst (by assumption) | apply canon_snd (by assumption) | apply canonN_next
    | dsimp only | split

theorem execFirstLane_canon (f : Fields) (s : State) (h : s.Canon) :
    CanonN (execFirstLane f s) := by
  unfold execFirstLane
  repeat' first
    | with_reducible first
        | assumption | intro _ | apply issue_canon | apply State.putV_canon | apply State.advance_canon | apply canonN_next
    | dsimp only | split

/-! ## Scalar -/

theorem State.scalar_canon (s : State) (f : Fields) (zero : Bool) (g : W64 → W64 → W64 → W64) (h : s.Canon) :
    (State.scalar s f zero g).Canon := by
  unfold State.scalar
  repeat' first | with_reducible (first | assumption | intro _ | apply State.setS_canon | apply State.advance_canon) | dsimp only

theorem execSmov_canon (f : Fields) (s : State) (h : s.Canon) :
    CanonN (execSmov f s) := by
  unfold execSmov
  repeat' first
    | with_reducible first
        | assumption | intro _ | apply issue_canon | apply State.scalar_canon | apply canonN_next
    | dsimp only

theorem execSmovi_canon (f : Fields) (s : State) (h : s.Canon) :
    CanonN (execSmovi f s) := by
  unfold execSmovi
  repeat' first
    | with_reducible first
        | assumption | intro _ | apply issue_canon | apply State.scalar_canon | apply canon_fst (by assumption)
        | apply canon_snd (by assumption) | apply canonN_next
    | dsimp only | split

theorem execSadd_canon (f : Fields) (s : State) (h : s.Canon) :
    CanonN (execSadd f s) := by
  unfold execSadd
  repeat' first
    | with_reducible first
        | assumption | intro _ | apply issue_canon | apply State.scalar_canon | apply canonN_next
    | dsimp only

theorem execSsub_canon (f : Fields) (s : State) (h : s.Canon) :
    CanonN (execSsub f s) := by
  unfold execSsub
  repeat' first
    | with_reducible first
        | assumption | intro _ | apply issue_canon | apply State.scalar_canon | apply canonN_next
    | dsimp only

theorem execSmul_canon (f : Fields) (s : State) (h : s.Canon) :
    CanonN (execSmul f s) := by
  unfold execSmul
  repeat' first
    | with_reducible first
        | assumption | intro _ | apply issue_canon | apply State.scalar_canon | apply canonN_next
    | dsimp only

theorem execSand_canon (f : Fields) (s : State) (h : s.Canon) :
    CanonN (execSand f s) := by
  unfold execSand
  repeat' first
    | with_reducible first
        | assumption | intro _ | apply issue_canon | apply State.scalar_canon | apply canonN_next
    | dsimp only

theorem execSor_canon (f : Fields) (s : State) (h : s.Canon) :
    CanonN (execSor f s) := by
  unfold execSor
  repeat' first
    | with_reducible first
        | assumption | intro _ | apply issue_canon | apply State.scalar_canon | apply canonN_next
    | dsimp only

theorem execSxor_canon (f : Fields) (s : State) (h : s.Canon) :
    CanonN (execSxor f s) := by
  unfold execSxor
  repeat' first
    | with_reducible first
        | assumption | intro _ | apply issue_canon | apply State.scalar_canon | apply canonN_next
    | dsimp only

theorem execSshl_canon (f : Fields) (s : State) (h : s.Canon) :
    CanonN (execSshl f s) := by
  unfold execSshl
  repeat' first
    | with_reducible first
        | assumption | intro _ | apply issue_canon | apply State.scalar_canon | apply canonN_next
    | dsimp only

theorem execSshr_canon (f : Fields) (s : State) (h : s.Canon) :
    CanonN (execSshr f s) := by
  unfold execSshr
  repeat' first
    | with_reducible first
        | assumption | intro _ | apply issue_canon | apply State.scalar_canon | apply canonN_next
    | dsimp only

theorem execSset_canon (f : Fields) (s : State) (h : s.Canon) :
    CanonN (execSset f s) := by
  unfold execSset
  repeat' first
    | with_reducible first
        | assumption | intro _ | apply issue_canon | apply State.scalar_canon | apply canonN_next
    | dsimp only | split

theorem execSsel_canon (f : Fields) (s : State) (h : s.Canon) :
    CanonN (execSsel f s) := by
  unfold execSsel
  repeat' first
    | with_reducible first
        | assumption | intro _ | apply issue_canon | apply State.scalar_canon | apply canonN_next
    | dsimp only | split

theorem execSld_canon (f : Fields) (s : State) (h : s.Canon) :
    CanonN (execSld f s) := by
  unfold execSld
  repeat' first
    | with_reducible first
        | assumption | intro _ | apply issue_canon | apply State.oneOp_canon | apply canonN_next
    | dsimp only

theorem execSst_canon (f : Fields) (s : State) (h : s.Canon) :
    CanonN (execSst f s) := by
  unfold execSst
  repeat' first
    | with_reducible first
        | assumption | intro _ | apply issue_canon | apply State.oneOp_canon | apply canonN_next
    | dsimp only

theorem execS2v_canon (f : Fields) (s : State) (h : s.Canon) :
    CanonN (execS2v f s) := by
  unfold execS2v
  repeat' first
    | with_reducible first
        | assumption | intro _ | apply issue_canon | apply State.setMe_canon | apply State.advance_canon | apply canonN_next
    | dsimp only | split

theorem execV2s_canon (f : Fields) (s : State) (h : s.Canon) :
    CanonN (execV2s f s) := by
  unfold execV2s
  repeat' first
    | with_reducible first
        | assumption | intro _ | apply issue_canon | apply State.raiseCv_canon | apply State.setS_canon
        | apply State.advance_canon | apply canonN_next
    | dsimp only | split

/-! ## Every instruction -/

theorem exec_canon (i : Instr) (s : State) (h : s.Canon) : CanonN (exec i s) := by
  cases i
  case nop => rw [exec_nop]; apply execNop_canon; exact h
  case bra => rw [exec_bra]; apply execBra_canon; exact h
  case brx => rw [exec_brx]; apply execBrx_canon; exact h
  case brany => rw [exec_brany]; apply execBrany_canon; exact h
  case brall => rw [exec_brall]; apply execBrall_canon; exact h
  case call => rw [exec_call]; apply execCall_canon; exact h
  case ret => rw [exec_ret]; apply execRet_canon; exact h
  case reconv => rw [exec_reconv]; apply execReconv_canon; exact h
  case exitI => rw [exec_exitI]; apply execExitI_canon; exact h
  case yield => rw [exec_yield]; apply execYield_canon; exact h
  case sleep => rw [exec_sleep]; apply execSleep_canon; exact h
  case trap => rw [exec_trap]; apply execTrap_canon; exact h
  case brk => rw [exec_brk]; apply execBrk_canon; exact h
  case mskget => rw [exec_mskget]; apply execMskget_canon; exact h
  case mskset => rw [exec_mskset]; apply execMskset_canon; exact h
  case iadd => rw [exec_iadd]; apply execIadd_canon; exact h
  case isub => rw [exec_isub]; apply execIsub_canon; exact h
  case imul => rw [exec_imul]; apply execImul_canon; exact h
  case imulh => rw [exec_imulh]; apply execImulh_canon; exact h
  case imad => rw [exec_imad]; apply execImad_canon; exact h
  case imin => rw [exec_imin]; apply execImin_canon; exact h
  case imax => rw [exec_imax]; apply execImax_canon; exact h
  case iabs => rw [exec_iabs]; apply execIabs_canon; exact h
  case iaddc => rw [exec_iaddc]; apply execIaddc_canon; exact h
  case isubb => rw [exec_isubb]; apply execIsubb_canon; exact h
  case shl => rw [exec_shl]; apply execShl_canon; exact h
  case shr => rw [exec_shr]; apply execShr_canon; exact h
  case sar => rw [exec_sar]; apply execSar_canon; exact h
  case rotl => rw [exec_rotl]; apply execRotl_canon; exact h
  case andI => rw [exec_andI]; apply execAndI_canon; exact h
  case orI => rw [exec_orI]; apply execOrI_canon; exact h
  case xorI => rw [exec_xorI]; apply execXorI_canon; exact h
  case andn => rw [exec_andn]; apply execAndn_canon; exact h
  case notI => rw [exec_notI]; apply execNotI_canon; exact h
  case ttab => rw [exec_ttab]; apply execTtab_canon; exact h
  case bfe => rw [exec_bfe]; apply execBfe_canon; exact h
  case bfi => rw [exec_bfi]; apply execBfi_canon; exact h
  case popc => rw [exec_popc]; apply execPopc_canon; exact h
  case clz => rw [exec_clz]; apply execClz_canon; exact h
  case brev => rw [exec_brev]; apply execBrev_canon; exact h
  case prmt => rw [exec_prmt]; apply execPrmt_canon; exact h
  case iset => rw [exec_iset]; apply execIset_canon; exact h
  case iadd64 => rw [exec_iadd64]; apply execIadd64_canon; exact h
  case imad64 => rw [exec_imad64]; apply execImad64_canon; exact h
  case sel => rw [exec_sel]; apply execSel_canon; exact h
  case mov => rw [exec_mov]; apply execMov_canon; exact h
  case movi => rw [exec_movi]; apply execMovi_canon; exact h
  case fadd => rw [exec_fadd]; apply execFadd_canon; exact h
  case fmul => rw [exec_fmul]; apply execFmul_canon; exact h
  case ffma => rw [exec_ffma]; apply execFfma_canon; exact h
  case fmin => rw [exec_fmin]; apply execFmin_canon; exact h
  case fmax => rw [exec_fmax]; apply execFmax_canon; exact h
  case fset => rw [exec_fset]; apply execFset_canon; exact h
  case frcp => rw [exec_frcp]; apply execFrcp_canon; exact h
  case frsq => rw [exec_frsq]; apply execFrsq_canon; exact h
  case fsqrt => rw [exec_fsqrt]; apply execFsqrt_canon; exact h
  case fex2 => rw [exec_fex2]; apply execFex2_canon; exact h
  case flg2 => rw [exec_flg2]; apply execFlg2_canon; exact h
  case frnd => rw [exec_frnd]; apply execFrnd_canon; exact h
  case fscl => rw [exec_fscl]; apply execFscl_canon; exact h
  case fclass => rw [exec_fclass]; apply execFclass_canon; exact h
  case dadd => rw [exec_dadd]; apply execDadd_canon; exact h
  case dmul => rw [exec_dmul]; apply execDmul_canon; exact h
  case dfma => rw [exec_dfma]; apply execDfma_canon; exact h
  case dmin => rw [exec_dmin]; apply execDmin_canon; exact h
  case dmax => rw [exec_dmax]; apply execDmax_canon; exact h
  case dset => rw [exec_dset]; apply execDset_canon; exact h
  case pkadd => rw [exec_pkadd]; apply execPkadd_canon; exact h
  case pkmul => rw [exec_pkmul]; apply execPkmul_canon; exact h
  case pkfma => rw [exec_pkfma]; apply execPkfma_canon; exact h
  case pkset => rw [exec_pkset]; apply execPkset_canon; exact h
  case cvt => rw [exec_cvt]; apply execCvt_canon; exact h
  case cvtsi => rw [exec_cvtsi]; apply execCvtsi_canon; exact h
  case cvtdx => rw [exec_cvtdx]; apply execCvtdx_canon; exact h
  case plop => rw [exec_plop]; apply execPlop_canon; exact h
  case pmov => rw [exec_pmov]; apply execPmov_canon; exact h
  case ballot => rw [exec_ballot]; apply execBallot_canon; exact h
  case vote => rw [exec_vote]; apply execVote_canon; exact h
  case laneid => rw [exec_laneid]; apply execLaneid_canon; exact h
  case shfl => rw [exec_shfl]; apply execShfl_canon; exact h
  case redux => rw [exec_redux]; apply execRedux_canon; exact h
  case scan => rw [exec_scan]; apply execScan_canon; exact h
  case matchLanes => rw [exec_matchLanes]; apply execMatchLanes_canon; exact h
  case firstLane => rw [exec_firstLane]; apply execFirstLane_canon; exact h
  case smov => rw [exec_smov]; apply execSmov_canon; exact h
  case smovi => rw [exec_smovi]; apply execSmovi_canon; exact h
  case sadd => rw [exec_sadd]; apply execSadd_canon; exact h
  case ssub => rw [exec_ssub]; apply execSsub_canon; exact h
  case smul => rw [exec_smul]; apply execSmul_canon; exact h
  case sand => rw [exec_sand]; apply execSand_canon; exact h
  case sor => rw [exec_sor]; apply execSor_canon; exact h
  case sxor => rw [exec_sxor]; apply execSxor_canon; exact h
  case sshl => rw [exec_sshl]; apply execSshl_canon; exact h
  case sshr => rw [exec_sshr]; apply execSshr_canon; exact h
  case sset => rw [exec_sset]; apply execSset_canon; exact h
  case ssel => rw [exec_ssel]; apply execSsel_canon; exact h
  case sld => rw [exec_sld]; apply execSld_canon; exact h
  case sst => rw [exec_sst]; apply execSst_canon; exact h
  case s2v => rw [exec_s2v]; apply execS2v_canon; exact h
  case v2s => rw [exec_v2s]; apply execV2s_canon; exact h
  case ld => rw [exec_ld]; apply execLd_canon; exact h
  case st => rw [exec_st]; apply execSt_canon; exact h
  case ldl => rw [exec_ldl]; apply execLdl_canon; exact h
  case stl => rw [exec_stl]; apply execStl_canon; exact h
  case ldw => rw [exec_ldw]; apply execLdw_canon; exact h
  case stw => rw [exec_stw]; apply execStw_canon; exact h
  case ldr => rw [exec_ldr]; apply execLdr_canon; exact h
  case atom => rw [exec_atom]; apply execAtom_canon; exact h
  case red => rw [exec_red]; apply execRed_canon; exact h
  case cas => rw [exec_cas]; apply execCas_canon; exact h
  case mdld => rw [exec_mdld]; apply execMdld_canon; exact h
  case mdst => rw [exec_mdst]; apply execMdst_canon; exact h
  case prf => rw [exec_prf]; apply execPrf_canon; exact h
  case cctl => rw [exec_cctl]; apply execCctl_canon; exact h
  case ldq => rw [exec_ldq]; apply execLdq_canon; exact h
  case region => rw [exec_region]; apply execRegion_canon; exact h
  case fence => rw [exec_fence]; apply execFence_canon; exact h
  case rel => rw [exec_rel]; apply execRel_canon; exact h
  case acq => rw [exec_acq]; apply execAcq_canon; exact h
  case waitc => rw [exec_waitc]; apply execWaitc_canon; exact h
  case mark => rw [exec_mark]; apply execMark_canon; exact h
  case barinit => rw [exec_barinit]; apply execBarinit_canon; exact h
  case bararv => rw [exec_bararv]; apply execBararv_canon; exact h
  case barexp => rw [exec_barexp]; apply execBarexp_canon; exact h
  case barwait => rw [exec_barwait]; apply execBarwait_canon; exact h
  case bartest => rw [exec_bartest]; apply execBartest_canon; exact h
  case join => rw [exec_join]; apply execJoin_canon; exact h
  case leave => rw [exec_leave]; apply execLeave_canon; exact h
  case partyq => rw [exec_partyq]; apply execPartyq_canon; exact h
  case spawn => rw [exec_spawn]; apply execSpawn_canon; exact h
  case termq => rw [exec_termq]; apply execTermq_canon; exact h
  case accalloc => rw [exec_accalloc]; apply execAccalloc_canon; exact h
  case accfree => rw [exec_accfree]; apply execAccfree_canon; exact h
  case tdef => rw [exec_tdef]; apply execTdef_canon; exact h
  case tfree => rw [exec_tfree]; apply execTfree_canon; exact h
  case tstat => rw [exec_tstat]; apply execTstat_canon; exact h
  case tld => rw [exec_tld]; apply execTld_canon; exact h
  case tst => rw [exec_tst]; apply execTst_canon; exact h
  case cpl => rw [exec_cpl]; apply execCpl_canon; exact h
  case cpt => rw [exec_cpt]; apply execCpt_canon; exact h
  case cpq => rw [exec_cpq]; apply execCpq_canon; exact h
  case cpo => rw [exec_cpo]; apply execCpo_canon; exact h
  case qclose => rw [exec_qclose]; apply execQclose_canon; exact h
  case qstat => rw [exec_qstat]; apply execQstat_canon; exact h
  case mma => rw [exec_mma]; apply execMma_canon; exact h
  case mmas => rw [exec_mmas]; apply execMmas_canon; exact h
  case mmx => rw [exec_mmx]; apply execMmx_canon; exact h
  case msca => rw [exec_msca]; apply execMsca_canon; exact h
  case msl => rw [exec_msl]; apply execMsl_canon; exact h
  case mzero => rw [exec_mzero]; apply execMzero_canon; exact h
  case mlda => rw [exec_mlda]; apply execMlda_canon; exact h
  case mcvt => rw [exec_mcvt]; apply execMcvt_canon; exact h
  case mstat => rw [exec_mstat]; apply execMstat_canon; exact h
  case coll => rw [exec_coll]; apply execColl_canon; exact h
  case collDone => rw [exec_collDone]; apply execCollDone_canon; exact h
  case rld => rw [exec_rld]; apply execRld_canon; exact h
  case rst => rw [exec_rst]; apply execRst_canon; exact h
  case rstBlk => rw [exec_rstBlk]; apply execRstBlk_canon; exact h
  case rred => rw [exec_rred]; apply execRred_canon; exact h
  case ratom => rw [exec_ratom]; apply execRatom_canon; exact h
  case vmask => rw [exec_vmask]; apply execVmask_canon; exact h
  case vrsc => rw [exec_vrsc]; apply execVrsc_canon; exact h
  case msv => rw [exec_msv]; apply execMsv_canon; exact h
  case gangq => rw [exec_gangq]; apply execGangq_canon; exact h
  case gangack => rw [exec_gangack]; apply execGangack_canon; exact h
  case xmodeStep1 => rw [exec_xmodeStep1]; apply execXmodeStep1_canon; exact h
  case xmodeStep2 => rw [exec_xmodeStep2]; apply execXmodeStep2_canon; exact h
  case xmodeStep3 => rw [exec_xmodeStep3]; apply execXmodeStep3_canon; exact h
  case xmodeExit => rw [exec_xmodeExit]; apply execXmodeExit_canon; exact h
  case xprog => rw [exec_xprog]; apply execXprog_canon; exact h
  case xcol => rw [exec_xcol]; apply execXcol_canon; exact h
  case xread => rw [exec_xread]; apply execXread_canon; exact h
  case xstat => rw [exec_xstat]; apply execXstat_canon; exact h
  case xreset => rw [exec_xreset]; apply execXreset_canon; exact h
  case afor => rw [exec_afor]; apply execAfor_canon; exact h
  case aend => rw [exec_aend]; apply execAend_canon; exact h
  case qpush => rw [exec_qpush]; apply execQpush_canon; exact h
  case await => rw [exec_await]; apply execAwait_canon; exact h
  case csrr => rw [exec_csrr]; apply execCsrr_canon; exact h
  case csrw => rw [exec_csrw]; apply execCsrw_canon; exact h
  case replay => rw [exec_replay]; apply execReplay_canon; exact h
  case tlbinv => rw [exec_tlbinv]; apply execTlbinv_canon; exact h
  case evpost => rw [exec_evpost]; apply execEvpost_canon; exact h
  case launch => rw [exec_launch]; apply execLaunch_canon; exact h
  case resume => rw [exec_resume]; apply execResume_canon; exact h
  case kill => rw [exec_kill]; apply execKill_canon; exact h
  case ctxopCreate => rw [exec_ctxopCreate]; apply execCtxopCreate_canon; exact h
  case ctxopActivate => rw [exec_ctxopActivate]; apply execCtxopActivate_canon; exact h
  case ctxopPreempt => rw [exec_ctxopPreempt]; apply execCtxopPreempt_canon; exact h
  case ctxopRestore => rw [exec_ctxopRestore]; apply execCtxopRestore_canon; exact h
  case ctxopReset => rw [exec_ctxopReset]; apply execCtxopReset_canon; exact h
  case ctxopDestroy => rw [exec_ctxopDestroy]; apply execCtxopDestroy_canon; exact h
  case ctxopQuery => rw [exec_ctxopQuery]; apply execCtxopQuery_canon; exact h
  case ctxopModify => rw [exec_ctxopModify]; apply execCtxopModify_canon; exact h
  case energyq => rw [exec_energyq]; apply execEnergyq_canon; exact h
  case execNop => rw [exec_execNop]; apply execExecNop_canon; exact h
  case latch => rw [exec_latch]; apply execLatch_canon; exact h
  case store => rw [exec_store]; apply execStore_canon; exact h
  case setk => rw [exec_setk]; apply execSetk_canon; exact h
  case setm => rw [exec_setm]; apply execSetm_canon; exact h
  case shk => rw [exec_shk]; apply execShk_canon; exact h
  case cmp => rw [exec_cmp]; apply execCmp_canon; exact h
  case cmpa => rw [exec_cmpa]; apply execCmpa_canon; exact h
  case cmpo => rw [exec_cmpo]; apply execCmpo_canon; exact h
  case tnot => rw [exec_tnot]; apply execTnot_canon; exact h
  case wr => rw [exec_wr]; apply execWr_canon; exact h
  case wrn => rw [exec_wrn]; apply execWrn_canon; exact h
  case tsave => rw [exec_tsave]; apply execTsave_canon; exact h
  case tload => rw [exec_tload]; apply execTload_canon; exact h
  case tshf => rw [exec_tshf]; apply execTshf_canon; exact h
  case tcnt => rw [exec_tcnt]; apply execTcnt_canon; exact h
  case tfst => rw [exec_tfst]; apply execTfst_canon; exact h
  case rdw => rw [exec_rdw]; apply execRdw_canon; exact h
  case rdwF => rw [exec_rdwF]; apply execRdwF_canon; exact h
  case xout => rw [exec_xout]; apply execXout_canon; exact h
  case xin => rw [exec_xin]; apply execXin_canon; exact h
  case execRel => rw [exec_execRel]; apply execExecRel_canon; exact h
  case execAcq => rw [exec_execAcq]; apply execExecAcq_canon; exact h
  case execFence => rw [exec_execFence]; apply execExecFence_canon; exact h
  case loop => rw [exec_loop]; apply execLoop_canon; exact h
  case setc => rw [exec_setc]; apply execSetc_canon; exact h
  case halt => rw [exec_halt]; apply execHalt_canon; exact h
  case rtag => rw [exec_rtag]; apply execRtag_canon; exact h
  case xmodeOtherWord => rw [exec_xmodeOtherWord]; apply execXmodeOtherWord_canon; exact h
  case illegalWord => rw [exec_illegalWord]; apply execIllegalWord_canon; exact h
  case advance => rw [exec_advance]; apply execAdvance_canon; exact h
  case deviceReset => rw [exec_deviceReset]; apply execDeviceReset_canon; exact h
  case boot => rw [exec_boot]; apply execBoot_canon; exact h
  case repairStep => rw [exec_repairStep]; apply execRepairStep_canon; exact h
  case mapStep => rw [exec_mapStep]; apply execMapStep_canon; exact h
  case measure => rw [exec_measure]; apply execMeasure_canon; exact h
  case links => rw [exec_links]; apply execLinks_canon; exact h
  case nodeidAssigned => rw [exec_nodeidAssigned]; apply execNodeidAssigned_canon; exact h
  case systemStep => rw [exec_systemStep]; apply execSystemStep_canon; exact h
  case drained => rw [exec_drained]; apply execDrained_canon; exact h
  case d1Expires => rw [exec_d1Expires]; apply execD1Expires_canon; exact h
  case d2Expires => rw [exec_d2Expires]; apply execD2Expires_canon; exact h
  case saved => rw [exec_saved]; apply execSaved_canon; exact h
  case saveFault => rw [exec_saveFault]; apply execSaveFault_canon; exact h
  case restoreComplete => rw [exec_restoreComplete]; apply execRestoreComplete_canon; exact h
  case resetDone => rw [exec_resetDone]; apply execResetDone_canon; exact h
  case producerIndexObserved => rw [exec_producerIndexObserved]; apply execProducerIndexObserved_canon; exact h
  case headRead => rw [exec_headRead]; apply execHeadRead_canon; exact h
  case admission => rw [exec_admission]; apply execAdmission_canon; exact h
  case dependenceReread => rw [exec_dependenceReread]; apply execDependenceReread_canon; exact h
  case placement => rw [exec_placement]; apply execPlacement_canon; exact h
  case stealRequest => rw [exec_stealRequest]; apply execStealRequest_canon; exact h
  case stealReply => rw [exec_stealReply]; apply execStealReply_canon; exact h
  case remainingCount => rw [exec_remainingCount]; apply execRemainingCount_canon; exact h
  case spawnBinTimeout => rw [exec_spawnBinTimeout]; apply execSpawnBinTimeout_canon; exact h
  case zeroNotice => rw [exec_zeroNotice]; apply execZeroNotice_canon; exact h
  case quiescenceWave => rw [exec_quiescenceWave]; apply execQuiescenceWave_canon; exact h
  case completionAction => rw [exec_completionAction]; apply execCompletionAction_canon; exact h
  case controlIntervalBoundary => rw [exec_controlIntervalBoundary]; apply execControlIntervalBoundary_canon; exact h
  case priorityPromotion => rw [exec_priorityPromotion]; apply execPriorityPromotion_canon; exact h
  case yieldExpires => rw [exec_yieldExpires]; apply execYieldExpires_canon; exact h
  case sleepEnd => rw [exec_sleepEnd]; apply execSleepEnd_canon; exact h
  case waitSatisfied => rw [exec_waitSatisfied]; apply execWaitSatisfied_canon; exact h
  case caravanExit => rw [exec_caravanExit]; apply execCaravanExit_canon; exact h
  case partyDeparture => rw [exec_partyDeparture]; apply execPartyDeparture_canon; exact h
  case accallocGrant => rw [exec_accallocGrant]; apply execAccallocGrant_canon; exact h
  case copyBytesLand => rw [exec_copyBytesLand]; apply execCopyBytesLand_canon; exact h
  case copyComplete => rw [exec_copyComplete]; apply execCopyComplete_canon; exact h
  case sendComplete => rw [exec_sendComplete]; apply execSendComplete_canon; exact h
  case queueEntryVisible => rw [exec_queueEntryVisible]; apply execQueueEntryVisible_canon; exact h
  case heldRecordRetry => rw [exec_heldRecordRetry]; apply execHeldRecordRetry_canon; exact h
  case channelRequest => rw [exec_channelRequest]; apply execChannelRequest_canon; exact h
  case rfmBlockEnd => rw [exec_rfmBlockEnd]; apply execRfmBlockEnd_canon; exact h
  case refreshWindowBoundary => rw [exec_refreshWindowBoundary]; apply execRefreshWindowBoundary_canon; exact h
  case memoryReply => rw [exec_memoryReply]; apply execMemoryReply_canon; exact h
  case releaseComplete => rw [exec_releaseComplete]; apply execReleaseComplete_canon; exact h
  case lineEviction => rw [exec_lineEviction]; apply execLineEviction_canon; exact h
  case tlbinvComplete => rw [exec_tlbinvComplete]; apply execTlbinvComplete_canon; exact h
  case contextRegisterWriteComplete => rw [exec_contextRegisterWriteComplete]; apply execContextRegisterWriteComplete_canon; exact h
  case registerWrite => rw [exec_registerWrite]; apply execRegisterWrite_canon; exact h
  case replayDoorbell => rw [exec_replayDoorbell]; apply execReplayDoorbell_canon; exact h
  case extentGrant => rw [exec_extentGrant]; apply execExtentGrant_canon; exact h
  case extentOrderlyRelease => rw [exec_extentOrderlyRelease]; apply execExtentOrderlyRelease_canon; exact h
  case extentForcedRelease => rw [exec_extentForcedRelease]; apply execExtentForcedRelease_canon; exact h
  case extentWritebackDone => rw [exec_extentWritebackDone]; apply execExtentWritebackDone_canon; exact h
  case armingTimeout => rw [exec_armingTimeout]; apply execArmingTimeout_canon; exact h
  case exitingComplete => rw [exec_exitingComplete]; apply execExitingComplete_canon; exact h
  case oboundExpires => rw [exec_oboundExpires]; apply execOboundExpires_canon; exact h
  case snapshotServed => rw [exec_snapshotServed]; apply execSnapshotServed_canon; exact h
  case flitCheckFail => rw [exec_flitCheckFail]; apply execFlitCheckFail_canon; exact h
  case retrainEntry => rw [exec_retrainEntry]; apply execRetrainEntry_canon; exact h
  case trainingComplete => rw [exec_trainingComplete]; apply execTrainingComplete_canon; exact h
  case trainingFailed => rw [exec_trainingFailed]; apply execTrainingFailed_canon; exact h
  case retrainTimeout => rw [exec_retrainTimeout]; apply execRetrainTimeout_canon; exact h
  case lctlDisSet => rw [exec_lctlDisSet]; apply execLctlDisSet_canon; exact h
  case lctlDisClear => rw [exec_lctlDisClear]; apply execLctlDisClear_canon; exact h
  case remoteRequest => rw [exec_remoteRequest]; apply execRemoteRequest_canon; exact h
  case remoteReply => rw [exec_remoteReply]; apply execRemoteReply_canon; exact h
  case parkedNotice => rw [exec_parkedNotice]; apply execParkedNotice_canon; exact h
  case fabricTimeout => rw [exec_fabricTimeout]; apply execFabricTimeout_canon; exact h
  case peerContextReset => rw [exec_peerContextReset]; apply execPeerContextReset_canon; exact h
  case lossyBlock => rw [exec_lossyBlock]; apply execLossyBlock_canon; exact h
  case endMarker => rw [exec_endMarker]; apply execEndMarker_canon; exact h
  case nodeReset => rw [exec_nodeReset]; apply execNodeReset_canon; exact h
  case gangQuery => rw [exec_gangQuery]; apply execGangQuery_canon; exact h
  case pause => rw [exec_pause]; apply execPause_canon; exact h
  case gangResume => rw [exec_gangResume]; apply execGangResume_canon; exact h
  case instanceDone => rw [exec_instanceDone]; apply execInstanceDone_canon; exact h
  case switchDecline => rw [exec_switchDecline]; apply execSwitchDecline_canon; exact h
  case switchAbort => rw [exec_switchAbort]; apply execSwitchAbort_canon; exact h
  case matrixStart => rw [exec_matrixStart]; apply execMatrixStart_canon; exact h
  case multicastRound => rw [exec_multicastRound]; apply execMulticastRound_canon; exact h
  case matrixStop => rw [exec_matrixStop]; apply execMatrixStop_canon; exact h
  case matrixComplete => rw [exec_matrixComplete]; apply execMatrixComplete_canon; exact h
  case getVersion => rw [exec_getVersion]; apply execGetVersion_canon; exact h
  case getCapabilities => rw [exec_getCapabilities]; apply execGetCapabilities_canon; exact h
  case negotiateAlgorithms => rw [exec_negotiateAlgorithms]; apply execNegotiateAlgorithms_canon; exact h
  case getDigests => rw [exec_getDigests]; apply execGetDigests_canon; exact h
  case getCertificate => rw [exec_getCertificate]; apply execGetCertificate_canon; exact h
  case challenge => rw [exec_challenge]; apply execChallenge_canon; exact h
  case getMeasurements => rw [exec_getMeasurements]; apply execGetMeasurements_canon; exact h
  case keyExchange => rw [exec_keyExchange]; apply execKeyExchange_canon; exact h
  case finish => rw [exec_finish]; apply execFinish_canon; exact h
  case endSession => rw [exec_endSession]; apply execEndSession_canon; exact h
  case loadKey => rw [exec_loadKey]; apply execLoadKey_canon; exact h
  case admitHost => rw [exec_admitHost]; apply execAdmitHost_canon; exact h
  case getBringup => rw [exec_getBringup]; apply execGetBringup_canon; exact h
  case setPinned => rw [exec_setPinned]; apply execSetPinned_canon; exact h
  case powerWindow => rw [exec_powerWindow]; apply execPowerWindow_canon; exact h
  case thermalLimit => rw [exec_thermalLimit]; apply execThermalLimit_canon; exact h
  case thermalShutdown => rw [exec_thermalShutdown]; apply execThermalShutdown_canon; exact h
  case contextCommand => rw [exec_contextCommand]; apply execContextCommand_canon; exact h

end Sys2Proof.Machine
end

