-- ==== Sys2Proof/Laws/Flags.lean ====
section
/-! SUPPORT. The operations that raise no flag leave FLAGS of every caravan (R167, R241). -/

set_option linter.unreachableTactic false
set_option linter.unusedTactic false

namespace Sys2Proof.Machine

open Host (Outcome)

/-- The issuing agent of s is that of z, and so are FLAGS of every caravan. -/
def CvFlags (z : List (Nat × Caravan)) (a : Agent) (s : List (Nat × Caravan)) (b : Agent) : Prop :=
  b = a ∧ ∀ k, (sget Caravan.blank s k).flags = (sget Caravan.blank z k).flags
abbrev SameFlags (z s : State) : Prop := CvFlags z.cvs z.cur s.cvs s.cur
/-- The same of what an operation answers, where it answers a state. -/
def FlagsO (z : State) (o : Option State) : Prop := ∀ t, o = some t → SameFlags z t
def FlagsN (z : State) (o : Outcome State Fault Refusal) : Prop := ∀ t, o = .next t → SameFlags z t

theorem SameFlags.refl (z : State) : SameFlags z z := ⟨rfl, fun _ => rfl⟩
theorem flags_fst {z : State} {α : Type} {p : State × α} {s : State} {x : α} (e : p = (s, x)) (h : SameFlags z p.1) :
    SameFlags z s := by
  subst e; exact h
theorem flags_snd {z : State} {α : Type} {p : α × State} {s : State} {x : α} (e : p = (x, s)) (h : SameFlags z p.2) :
    SameFlags z s := by
  subst e; exact h
theorem flags_some {z : State} {o : Option State} {s : State} (e : o = some s) (h : FlagsO z o) : SameFlags z s := h s e
theorem flagsN_next {z s : State} (h : SameFlags z s) : FlagsN z (.next s) := by intro t e; cases e; exact h
theorem flags_id {z s : State} (h : SameFlags z s) : SameFlags z (id s) := h

theorem flags_if {z p q : State} {c : Prop} [Decidable c] (hp : SameFlags z p) (hq : SameFlags z q) :
    SameFlags z (if c then p else q) := by
  by_cases h : c
  · rw [if_pos h]; exact hp
  · rw [if_neg h]; exact hq
theorem flags_ite {z : State} {α : Type} {c : Prop} [Decidable c] {p q : State × α} (hp : SameFlags z p.1)
    (hq : SameFlags z q.1) :
    SameFlags z (if c then p else q).1 := by
  by_cases h : c
  · rw [if_pos h]; exact hp
  · rw [if_neg h]; exact hq
theorem flags_setCv {z s : State} {k n : Nat} {x : Caravan} (h : SameFlags z s) (hx : x.flags = (z.cv k n).flags) :
    SameFlags z (s.setCv k n x) := by
  refine ⟨h.1, fun j => ?_⟩
  simp only [State.setCv, sget_sset]
  split
  · rename_i e; rw [e, hx]; rfl
  · exact h.2 j
theorem flags_cv {z s : State} {k n : Nat} (h : SameFlags z s) : (s.cv k n).flags = (z.cv k n).flags := h.2 _
theorem flags_me {z s : State} (h : SameFlags z s) : s.me.flags = z.me.flags := by
  unfold State.me; rw [h.1]; exact h.2 _
theorem flags_cur {z s : State} (h : SameFlags z s) : (s.cv s.cur.core s.cur.slot).flags = z.me.flags := flags_me h
theorem flags_mine {z s : State} (h : SameFlags z s) : s.me.flags = (z.cv s.cur.core s.cur.slot).flags := h.2 _
theorem flags_setMe {z s : State} {x : Caravan} (h : SameFlags z s) (hx : x.flags = z.me.flags) : SameFlags z (s.setMe x) :=
  flags_setCv h (by rw [hx, h.1]; rfl)

theorem foldl_flags {z : State} {α : Type} {f : State → α → State} {s : State} {l : List α}
    (hf : ∀ t a, SameFlags z t → SameFlags z (f t a)) (h : SameFlags z s) : SameFlags z (l.foldl f s) := by
  induction l generalizing s with
  | nil => exact h
  | cons a l ih => exact ih (hf s a h)
theorem foldl_fst_flags {z : State} {α β : Type} {f : State × β → α → State × β} {p : State × β} {l : List α}
    (hf : ∀ t a, SameFlags z t.1 → SameFlags z (f t a).1) (h : SameFlags z p.1) : SameFlags z (l.foldl f p).1 := by
  induction l generalizing p with
  | nil => exact h
  | cons a l ih => exact ih (hf p a h)
theorem foldl_served_flags {z : State} {α : Type} {f : Served → α → Served} {a : Served} {l : List α}
    (hf : ∀ b x, SameFlags z b.s → SameFlags z (f b x).s) (h : SameFlags z a.s) : SameFlags z (l.foldl f a).s := by
  induction l generalizing a with
  | nil => exact h
  | cons x l ih => exact ih (hf a x h)

/-! ## Caravans -/

theorem Caravan.reconv_flags (c : Caravan) (x : W64) : (c.reconv x).flags = c.flags := by
  simp only [Caravan.reconv]; repeat' split
  all_goals rfl
theorem Caravan.popEmpty_flags (c : Caravan) (n : Nat) : (c.popEmpty n).flags = c.flags := by
  induction n generalizing c with
  | zero => rfl
  | succ n ih =>
    unfold Caravan.popEmpty
    split
    · rw [ih, Caravan.reconv_flags]
    · rfl
theorem Caravan.foldl_recordLane_flags {α : Type} (c : Caravan) (g : α → Nat × LaneCause × W64) (pc : W64) (l : List α) :
    (l.foldl (fun c p => c.recordLane pc (g p).1 (g p).2.1 (g p).2.2) c).flags = c.flags := by
  induction l generalizing c with
  | nil => rfl
  | cons a l ih => exact (ih _).trans rfl

theorem flags_finish {c : Caravan} {w : Flag} (h : c.flags = w) : c.finish.flags = w := by
  unfold Caravan.finish; dsimp only; split <;> exact h
theorem flags_killAll {c : Caravan} {w : Flag} (h : c.flags = w) : c.killAll.flags = w := by
  unfold Caravan.killAll; exact flags_finish h
theorem flags_removeLanes {c : Caravan} {m : Mask} {w : Flag} (h : c.flags = w) : (c.removeLanes m).flags = w := h
theorem flags_exitLanes {c : Caravan} {m : Mask} {w : Flag} (h : c.flags = w) : (c.exitLanes m).flags = w := by
  unfold Caravan.exitLanes; dsimp only; split <;> exact h
theorem flags_endSlice {c : Caravan} {b : Bool} {w : Flag} (h : c.flags = w) : (c.endSlice b).flags = w := h
theorem flags_diverge {c : Caravan} {a b x : W64} {m : Mask} {w : Flag} (h : c.flags = w) : (c.diverge a b x m).flags = w := h
theorem flags_reconv {c : Caravan} {x : W64} {w : Flag} (h : c.flags = w) : (c.reconv x).flags = w :=
  (Caravan.reconv_flags c x).trans h
theorem flags_popEmpty {c : Caravan} {n : Nat} {w : Flag} (h : c.flags = w) : (c.popEmpty n).flags = w :=
  (Caravan.popEmpty_flags c n).trans h
theorem flags_recordLane {c : Caravan} {pc : W64} {l : List (Nat × LaneCause × W64)} {w : Flag} (h : c.flags = w) :
    (l.foldl (fun c p => c.recordLane pc p.1 p.2.1 p.2.2) c).flags = w :=
  (Caravan.foldl_recordLane_flags c id pc l).trans h
theorem flags_writeLanes {c : Caravan} {k : Nat} {p : Mask} {v : Nat → W32} {w : Flag} (h : c.flags = w) :
    (c.writeLanes k p v).flags = w := (c.writeLanes_same k p v).flags.trans h
theorem flags_writeLanes64 {c : Caravan} {k : Nat} {p : Mask} {v : Nat → W64} {w : Flag} (h : c.flags = w) :
    (c.writeLanes64 k p v).flags = w := (c.writeLanes64_same k p v).flags.trans h
theorem flags_writePred {c : Caravan} {n : Nat} {p : Mask} {v : Nat → Bool} {w : Flag} (h : c.flags = w) :
    (c.writePred n p v).flags = w := h

/-! ## Units -/

theorem State.setCore_flags {z : State} (s : State) (k : Nat) (c : Core) (h : SameFlags z s) :
    SameFlags z (State.setCore s k c) := by
  unfold State.setCore
  repeat' first | with_reducible (first | assumption) | dsimp only

theorem State.setDie_flags {z : State} (s : State) (d : Nat) (x : Die) (h : SameFlags z s) :
    SameFlags z (State.setDie s d x) := by
  unfold State.setDie
  repeat' first | with_reducible (first | assumption) | dsimp only

theorem State.setCtx_flags {z : State} (s : State) (c : Nat) (x : Context) (h : SameFlags z s) :
    SameFlags z (State.setCtx s c x) := by
  unfold State.setCtx
  repeat' first | with_reducible (first | assumption) | dsimp only

theorem State.setChan_flags {z : State} (s : State) (c : Nat) (x : Channel) (h : SameFlags z s) :
    SameFlags z (State.setChan s c x) := by
  unfold State.setChan
  repeat' first | with_reducible (first | assumption) | dsimp only

theorem State.setExecutor_flags {z : State} (s : State) (n : Nat) (x : Executor) (h : SameFlags z s) :
    SameFlags z (State.setExecutor s n x) := by
  unfold State.setExecutor
  repeat' first | with_reducible (first | assumption) | dsimp only

theorem State.setSector_flags {z : State} (s : State) (n : Nat) (x : Sector) (h : SameFlags z s) :
    SameFlags z (State.setSector s n x) := by
  unfold State.setSector
  repeat' first | with_reducible (first | assumption) | dsimp only

theorem State.setExtent_flags {z : State} (s : State) (n : Nat) (x : Extent) (h : SameFlags z s) :
    SameFlags z (State.setExtent s n x) := by
  unfold State.setExtent
  repeat' first | with_reducible (first | assumption) | dsimp only

theorem State.setPort_flags {z : State} (s : State) (p : Nat) (x : Port) (h : SameFlags z s) :
    SameFlags z (State.setPort s p x) := by
  unfold State.setPort
  repeat' first | with_reducible (first | assumption) | dsimp only | dsimp only [SameFlags]

theorem State.setComm_flags {z : State} (s : State) (c k : Nat) (x : Comm) (h : SameFlags z s) :
    SameFlags z (State.setComm s c k x) := by
  unfold State.setComm
  repeat' first | with_reducible (first | assumption) | dsimp only | dsimp only [SameFlags]

theorem State.setTile_flags {z : State} (s : State) (k t : Nat) (x : Tile) (h : SameFlags z s) :
    SameFlags z (State.setTile s k t x) := by
  unfold State.setTile
  repeat' first | with_reducible (first | assumption | apply State.setCore_flags) | dsimp only

theorem State.setParty_flags {z : State} (s : State) (k e : Nat) (x : Party) (h : SameFlags z s) :
    SameFlags z (State.setParty s k e x) := by
  unfold State.setParty
  repeat' first | with_reducible (first | assumption | apply State.setCore_flags) | dsimp only

theorem State.coreStore_flags {z : State} (s : State) (k o n x : Nat) (h : SameFlags z s) :
    SameFlags z (State.coreStore s k o n x) := by
  unfold State.coreStore
  repeat' first | with_reducible (first | assumption) | dsimp only

theorem State.send_flags {z : State} (s : State) (m : Msg) (h : SameFlags z s) :
    SameFlags z (State.send s m) := by
  unfold State.send
  repeat' first
    | with_reducible first
        | assumption | apply flags_fst (by assumption) | apply flags_snd (by assumption) | apply flags_some (by assumption)
        | apply flagsO_foldl_bind
    | dsimp only | split | dsimp only [SameFlags]

theorem State.fresh_flags {z : State} (s : State) (h : SameFlags z s) :
    SameFlags z (State.fresh s).2 := by
  unfold State.fresh
  repeat' first | with_reducible (first | assumption) | dsimp only

theorem State.retire_flags {z : State} (s : State) (h : SameFlags z s) :
    SameFlags z (State.retire s) := by
  unfold State.retire
  repeat' first | with_reducible (first | assumption) | dsimp only

theorem State.setOp_flags {z : State} (s : State) (o : Op) (h : SameFlags z s) :
    SameFlags z (State.setOp s o) := by
  unfold State.setOp
  repeat' first | with_reducible (first | assumption | intro _ | apply flags_id) | dsimp only | split

theorem State.dropOp_flags {z : State} (s : State) (id : Nat) (h : SameFlags z s) :
    SameFlags z (State.dropOp s id) := by
  unfold State.dropOp
  repeat' first | with_reducible (first | assumption | intro _ | apply flags_id) | dsimp only

theorem State.finishOp_flags {z : State} (s : State) (o : Op) (h : SameFlags z s) :
    SameFlags z (State.finishOp s o) := by
  unfold State.finishOp
  repeat' first | with_reducible (first | assumption | apply State.setOp_flags | apply State.retire_flags) | dsimp only

theorem State.addDevOp_flags {z : State} (s : State) (c : Nat) (kind : OpKind) (remote : List Req) (h : SameFlags z s) :
    SameFlags z (State.addDevOp s c kind remote) := by
  unfold State.addDevOp
  repeat' first | with_reducible (first | assumption | apply flags_id) | dsimp only

theorem State.chargeDie_flags {z : State} (s : State) (d : Nat) (h : SameFlags z s) :
    SameFlags z (State.chargeDie s d) := by
  unfold State.chargeDie
  repeat' first
    | with_reducible first
        | assumption | apply State.fresh_flags | apply flags_fst (by assumption) | apply flags_snd (by assumption)
    | dsimp only | split

theorem State.chargeCtx_flags {z : State} (s : State) (c : Nat) (h : SameFlags z s) :
    SameFlags z (State.chargeCtx s c) := by
  unfold State.chargeCtx
  repeat' first
    | with_reducible first
        | assumption | apply State.fresh_flags | apply State.setCtx_flags | apply flags_fst (by assumption)
        | apply flags_snd (by assumption)
    | dsimp only | split

theorem State.event_flags {z : State} (s : State) (whom : List Nat) (src typ hi : Nat) (h : SameFlags z s) :
    SameFlags z (State.event s whom src typ hi) := by
  unfold State.event
  repeat' first | with_reducible (first | assumption | intro _) | dsimp only

theorem State.chanEvent_flags {z : State} (s : State) (whom : List Nat) (ch typ va asid bank row detail : Nat)
    (h : SameFlags z s) :
    SameFlags z (State.chanEvent s whom ch typ va asid bank row detail) := by
  unfold State.chanEvent
  repeat' first | with_reducible (first | assumption | apply State.event_flags) | dsimp only

theorem State.ctxEvent_flags {z : State} (s : State) (whom : List Nat) (src typ detail about : Nat) (h : SameFlags z s) :
    SameFlags z (State.ctxEvent s whom src typ detail about) := by
  unfold State.ctxEvent
  repeat' first | with_reducible (first | assumption | apply State.event_flags) | dsimp only

theorem State.faultRecord_flags {z : State} (s : State) (c kind id : Nat) (mask : W32) (word pc : Nat) (park : W32)
    (akind level typ counts va : Nat) (h : SameFlags z s) :
    SameFlags z (State.faultRecord s c kind id mask word pc park akind level typ counts va) := by
  unfold State.faultRecord
  repeat' first | with_reducible (first | assumption | apply flags_id) | dsimp only

/-! ## Operands -/

theorem State.setS_flags {z : State} (s : State) (n : Nat) (x : W64) (h : SameFlags z s) :
    SameFlags z (State.setS s n x) := by
  unfold State.setS
  repeat' first
    | with_reducible first
        | assumption | apply flags_setCv | apply flags_setMe | apply flags_cv | apply flags_me | apply flags_cur
        | apply flags_mine | apply rfl
    | dsimp only | split

theorem State.putV_flags {z : State} (s : State) (f : Fields) (v : Nat → W32) (h : SameFlags z s) :
    SameFlags z (State.putV s f v) := by
  unfold State.putV
  repeat' first
    | with_reducible first
        | assumption | intro _ | apply flags_setCv | apply flags_setMe | apply flags_cv | apply flags_me | apply flags_cur
        | apply flags_mine | apply rfl | apply flags_writeLanes
    | dsimp only

theorem State.putV64_flags {z : State} (s : State) (f : Fields) (v : Nat → W64) (h : SameFlags z s) :
    SameFlags z (State.putV64 s f v) := by
  unfold State.putV64
  repeat' first
    | with_reducible first
        | assumption | intro _ | apply flags_setCv | apply flags_setMe | apply flags_cv | apply flags_me | apply flags_cur
        | apply flags_mine | apply rfl | apply flags_writeLanes64
    | dsimp only

theorem State.putP_flags {z : State} (s : State) (n : Nat) (f : Fields) (v : Nat → Bool) (h : SameFlags z s) :
    SameFlags z (State.putP s n f v) := by
  unfold State.putP
  repeat' first
    | with_reducible first
        | assumption | intro _ | apply flags_setCv | apply flags_setMe | apply flags_cv | apply flags_me | apply flags_cur
        | apply flags_mine | apply rfl | apply flags_writePred
    | dsimp only

/-! ## Flags -/


/-! ## Cells -/

theorem State.activate_flags {z : State} (s : State) (o : Origin) (ch bank row : Nat) (h : SameFlags z s) :
    SameFlags z (State.activate s o ch bank row) := by
  unfold State.activate
  repeat' first
    | with_reducible first
        | assumption | apply State.setChan_flags | apply State.chanEvent_flags | apply flags_fst (by assumption)
        | apply flags_snd (by assumption)
    | dsimp only | split

theorem State.openRow_flags {z : State} (s : State) (o : Origin) (ch bank row : Nat) (write : Bool) (h : SameFlags z s) :
    SameFlags z (State.openRow s o ch bank row write) := by
  unfold State.openRow
  repeat' first
    | with_reducible first
        | assumption | intro _ | apply State.setChan_flags | apply State.activate_flags
    | dsimp only | split

theorem State.uncorrectable_flags {z : State} (s : State) (o : Origin) (n grade ev : Nat) (h : SameFlags z s) :
    SameFlags z (State.uncorrectable s o n grade ev) := by
  unfold State.uncorrectable
  repeat' first | with_reducible (first | assumption | apply State.setChan_flags | apply State.chanEvent_flags) | dsimp only

theorem State.readSector_flags {z : State} (s : State) (o : Origin) (n key grade ev : Nat) (held : Bool) (h : SameFlags z s) :
    SameFlags z (State.readSector s o n key grade ev held).1 := by
  unfold State.readSector
  repeat' first
    | with_reducible first
        | assumption | intro _ | apply State.fresh_flags | apply State.uncorrectable_flags | apply State.setSector_flags
        | apply State.setChan_flags | apply foldl_flags | apply foldl_fst_flags | apply flags_fst (by assumption)
        | apply flags_snd (by assumption) | apply flags_some (by assumption)
    | dsimp only | split

theorem State.writeSector_flags {z : State} (s : State) (o : Origin) (n key grade : Nat) (m : BitVec 32) (data : Nat)
    (held : Bool) (h : SameFlags z s) :
    SameFlags z (State.writeSector s o n key grade m data held) := by
  unfold State.writeSector
  repeat' first
    | with_reducible first
        | assumption | intro _ | apply State.readSector_flags | apply State.setSector_flags | apply foldl_flags
        | apply foldl_fst_flags | apply flags_fst (by assumption) | apply flags_snd (by assumption)
        | apply flags_some (by assumption)
    | dsimp only | split

theorem State.sendBytes_flags {z : State} (s : State) (node : BitVec 16) (c base : Nat) (m : BitVec 128) (x : BitVec 1024)
    (code : Nat → BitVec 128 → BitVec 128) (h : SameFlags z s) :
    SameFlags z (State.sendBytes s node c base m x code) := by
  unfold State.sendBytes
  repeat' first
    | with_reducible first
        | assumption | intro _ | apply State.send_flags | apply State.addDevOp_flags | apply foldl_flags
        | apply foldl_fst_flags | apply flags_fst (by assumption) | apply flags_snd (by assumption)
    | dsimp only | split

theorem State.sendExtent_flags {z : State} (s : State) (id off : Nat) (m : BitVec 128) (x : BitVec 1024) (h : SameFlags z s) :
    SameFlags z (State.sendExtent s id off m x) := by
  unfold State.sendExtent
  repeat' first | with_reducible (first | assumption | apply State.sendBytes_flags | apply flags_id) | dsimp only

theorem State.mscOut_flags {z : State} (s : State) (ch : Nat) (l : MscLine) (h : SameFlags z s) :
    SameFlags z (State.mscOut s ch l) := by
  unfold State.mscOut
  repeat' first
    | with_reducible first
        | assumption | intro _ | apply State.setChan_flags | apply State.sendExtent_flags | apply State.openRow_flags
        | apply State.setSector_flags | apply foldl_flags | apply foldl_fst_flags | apply flags_fst (by assumption)
        | apply flags_snd (by assumption) | apply flags_some (by assumption) | apply flags_id
    | dsimp only | split

theorem State.mscRoom_flags {z : State} (s : State) (ch asid tag : Nat) (h : SameFlags z s) :
    SameFlags z (State.mscRoom s ch asid tag) := by
  unfold State.mscRoom
  repeat' first
    | with_reducible first
        | assumption | apply State.mscOut_flags | apply flags_fst (by assumption) | apply flags_snd (by assumption)
    | dsimp only | split

theorem State.mscHold_flags {z : State} (s : State) (o : Origin) (base j : Nat) (dirty : Bool) (h : SameFlags z s) :
    SameFlags z (State.mscHold s o base j dirty) := by
  unfold State.mscHold
  repeat' first
    | with_reducible first
        | assumption | intro _ | apply State.setChan_flags | apply State.mscRoom_flags | apply flags_fst (by assumption)
        | apply flags_snd (by assumption) | apply flags_some (by assumption)
    | dsimp only | split

theorem State.readLine_flags {z : State} (s : State) (o : Origin) (flat key grade : Nat) (m : BitVec 128) (alloc : Bool)
    (h : SameFlags z s) :
    SameFlags z (State.readLine s o flat key grade m alloc).1 := by
  unfold State.readLine
  repeat' first
    | with_reducible first
        | assumption | intro _ | apply State.mscHold_flags | apply State.openRow_flags | apply State.readSector_flags
        | apply foldl_flags | apply foldl_fst_flags | apply flags_fst (by assumption) | apply flags_snd (by assumption)
        | apply flags_some (by assumption)
    | dsimp only | split

theorem State.writeLine_flags {z : State} (s : State) (o : Origin) (flat key grade : Nat) (m : BitVec 128) (x : BitVec 1024)
    (alloc : Bool) (h : SameFlags z s) :
    SameFlags z (State.writeLine s o flat key grade m x alloc) := by
  unfold State.writeLine
  repeat' first
    | with_reducible first
        | assumption | intro _ | apply State.openRow_flags | apply State.writeSector_flags | apply State.mscHold_flags
        | apply foldl_flags | apply foldl_fst_flags | apply flags_fst (by assumption) | apply flags_snd (by assumption)
    | dsimp only | split

/-! ## Translate -/

theorem State.noteWait_flags {z : State} (s : State) (ch op : Nat) (h : SameFlags z s) :
    SameFlags z (State.noteWait s ch op) := by
  unfold State.noteWait
  repeat' first | with_reducible (first | assumption | apply State.setChan_flags) | dsimp only | split

theorem State.noteServed_flags {z : State} (s : State) (ch op : Nat) (h : SameFlags z s) :
    SameFlags z (State.noteServed s ch op) := by
  unfold State.noteServed
  repeat' first | with_reducible (first | assumption | intro _ | apply State.setChan_flags) | dsimp only | split

theorem State.readEntry_flags {z : State} (s : State) (c asid va entry : Nat) (h : SameFlags z s) :
    SameFlags z (State.readEntry s c asid va entry).1 := by
  unfold State.readEntry
  repeat' first
    | with_reducible first
        | assumption | apply State.readLine_flags | apply flags_fst (by assumption) | apply flags_snd (by assumption)
        | apply flags_some (by assumption)
    | dsimp only | split

theorem State.walkFrom_flags {z : State} (s : State) (c asid va : Nat) (wait : Option Nat) (e0 : Nat) (e1 : Nat)
    (h : SameFlags z s) :
    SameFlags z (State.walkFrom s c asid va wait e0 e1).1 := by
  induction e0 generalizing s c asid va wait e1 with
  | zero =>
    unfold State.walkFrom
    repeat' first
      | with_reducible first
          | assumption | apply State.noteWait_flags | apply State.noteServed_flags | apply State.readEntry_flags
          | apply flags_fst (by assumption) | apply flags_snd (by assumption) | apply flags_some (by assumption)
      | dsimp only | split
  | succ _ ih =>
    unfold State.walkFrom
    repeat' first
      | with_reducible first
          | assumption | apply ih | apply State.noteWait_flags | apply State.noteServed_flags | apply State.readEntry_flags
          | apply flags_fst (by assumption) | apply flags_snd (by assumption) | apply flags_some (by assumption)
      | dsimp only | split

theorem State.countAccess_flags {z : State} (s : State) (c ch die va : Nat) (h : SameFlags z s) :
    SameFlags z (State.countAccess s c ch die va) := by
  unfold State.countAccess
  repeat' first
    | with_reducible first
        | assumption | intro _ | apply State.setChan_flags | apply State.faultRecord_flags | apply flags_fst (by assumption)
        | apply flags_snd (by assumption) | apply flags_some (by assumption)
    | dsimp only | split

theorem State.countServed_flags {z : State} (s : State) (c ch die va : Nat) (l : Leaf) (h : SameFlags z s) :
    SameFlags z (State.countServed s c ch die va l) := by
  unfold State.countServed
  repeat' first | with_reducible (first | assumption | apply State.countAccess_flags) | dsimp only | split

theorem State.translate_flags {z : State} (s : State) (c ch va : Nat) (wait : Option Nat) (h : SameFlags z s) :
    SameFlags z (State.translate s c ch va wait).1 := by
  unfold State.translate
  repeat' first
    | with_reducible first
        | assumption | apply State.walkFrom_flags | apply State.setChan_flags | apply State.chanEvent_flags
        | apply flags_fst (by assumption) | apply flags_snd (by assumption) | apply flags_some (by assumption)
    | dsimp only | split

/-! ## Cache -/

theorem State.setD_flags {z : State} (s : State) (c va : Nat) (l : Leaf) (h : SameFlags z s) :
    SameFlags z (State.setD s c va l) := by
  unfold State.setD
  repeat' first
    | with_reducible first
        | assumption | intro _ | apply State.setDie_flags | apply State.readLine_flags | apply State.writeLine_flags
        | apply State.setChan_flags | apply flags_fst (by assumption) | apply flags_snd (by assumption)
        | apply flags_some (by assumption)
    | dsimp only | split

theorem State.writebackD_flags {z : State} (s : State) (asid : BitVec 16) (va : Nat) (h : SameFlags z s) :
    SameFlags z (State.writebackD s asid va) := by
  unfold State.writebackD
  repeat' first
    | with_reducible first
        | assumption | apply State.translate_flags | apply State.countServed_flags | apply State.setD_flags
        | apply flags_fst (by assumption) | apply flags_snd (by assumption)
    | dsimp only | split

theorem State.putExt_flags {z : State} (s : State) (ch : Nat) (asid : BitVec 16) (tag id off : Nat) (m : BitVec 128)
    (x : BitVec 1024) (dirty : Bool) (h : SameFlags z s) :
    SameFlags z (State.putExt s ch asid tag id off m x dirty) := by
  unfold State.putExt
  repeat' first
    | with_reducible first
        | assumption | intro _ | apply State.mscRoom_flags | apply State.setChan_flags | apply flags_some (by assumption)
        | apply flags_id
    | dsimp only | split

theorem State.flushExt_flags {z : State} (s : State) (p : MscLine → Bool) (drop : Bool) (h : SameFlags z s) :
    SameFlags z (State.flushExt s p drop) := by
  unfold State.flushExt
  repeat' first
    | with_reducible first
        | assumption | intro _ | apply State.sendExtent_flags | apply State.setChan_flags | apply foldl_flags
        | apply foldl_fst_flags | apply flags_fst (by assumption) | apply flags_snd (by assumption)
        | apply flags_some (by assumption) | apply flags_id
    | dsimp only | split

theorem State.lineOut_flags {z : State} (s : State) (l : Line) (h : SameFlags z s) :
    SameFlags z (State.lineOut s l) := by
  unfold State.lineOut
  repeat' first
    | with_reducible first
        | assumption | intro _ | apply State.noteServed_flags | apply State.writebackD_flags | apply State.writeLine_flags
        | apply State.putExt_flags | apply State.sendBytes_flags | apply foldl_flags | apply foldl_fst_flags
        | apply flags_fst (by assumption) | apply flags_snd (by assumption) | apply foldl_served_flags
    | dsimp only | split

theorem State.flushLine_flags {z : State} (s : State) (d : Nat) (p : Line → Bool) (l : Line) (h : SameFlags z s) :
    SameFlags z (State.flushLine s d p l) := by
  unfold State.flushLine
  repeat' first
    | with_reducible first
        | assumption | intro _ | apply State.noteWait_flags | apply State.lineOut_flags | apply State.setDie_flags
        | apply flags_fst (by assumption) | apply flags_snd (by assumption) | apply flags_some (by assumption)
    | dsimp only | split

theorem State.flushL2_flags {z : State} (s : State) (d : Nat) (p : Line → Bool) (drop : Bool) (h : SameFlags z s) :
    SameFlags z (State.flushL2 s d p drop) := by
  unfold State.flushL2
  repeat' first
    | with_reducible first
        | assumption | intro _ | apply State.flushLine_flags | apply State.setDie_flags | apply foldl_flags
        | apply foldl_fst_flags | apply flags_fst (by assumption) | apply flags_snd (by assumption)
    | dsimp only | split

theorem State.dropL2_flags {z : State} (s : State) (d : Nat) (p : Line → Bool) (h : SameFlags z s) :
    SameFlags z (State.dropL2 s d p) := by
  unfold State.dropL2
  repeat' first | with_reducible (first | assumption | intro _ | apply State.setDie_flags) | dsimp only

theorem State.putL2_flags {z : State} (s : State) (d : Nat) (l : Line) (h : SameFlags z s) :
    SameFlags z (State.putL2 s d l) := by
  unfold State.putL2
  repeat' first
    | with_reducible first
        | assumption | intro _ | apply State.lineOut_flags | apply State.dropL2_flags | apply State.setDie_flags
        | apply flags_fst (by assumption) | apply flags_snd (by assumption) | apply flags_some (by assumption)
    | dsimp only | split

theorem State.unveilMask_flags {z : State} (s : State) (asid : BitVec 16) (tag : Nat) (m : BitVec 128) (h : SameFlags z s) :
    SameFlags z (State.unveilMask s asid tag m) := by
  unfold State.unveilMask
  repeat' first | with_reducible (first | assumption | intro _) | dsimp only | split | dsimp only [SameFlags]

theorem State.toL2_flags {z : State} (s : State) (l : Line) (m : BitVec 128) (h : SameFlags z s) :
    SameFlags z (State.toL2 s l m) := by
  unfold State.toL2
  repeat' first
    | with_reducible first
        | assumption | apply State.unveilMask_flags | apply State.putL2_flags
    | dsimp only | split

theorem State.cleanL1_flags {z : State} (s : State) (k : Nat) (asid : BitVec 16) (tag : Nat) (h : SameFlags z s) :
    SameFlags z (State.cleanL1 s k asid tag) := by
  unfold State.cleanL1
  repeat' first
    | with_reducible first
        | assumption | intro _ | apply State.toL2_flags | apply State.setCore_flags | apply flags_fst (by assumption)
        | apply flags_snd (by assumption) | apply flags_some (by assumption)
    | dsimp only | split

theorem State.dropL1_flags {z : State} (s : State) (k : Nat) (asid : BitVec 16) (tag : Nat) (h : SameFlags z s) :
    SameFlags z (State.dropL1 s k asid tag) := by
  unfold State.dropL1
  repeat' first | with_reducible (first | assumption | intro _ | apply State.setCore_flags) | dsimp only

theorem State.putL1_flags {z : State} (s : State) (k : Nat) (l : Line) (h : SameFlags z s) :
    SameFlags z (State.putL1 s k l) := by
  unfold State.putL1
  repeat' first
    | with_reducible first
        | assumption | apply State.cleanL1_flags | apply State.dropL1_flags | apply State.setCore_flags
        | apply flags_fst (by assumption) | apply flags_snd (by assumption)
    | dsimp only | split

theorem State.cleanL1All_flags {z : State} (s : State) (k : Nat) (p : Line → Bool) (h : SameFlags z s) :
    SameFlags z (State.cleanL1All s k p) := by
  unfold State.cleanL1All
  repeat' first
    | with_reducible first
        | assumption | intro _ | apply State.cleanL1_flags | apply foldl_flags | apply foldl_fst_flags
        | apply flags_fst (by assumption) | apply flags_snd (by assumption)
    | dsimp only | split

theorem State.takeFifo_flags {z : State} (s : State) (k : Nat) (l : Line) (h : SameFlags z s) :
    SameFlags z (State.takeFifo s k l) := by
  unfold State.takeFifo
  repeat' first
    | with_reducible first
        | assumption | apply State.cleanL1_flags | apply State.setCore_flags | apply flags_fst (by assumption)
        | apply flags_snd (by assumption) | apply flags_some (by assumption)
    | dsimp only | split

theorem State.drainFifo_flags {z : State} (s : State) (k : Nat) (slot : Option Nat) (h : SameFlags z s) :
    SameFlags z (State.drainFifo s k slot) := by
  unfold State.drainFifo
  repeat' first
    | with_reducible first
        | assumption | intro _ | apply State.cleanL1_flags | apply State.setCore_flags | apply foldl_flags
        | apply foldl_fst_flags | apply flags_fst (by assumption) | apply flags_snd (by assumption)
        | apply flags_some (by assumption)
    | dsimp only | split

theorem State.acquireL1_flags {z : State} (s : State) (k : Nat) (p : Line → Bool) (h : SameFlags z s) :
    SameFlags z (State.acquireL1 s k p) := by
  unfold State.acquireL1
  repeat' first | with_reducible (first | assumption | intro _ | apply State.setCore_flags) | dsimp only | split

/-! ## Access -/

theorem State.reroute_flags {z : State} (s : State) (p : Nat) (h : SameFlags z s) :
    SameFlags z (State.reroute s p) := by
  unfold State.reroute
  repeat' first
    | with_reducible first
        | assumption | intro _ | apply State.setPort_flags | apply foldl_flags | apply foldl_fst_flags
        | apply flags_fst (by assumption) | apply flags_snd (by assumption) | apply flags_some (by assumption)
    | dsimp only | split | dsimp only [SameFlags]

theorem State.disSet_flags {z : State} (s : State) (p : Nat) (h : SameFlags z s) :
    SameFlags z (State.disSet s p) := by
  unfold State.disSet
  repeat' first | with_reducible (first | assumption | apply State.setPort_flags | apply State.reroute_flags) | dsimp only

theorem State.disClear_flags {z : State} (s : State) (p : Nat) (h : SameFlags z s) :
    SameFlags z (State.disClear s p) := by
  unfold State.disClear
  repeat' first | with_reducible (first | assumption | apply State.setPort_flags) | dsimp only | split

theorem State.setPortReg_flags {z : State} (s : State) (p o : Nat) (x : W64) (h : SameFlags z s) :
    SameFlags z (State.setPortReg s p o x) := by
  unfold State.setPortReg
  repeat' first
    | with_reducible first
        | assumption | apply State.disSet_flags | apply State.disClear_flags | apply State.setPort_flags
    | dsimp only | split

theorem State.regAccess_flags {z : State} (s : State) (u : User) (va n : Nat) (act : Act) (h : SameFlags z s) :
    SameFlags z (State.regAccess s u va n act).1 := by
  unfold State.regAccess
  repeat' first
    | with_reducible first
        | assumption | apply State.setChan_flags | apply State.setPortReg_flags | apply flags_fst (by assumption)
        | apply flags_snd (by assumption) | apply flags_some (by assumption)
    | dsimp only | split

theorem State.setStoreByte_flags {z : State} (s : State) (k o : Nat) (x : Byte) (h : SameFlags z s) :
    SameFlags z (State.setStoreByte s k o x) := by
  unfold State.setStoreByte
  repeat' first
    | with_reducible first
        | assumption | apply flags_setCv | apply flags_setMe | apply flags_cv | apply flags_me | apply flags_cur
        | apply flags_mine | apply rfl | apply flags_fst (by assumption) | apply flags_snd (by assumption)
        | apply flags_some (by assumption)
    | dsimp only | split

theorem State.storePut_flags {z : State} (s : State) (k o : Nat) (e0 : Nat) (e1 : Nat) (h : SameFlags z s) :
    SameFlags z (State.storePut s k o e0 e1) := by
  induction e0 generalizing s k o e1 with
  | zero =>
    unfold State.storePut
    repeat' first | with_reducible (first | assumption | apply State.setStoreByte_flags) | dsimp only
  | succ _ ih =>
    unfold State.storePut
    repeat' first | with_reducible (first | assumption | apply ih | apply State.setStoreByte_flags) | dsimp only

theorem State.windowAccess_flags {z : State} (s : State) (u : User) (k o n : Nat) (act : Act) (h : SameFlags z s) :
    SameFlags z (State.windowAccess s u k o n act).1 := by
  unfold State.windowAccess
  repeat' first
    | with_reducible first
        | assumption | apply State.storePut_flags | apply flags_fst (by assumption) | apply flags_snd (by assumption)
        | apply flags_some (by assumption)
    | dsimp only | split

theorem State.pointAccess_flags {z : State} (s : State) (u : User) (ch : Nat) (l : Leaf) (va n : Nat) (act : Act)
    (h : SameFlags z s) :
    SameFlags z (State.pointAccess s u ch l va n act).1 := by
  unfold State.pointAccess
  repeat' first
    | with_reducible first
        | assumption | apply State.noteWait_flags | apply State.noteServed_flags | apply State.setD_flags
        | apply State.countServed_flags | apply State.readLine_flags | apply State.writeLine_flags | apply State.storePut_flags
        | apply State.putExt_flags | apply flags_fst (by assumption) | apply flags_snd (by assumption)
        | apply flags_some (by assumption) | apply flags_id
    | dsimp only | split

theorem State.veil_flags {z : State} (s : State) (a : Agent) (op : Nat) (asid : BitVec 16) (va x n : Nat) (h : SameFlags z s) :
    SameFlags z (State.veil s a op asid va x n) := by
  unfold State.veil
  repeat' first | with_reducible (first | assumption | intro _) | dsimp only | dsimp only [SameFlags]

theorem State.homeView_flags {z : State} (s : State) (u : User) (va n : Nat) (act : Act) (r : State × Res) (h : SameFlags z r.1) :
    SameFlags z (State.homeView s u va n act r).1 := by
  unfold State.homeView
  split
  · split
    · exact h
    · dsimp only
      split
      · exact State.unveilMask_flags _ _ _ _ h
      · exact h
  · exact h

theorem State.findLeaf_flags {z : State} (s : State) (u : User) (ch va : Nat) (write : Bool) (h : SameFlags z s) :
    SameFlags z (State.findLeaf s u ch va write).1 := by
  unfold State.findLeaf
  repeat' first
    | with_reducible first
        | assumption | apply State.translate_flags | apply flags_fst (by assumption) | apply flags_snd (by assumption)
        | apply flags_some (by assumption)
    | dsimp only | split

theorem State.lineFrom_flags {z : State} (s : State) (u : User) (ch : Nat) (l : Leaf) (va : Nat) (h : SameFlags z s) :
    SameFlags z (State.lineFrom s u ch l va).1 := by
  unfold State.lineFrom
  repeat' first
    | with_reducible first
        | assumption | apply State.readLine_flags | apply flags_fst (by assumption) | apply flags_snd (by assumption)
        | apply flags_some (by assumption) | apply flags_id
    | dsimp only | split

theorem State.fromHome_flags {z : State} (s : State) (u : User) (ch va : Nat) (need : BitVec 128) (write : Bool)
    (known : Option Leaf) (h : SameFlags z s) :
    SameFlags z (State.fromHome s u ch va need write known).1 := by
  unfold State.fromHome
  repeat' first
    | with_reducible first
        | assumption | apply State.findLeaf_flags | apply State.noteWait_flags | apply State.noteServed_flags
        | apply State.setD_flags | apply State.countServed_flags | apply State.fresh_flags | apply State.lineFrom_flags
        | apply State.putL2_flags | apply flags_fst (by assumption) | apply flags_snd (by assumption)
        | apply flags_some (by assumption)
    | dsimp only | split

theorem State.homePut_flags {z : State} (s : State) (d : Nat) (l : Line) (p n : Nat) (act : Act) (h : SameFlags z s) :
    SameFlags z (State.homePut s d l p n act).1 := by
  unfold State.homePut
  repeat' first
    | with_reducible first
        | assumption | apply State.putL2_flags | apply flags_fst (by assumption) | apply flags_snd (by assumption)
    | dsimp only | split

theorem State.homeAccess_flags {z : State} (s : State) (u : User) (ch va n : Nat) (act : Act) (known : Option Leaf)
    (h : SameFlags z s) :
    SameFlags z (State.homeAccess s u ch va n act known).1 := by
  unfold State.homeAccess
  repeat' first
    | with_reducible first
        | assumption | apply State.fromHome_flags | apply State.pointAccess_flags | apply State.homePut_flags
        | apply flags_fst (by assumption) | apply flags_snd (by assumption)
    | dsimp only | split

theorem State.l1Access_flags {z : State} (s : State) (u : User) (k ch va n : Nat) (act : Act) (h : SameFlags z s) :
    SameFlags z (State.l1Access s u k ch va n act).1 := by
  unfold State.l1Access
  extract_lets p asid held denied have_ cold
  split
  · exact h
  · split
    rename_i t r e
    have ht : SameFlags z t := by
      refine flags_fst e ?_
      clear e
      repeat' first
        | with_reducible (first | assumption | exact flags_fst (by assumption) (State.fromHome_flags _ _ _ _ _ _ _ h) | apply State.fromHome_flags)
        | dsimp only | split
    repeat' first
      | with_reducible (first | assumption | apply State.homeView_flags | apply State.pointAccess_flags | apply State.homePut_flags | apply State.putL1_flags | apply State.takeFifo_flags | apply State.setCore_flags)
      | dsimp only | split

theorem State.beforeHome_flags {z : State} (s : State) (u : User) (va : Nat) (h : SameFlags z s) :
    SameFlags z (State.beforeHome s u va) := by
  unfold State.beforeHome
  repeat' first
    | with_reducible first
        | assumption | apply State.cleanL1_flags | apply flags_fst (by assumption) | apply flags_snd (by assumption)
        | apply flags_some (by assumption)
    | dsimp only | split

theorem State.l2LineOut_flags {z : State} (s : State) (c ch va : Nat) (drop : Bool) (h : SameFlags z s) :
    SameFlags z (State.l2LineOut s c ch va drop) := by
  unfold State.l2LineOut
  repeat' first | with_reducible (first | assumption | intro _ | apply State.flushL2_flags) | dsimp only

theorem State.updateL1_flags {z : State} (s : State) (u : User) (va n x : Nat) (h : SameFlags z s) :
    SameFlags z (State.updateL1 s u va n x) := by
  unfold State.updateL1
  repeat' first
    | with_reducible first
        | assumption | apply State.putL1_flags | apply flags_fst (by assumption) | apply flags_snd (by assumption)
        | apply flags_some (by assumption)
    | dsimp only | split

theorem State.metaAccess_flags {z : State} (s : State) (u : User) (ch va : Nat) (act : Act) (h : SameFlags z s) :
    SameFlags z (State.metaAccess s u ch va act).1 := by
  unfold State.metaAccess
  repeat' first
    | with_reducible first
        | assumption | apply State.findLeaf_flags | apply State.noteWait_flags | apply State.noteServed_flags
        | apply State.setD_flags | apply State.countServed_flags | apply State.openRow_flags | apply State.setSector_flags
        | apply State.readLine_flags | apply flags_fst (by assumption) | apply flags_snd (by assumption)
    | dsimp only | split

theorem State.accessAt_flags {z : State} (s : State) (u : User) (pl : Place) (ch va n : Nat) (act : Act) (h : SameFlags z s) :
    SameFlags z (State.accessAt s u pl ch va n act).1 := by
  unfold State.accessAt
  repeat' first
    | with_reducible first
        | assumption | intro _ | apply State.metaAccess_flags | apply State.l1Access_flags | apply State.homeView_flags
        | apply State.homeAccess_flags | apply State.beforeHome_flags | apply State.noteWait_flags
        | apply State.noteServed_flags | apply State.setD_flags | apply State.countServed_flags | apply State.flushExt_flags
        | apply State.l2LineOut_flags | apply State.findLeaf_flags | apply State.pointAccess_flags | apply State.updateL1_flags
        | apply State.dropL1_flags | apply flags_fst (by assumption) | apply flags_snd (by assumption)
        | apply flags_some (by assumption)
    | dsimp only | split

theorem State.access_flags {z : State} (s : State) (u : User) (pl : Place) (va n : Nat) (act : Act) (h : SameFlags z s) :
    SameFlags z (State.access s u pl va n act).1 := by
  unfold State.access
  repeat' first
    | with_reducible first
        | assumption | apply State.regAccess_flags | apply State.windowAccess_flags | apply State.accessAt_flags
        | apply flags_fst (by assumption) | apply flags_snd (by assumption)
    | dsimp only | split

theorem State.checkedAccess_flags {z : State} (s : State) (u : User) (pl : Place) (va : W64) (n align : Nat) (act : Act)
    (h : SameFlags z s) :
    SameFlags z (State.checkedAccess s u pl va n align act).1 := by
  unfold State.checkedAccess
  repeat' first | with_reducible (first | assumption | apply State.access_flags) | dsimp only | split

/-! ## Records -/

theorem State.fillBytes_flags {z : State} (s : State) (u : User) (va n : Nat) (x : BitVec 128) (h : SameFlags z s) :
    SameFlags z (State.fillBytes s u va n x) := by
  unfold State.fillBytes
  repeat' first
    | with_reducible first
        | assumption | apply State.translate_flags | apply State.putExt_flags | apply State.putL2_flags
        | apply flags_fst (by assumption) | apply flags_snd (by assumption) | apply flags_some (by assumption) | apply flags_id
    | dsimp only | split

theorem State.askNode_flags {z : State} (s : State) (node : BitVec 16) (c : Nat) (addr : W64) (r : Req) (h : SameFlags z s) :
    SameFlags z (State.askNode s node c addr r).1 := by
  unfold State.askNode
  repeat' first
    | with_reducible first
        | assumption | intro _ | apply State.setOp_flags | apply flags_fst (by assumption) | apply flags_snd (by assumption)
        | apply flags_some (by assumption) | apply flagsO_findSome
    | dsimp only | split | dsimp only [SameFlags]

theorem State.ask_flags {z : State} (s : State) (u : User) (pl : Place) (va n : Nat) (act : Act) (h : SameFlags z s) :
    SameFlags z (State.ask s u pl va n act).1 := by
  unfold State.ask
  repeat' first
    | with_reducible first
        | assumption | apply State.access_flags | apply State.askNode_flags | apply State.fillBytes_flags
        | apply flags_fst (by assumption) | apply flags_snd (by assumption)
    | dsimp only | split | dsimp only [SameFlags]

theorem State.askChecked_flags {z : State} (s : State) (u : User) (pl : Place) (va : W64) (n : Nat) (act : Act)
    (h : SameFlags z s) :
    SameFlags z (State.askChecked s u pl va n act).1 := by
  unfold State.askChecked
  repeat' first | with_reducible (first | assumption | apply State.ask_flags) | dsimp only | split

theorem State.dropAnswers_flags {z : State} (s : State) (h : SameFlags z s) :
    SameFlags z (State.dropAnswers s) := by
  unfold State.dropAnswers
  repeat' first | with_reducible (first | assumption | intro _) | dsimp only

theorem State.dropAsked_flags {z : State} (s : State) (p : Nat → Bool) (h : SameFlags z s) :
    SameFlags z (State.dropAsked s p) := by
  unfold State.dropAsked
  repeat' first
    | with_reducible first
        | assumption | intro _ | apply flags_fst (by assumption) | apply flags_snd (by assumption)
        | apply flags_some (by assumption)
    | dsimp only | split

theorem State.awaits_flags {z : State} (s t : State) (hs : SameFlags z s) (ht : SameFlags z t) :
    SameFlags z (State.awaits s t) := by
  unfold State.awaits
  repeat' first
    | with_reducible first
        | assumption | intro _ | apply State.setChan_flags | apply State.addDevOp_flags | apply State.send_flags
        | apply foldl_flags | apply foldl_fst_flags | apply flags_fst (by assumption) | apply flags_snd (by assumption)
    | dsimp only | split

theorem State.whole_flags {z : State} (s : State) (body : State → State) (h : SameFlags z s)
    (hbody : ∀ x, SameFlags z x → SameFlags z (body x)) :
    SameFlags z (State.whole s body).1 := by
  unfold State.whole
  repeat' first
    | with_reducible first
        | assumption | intro _ | apply State.dropAnswers_flags | apply State.awaits_flags | apply hbody
    | dsimp only | split

theorem State.devRead_flags {z : State} (s : State) (c va n : Nat) (h : SameFlags z s) :
    SameFlags z (State.devRead s c va n).1 := by
  unfold State.devRead
  repeat' first
    | with_reducible first
        | assumption | apply State.ask_flags | apply flags_fst (by assumption) | apply flags_snd (by assumption)
        | apply flags_some (by assumption)
    | dsimp only | split

theorem State.devWrite_flags {z : State} (s : State) (c va n x : Nat) (h : SameFlags z s) :
    SameFlags z (State.devWrite s c va n x).1 := by
  unfold State.devWrite
  repeat' first
    | with_reducible first
        | assumption | apply State.ask_flags | apply flags_fst (by assumption) | apply flags_snd (by assumption)
    | dsimp only | split

theorem State.devReads_flags {z : State} (s : State) (c va k : Nat) (e0 : Nat) (h : SameFlags z s) :
    SameFlags z (State.devReads s c va k e0).1 := by
  induction e0 generalizing s c va k with
  | zero =>
    unfold State.devReads
    repeat' first
      | with_reducible first
          | assumption | apply State.devRead_flags | apply flags_fst (by assumption) | apply flags_snd (by assumption)
          | apply flags_some (by assumption)
      | dsimp only | split
  | succ _ ih =>
    unfold State.devReads
    repeat' first
      | with_reducible first
          | assumption | apply ih | apply State.devRead_flags | apply flags_fst (by assumption)
          | apply flags_snd (by assumption) | apply flags_some (by assumption)
      | dsimp only | split

theorem State.devWrites_flags {z : State} (s : State) (c va k : Nat) (e0 : Nat) (e1 : Nat) (h : SameFlags z s) :
    SameFlags z (State.devWrites s c va k e0 e1).1 := by
  induction e0 generalizing s c va k e1 with
  | zero =>
    unfold State.devWrites
    repeat' first
      | with_reducible first
          | assumption | apply State.devWrite_flags | apply flags_fst (by assumption) | apply flags_snd (by assumption)
      | dsimp only | split
  | succ _ ih =>
    unfold State.devWrites
    repeat' first
      | with_reducible first
          | assumption | apply ih | apply State.devWrite_flags | apply flags_fst (by assumption)
          | apply flags_snd (by assumption)
      | dsimp only | split

theorem State.queueWrite_flags {z : State} (s : State) (c : Nat) (fault : Bool) (va k : Nat) (e0 : Nat) (e1 : Nat)
    (h : SameFlags z s) :
    SameFlags z (State.queueWrite s c fault va k e0 e1).1 := by
  induction e0 generalizing s c fault va k e1 with
  | zero =>
    unfold State.queueWrite
    repeat' first
      | with_reducible first
          | assumption | apply State.askNode_flags | apply State.devWrite_flags | apply flags_fst (by assumption)
          | apply flags_snd (by assumption)
      | dsimp only | split
  | succ _ ih =>
    unfold State.queueWrite
    repeat' first
      | with_reducible first
          | assumption | apply ih | apply State.askNode_flags | apply State.devWrite_flags | apply flags_fst (by assumption)
          | apply flags_snd (by assumption)
      | dsimp only | split

theorem State.setQueue_flags {z : State} (s : State) (c : Nat) (fault : Bool) (q : RecQueue) (h : SameFlags z s) :
    SameFlags z (State.setQueue s c fault q) := by
  unfold State.setQueue
  repeat' first | with_reducible (first | assumption | apply State.setCtx_flags) | dsimp only

theorem State.readCons_flags {z : State} (s : State) (c : Nat) (fault : Bool) (h : SameFlags z s) :
    SameFlags z (State.readCons s c fault) := by
  unfold State.readCons
  repeat' first
    | with_reducible first
        | assumption | apply State.devRead_flags | apply State.askNode_flags | apply State.setQueue_flags
        | apply flags_fst (by assumption) | apply flags_snd (by assumption) | apply flags_some (by assumption)
    | dsimp only | split

theorem State.writeOvf_flags {z : State} (s : State) (c : Nat) (fault : Bool) (h : SameFlags z s) :
    SameFlags z (State.writeOvf s c fault) := by
  unfold State.writeOvf
  repeat' first
    | with_reducible first
        | assumption | intro _ | apply State.whole_flags | apply State.queueWrite_flags | apply State.setQueue_flags
        | apply flags_fst (by assumption) | apply flags_snd (by assumption)
    | dsimp only | split

theorem State.holdRecord_flags {z : State} (s : State) (c : Nat) (fault : Bool) (bits : Nat) (h : SameFlags z s) :
    SameFlags z (State.holdRecord s c fault bits) := by
  unfold State.holdRecord
  repeat' first | with_reducible (first | assumption | apply State.setQueue_flags | apply State.writeOvf_flags) | dsimp only

theorem State.postFails_flags {z : State} (s : State) (c : Nat) (fault : Bool) (va : Nat) (h : SameFlags z s) :
    SameFlags z (State.postFails s c fault va) := by
  unfold State.postFails
  repeat' first
    | with_reducible first
        | assumption | apply State.setQueue_flags | apply State.ctxEvent_flags
    | dsimp only | split

theorem State.putRecord_flags {z : State} (s : State) (c : Nat) (fault : Bool) (bits : Nat) (h : SameFlags z s) :
    SameFlags z (State.putRecord s c fault bits).1 := by
  unfold State.putRecord
  repeat' first
    | with_reducible first
        | assumption | apply State.readCons_flags | apply State.queueWrite_flags | apply State.postFails_flags
        | apply State.setQueue_flags | apply State.ctxEvent_flags | apply flags_fst (by assumption)
        | apply flags_snd (by assumption)
    | dsimp only | split

theorem State.tryPost_flags {z : State} (s : State) (c : Nat) (fault : Bool) (bits : Nat) (h : SameFlags z s) :
    SameFlags z (State.tryPost s c fault bits).1 := by
  unfold State.tryPost
  repeat' first
    | with_reducible first
        | assumption | apply State.putRecord_flags | apply State.dropAnswers_flags | apply State.awaits_flags
        | apply flags_fst (by assumption) | apply flags_snd (by assumption) | apply flags_some (by assumption)
    | dsimp only | split

theorem State.postRecord_flags {z : State} (s : State) (p : Post) (h : SameFlags z s) :
    SameFlags z (State.postRecord s p) := by
  unfold State.postRecord
  repeat' first
    | with_reducible first
        | assumption | apply State.setQueue_flags | apply State.holdRecord_flags | apply State.tryPost_flags
        | apply flags_fst (by assumption) | apply flags_snd (by assumption) | apply flags_some (by assumption)
    | dsimp only | split

theorem State.postWaiting_flags {z : State} (s : State) (c : Nat) (fault : Bool) (e0 : Nat) (h : SameFlags z s) :
    SameFlags z (State.postWaiting s c fault e0) := by
  induction e0 generalizing s c fault with
  | zero =>
    unfold State.postWaiting
    repeat' first
      | with_reducible first
          | assumption | intro _ | apply State.setQueue_flags | apply State.tryPost_flags | apply State.holdRecord_flags
          | apply foldl_flags | apply foldl_fst_flags | apply flags_fst (by assumption) | apply flags_snd (by assumption)
          | apply flags_some (by assumption)
      | dsimp only | split
  | succ _ ih =>
    unfold State.postWaiting
    repeat' first
      | with_reducible first
          | assumption | apply ih | intro _ | apply State.setQueue_flags | apply State.tryPost_flags
          | apply State.holdRecord_flags | apply foldl_flags | apply foldl_fst_flags | apply flags_fst (by assumption)
          | apply flags_snd (by assumption) | apply flags_some (by assumption)
      | dsimp only | split

theorem State.retryHeld_flags {z : State} (s : State) (c : Nat) (fault : Bool) (e0 : Nat) (h : SameFlags z s) :
    SameFlags z (State.retryHeld s c fault e0) := by
  induction e0 generalizing s c fault with
  | zero =>
    unfold State.retryHeld
    repeat' first
      | with_reducible first
          | assumption | apply State.setQueue_flags | apply State.tryPost_flags | apply flags_fst (by assumption)
          | apply flags_snd (by assumption) | apply flags_some (by assumption)
      | dsimp only | split
  | succ _ ih =>
    unfold State.retryHeld
    repeat' first
      | with_reducible first
          | assumption | apply ih | apply State.setQueue_flags | apply State.tryPost_flags | apply flags_fst (by assumption)
          | apply flags_snd (by assumption) | apply flags_some (by assumption)
      | dsimp only | split

theorem State.retryQueue_flags {z : State} (s : State) (c : Nat) (fault : Bool) (h : SameFlags z s) :
    SameFlags z (State.retryQueue s c fault) := by
  unfold State.retryQueue
  repeat' first
    | with_reducible first
        | assumption | apply State.postWaiting_flags | apply State.retryHeld_flags | apply State.writeOvf_flags
    | dsimp only

theorem State.retryQueues_flags {z : State} (s : State) (c : Nat) (h : SameFlags z s) :
    SameFlags z (State.retryQueues s c) := by
  unfold State.retryQueues
  repeat' first | with_reducible (first | assumption | apply State.retryQueue_flags) | dsimp only

theorem State.postNext_flags {z : State} (s : State) (h : SameFlags z s) :
    SameFlags z (State.postNext s) := by
  unfold State.postNext
  repeat' first
    | with_reducible first
        | assumption | apply State.postRecord_flags | apply flags_fst (by assumption) | apply flags_snd (by assumption)
    | dsimp only | split

/-! ## Ops -/

theorem State.setPc_flags {z : State} (s : State) (x : W64) (h : SameFlags z s) :
    SameFlags z (State.setPc s x) := by
  unfold State.setPc
  repeat' first
    | with_reducible first
        | assumption | apply flags_setCv | apply flags_setMe | apply flags_cv | apply flags_me | apply flags_cur
        | apply flags_mine | apply rfl
    | dsimp only | split

theorem State.advance_flags {z : State} (s : State) (h : SameFlags z s) :
    SameFlags z (State.advance s) := by
  unfold State.advance
  repeat' first | with_reducible (first | assumption | apply State.setPc_flags) | dsimp only

theorem State.setKernel_flags {z : State} (s : State) (x : Kernel) (h : SameFlags z s) :
    SameFlags z (State.setKernel s x) := by
  unfold State.setKernel
  repeat' first | with_reducible (first | assumption | intro _ | apply State.setCtx_flags) | dsimp only | split

theorem State.cvWrites_flags {z : State} (s : State) (u : User) (va : Nat) (e0 : Nat) (e1 : Nat) (h : SameFlags z s) :
    SameFlags z (State.cvWrites s u va e0 e1).1 := by
  induction e0 generalizing s u va e1 with
  | zero =>
    unfold State.cvWrites
    repeat' first
      | with_reducible first
          | assumption | apply State.ask_flags | apply flags_fst (by assumption) | apply flags_snd (by assumption)
          | apply flags_some (by assumption)
      | dsimp only | split | dsimp only [SameFlags]
  | succ _ ih =>
    unfold State.cvWrites
    repeat' first
      | with_reducible first
          | assumption | apply ih | apply State.ask_flags | apply flags_fst (by assumption) | apply flags_snd (by assumption)
          | apply flags_some (by assumption)
      | dsimp only | split | dsimp only [SameFlags]

theorem State.trapEvent_flags {z : State} (s : State) (k slot typ : Nat) (pc : W64) (second : Nat) (h : SameFlags z s) :
    SameFlags z (State.trapEvent s k slot typ pc second) := by
  unfold State.trapEvent
  repeat' first | with_reducible (first | assumption | apply State.event_flags) | dsimp only

theorem State.dropParks_flags {z : State} (s : State) (k slot : Nat) (h : SameFlags z s) :
    SameFlags z (State.dropParks s k slot) :=
  State.dropAsked_flags _ (fun n => n = asker k slot)
    (State.setCore_flags s k { s.core k with accq := (s.core k).accq.filter (fun w => w.slot ≠ slot) } h)

theorem State.doubleTrap_flags {z : State} (s : State) (k slot : Nat) (pc : W64) (second : Nat) (h : SameFlags z s) :
    SameFlags z (State.doubleTrap s k slot pc second) := by
  unfold State.doubleTrap
  repeat' first
    | with_reducible first
        | assumption | apply flags_setCv | apply flags_setMe | apply flags_cv | apply flags_me | apply flags_cur
        | apply flags_mine | apply rfl | apply State.trapEvent_flags | apply flags_killAll | apply State.dropParks_flags
    | dsimp only

theorem State.postFaults_flags {z : State} (s : State) (c kind id : Nat) (pc : W64) (akind : Nat) (lanes : List
    (Nat × Nat × Nat)) (h : SameFlags z s) :
    SameFlags z (State.postFaults s c kind id pc akind lanes).1 := by
  unfold State.postFaults
  repeat' first
    | with_reducible first
        | assumption | intro _ | apply State.faultRecord_flags | apply foldl_flags | apply foldl_fst_flags
        | apply flags_fst (by assumption) | apply flags_snd (by assumption) | apply flags_id
    | dsimp only | split

theorem State.parkCaravan_flags {z : State} (s : State) (k slot : Nat) (pc : W64) (akind : Nat) (lanes : List
    (Nat × Nat × Nat)) (what : ParkWhat) (h : SameFlags z s) :
    SameFlags z (State.parkCaravan s k slot pc akind lanes what) := by
  unfold State.parkCaravan
  repeat' first
    | with_reducible first
        | assumption | apply flags_setCv | apply flags_setMe | apply flags_cv | apply flags_me | apply flags_cur
        | apply flags_mine | apply rfl | apply State.postFaults_flags | apply flags_fst (by assumption)
        | apply flags_snd (by assumption) | apply flags_id
    | dsimp only | split

theorem State.writeTrapRecord_flags {z : State} (s : State) (k slot : Nat) (h : SameFlags z s) :
    SameFlags z (State.writeTrapRecord s k slot) := by
  unfold State.writeTrapRecord
  repeat' first
    | with_reducible first
        | assumption | intro _ | apply flags_setCv | apply flags_setMe | apply flags_cv | apply flags_me | apply flags_cur
        | apply flags_mine | apply rfl | apply State.whole_flags | apply State.cvWrites_flags | apply State.parkCaravan_flags
        | apply State.doubleTrap_flags | apply flags_fst (by assumption) | apply flags_snd (by assumption)
        | apply flags_some (by assumption)
    | dsimp only | split

theorem State.takeTrap_flags {z : State} (s : State) (k slot : Nat) (why : Nat) (rpc : W64) (ccause : Nat) (cpc : W64)
    (code : BitVec 16) (h : SameFlags z s) :
    SameFlags z (State.takeTrap s k slot why rpc ccause cpc code) := by
  unfold State.takeTrap
  repeat' first
    | with_reducible first
        | assumption | apply flags_setCv | apply flags_setMe | apply flags_cv | apply flags_me | apply flags_cur
        | apply flags_mine | apply rfl | apply State.doubleTrap_flags | apply State.trapEvent_flags | apply flags_killAll
        | apply State.dropParks_flags | apply State.writeTrapRecord_flags
    | dsimp only | split

theorem State.abandonWait_flags {z : State} (s : State) (k slot : Nat) (h : SameFlags z s) :
    SameFlags z (State.abandonWait s k slot) := by
  unfold State.abandonWait
  repeat' first
    | with_reducible first
        | assumption | intro _ | apply flags_setCv | apply flags_setMe | apply flags_cv | apply flags_me | apply flags_cur
        | apply flags_mine | apply rfl | apply State.setCore_flags | apply State.dropAsked_flags
    | dsimp only

theorem State.settle_flags {z : State} (s : State) (k slot : Nat) (h : SameFlags z s) :
    SameFlags z (State.settle s k slot) := by
  unfold State.settle
  repeat' first
    | with_reducible first
        | assumption | apply flags_setCv | apply flags_setMe | apply flags_cv | apply flags_me | apply flags_cur
        | apply flags_mine | apply rfl | apply State.takeTrap_flags | apply State.abandonWait_flags | apply flags_popEmpty
        | apply flags_finish | apply flags_fst (by assumption) | apply flags_snd (by assumption)
        | apply flags_some (by assumption)
    | dsimp only | split

theorem State.raiseLanes_flags {z : State} (s : State) (k slot : Nat) (pc dpc : W64) (l : List (Nat × LaneCause × W64))
    (h : SameFlags z s) :
    SameFlags z (State.raiseLanes s k slot pc dpc l) := by
  unfold State.raiseLanes
  repeat' first
    | with_reducible first
        | assumption | intro _ | apply flags_setCv | apply flags_setMe | apply flags_cv | apply flags_me | apply flags_cur
        | apply flags_mine | apply rfl | apply State.doubleTrap_flags | apply flags_recordLane | apply foldl_flags
        | apply foldl_fst_flags | apply flags_fst (by assumption) | apply flags_snd (by assumption)
    | dsimp only | split

theorem State.raiseAll_flags {z : State} (s : State) (k slot : Nat) (pc dpc : W64) (m : Mask) (x : LaneCause) (va : W64)
    (h : SameFlags z s) :
    SameFlags z (State.raiseAll s k slot pc dpc m x va) := by
  unfold State.raiseAll
  repeat' first | with_reducible (first | assumption | intro _ | apply State.raiseLanes_flags) | dsimp only

theorem State.sliceTrapAt_flags {z : State} (s : State) (k slot : Nat) (pc : W64) (cause : Nat) (h : SameFlags z s) :
    SameFlags z (State.sliceTrapAt s k slot pc cause) := by
  unfold State.sliceTrapAt
  repeat' first
    | with_reducible first
        | assumption | apply flags_setCv | apply flags_setMe | apply flags_cv | apply flags_me | apply flags_cur
        | apply flags_mine | apply rfl | apply flags_endSlice
    | dsimp only

theorem State.sliceTrap_flags {z : State} (s : State) (k slot : Nat) (cause : Nat) (h : SameFlags z s) :
    SameFlags z (State.sliceTrap s k slot cause) := by
  unfold State.sliceTrap
  repeat' first | with_reducible (first | assumption | apply State.sliceTrapAt_flags) | dsimp only

theorem State.parkSlice_flags {z : State} (s : State) (k slot : Nat) (pc : W64) (akind va level : Nat) (what : ParkWhat)
    (h : SameFlags z s) :
    SameFlags z (State.parkSlice s k slot pc akind va level what) := by
  unfold State.parkSlice
  repeat' first
    | with_reducible first
        | assumption | apply flags_setCv | apply flags_setMe | apply flags_cv | apply flags_me | apply flags_cur
        | apply flags_mine | apply rfl | apply State.postFaults_flags | apply flags_fst (by assumption)
        | apply flags_snd (by assumption) | apply flags_id
    | dsimp only | split

theorem State.raiseCv_flags {z : State} (s : State) (x : CvCause) (code : BitVec 16) (h : SameFlags z s) :
    SameFlags z (State.raiseCv s x code) := by
  unfold State.raiseCv
  repeat' first
    | with_reducible first
        | assumption | apply State.sliceTrap_flags | apply State.takeTrap_flags | apply flags_fst (by assumption)
        | apply flags_snd (by assumption)
    | dsimp only | split

theorem State.raiseEvery_flags {z : State} (s : State) (x : LaneCause) (va : W64) (h : SameFlags z s) :
    SameFlags z (State.raiseEvery s x va) := by
  unfold State.raiseEvery
  repeat' first
    | with_reducible first
        | assumption | apply State.sliceTrap_flags | apply State.raiseAll_flags
    | dsimp only | split

theorem State.raiseTile_flags {z : State} (s : State) (err : Bool) (h : SameFlags z s) :
    SameFlags z (State.raiseTile s err) := by
  unfold State.raiseTile
  repeat' first
    | with_reducible first
        | assumption | intro _ | apply flags_setCv | apply flags_setMe | apply flags_cv | apply flags_me | apply flags_cur
        | apply flags_mine | apply rfl | apply State.raiseCv_flags | apply foldl_flags | apply foldl_fst_flags
        | apply flags_fst (by assumption) | apply flags_snd (by assumption)
    | dsimp only | split

theorem State.block_flags {z : State} (s : State) (w : Wait) (why : Nat) (h : SameFlags z s) :
    SameFlags z (State.block s w why) := by
  unfold State.block
  repeat' first
    | with_reducible first
        | assumption | apply flags_setCv | apply flags_setMe | apply flags_cv | apply flags_me | apply flags_cur
        | apply flags_mine | apply rfl | apply State.takeTrap_flags
    | dsimp only | split

theorem State.orAway_flags {z : State} (s : State) (body : State → State) (h : SameFlags z s)
    (hbody : ∀ x, SameFlags z x → SameFlags z (body x)) :
    SameFlags z (State.orAway s body) := by
  unfold State.orAway
  repeat' first
    | with_reducible first
        | assumption | intro _ | apply State.whole_flags | apply State.block_flags | apply flags_fst (by assumption)
        | apply flags_snd (by assumption) | apply hbody
    | dsimp only | split

theorem issue_flags {z : State} {i : Instr} {f : Fields} {priv once : Bool} {body : State → State} {s : State}
    (h : SameFlags z s) (hb : SameFlags z (body s)) : FlagsN z (issue i f priv once body s) := by
  intro t e
  cases e
  repeat' first
    | with_reducible first
        | assumption | apply State.raiseCv_flags | apply State.advance_flags | apply State.settle_flags
    | split

theorem State.addOp_flags {z : State} (s : State) (f : Fields) (cls : Cls) (kind : OpKind) (todo remote : List Req)
    (held : List Nat) (vals : List (Nat × BitVec 128)) (h : SameFlags z s) :
    SameFlags z (State.addOp s f cls kind todo remote held vals) := by
  unfold State.addOp
  repeat' first | with_reducible (first | assumption | apply flags_some (by assumption) | apply flags_id) | dsimp only | split

theorem State.makeReq_flags {z : State} (s : State) (u : User) (r : Req) (act : Act) (h : SameFlags z s) :
    SameFlags z (State.makeReq s u r act).1 := by
  unfold State.makeReq
  repeat' first | with_reducible (first | assumption | apply State.checkedAccess_flags) | dsimp only

theorem State.withheldWrite_flags {z : State} (s : State) (u : User) (a : Agent) (r : Req) (h : SameFlags z s) :
    SameFlags z (State.withheldWrite s u a r).1 := by
  unfold State.withheldWrite
  repeat' first
    | with_reducible first
        | assumption | apply State.makeReq_flags | apply State.veil_flags | apply flags_fst (by assumption)
        | apply flags_snd (by assumption)
    | dsimp only | split | dsimp only [SameFlags]

theorem State.causal_flags {z : State} (s : State) (u : User) (a : Agent) (r : Req) (h : SameFlags z s) :
    SameFlags z (State.causal s u a r).1 := by
  have hm := State.makeReq_flags s u r r.act h
  have hw := State.withheldWrite_flags s u a r h
  unfold State.causal
  refine flags_ite hm ?_
  generalize s.makeReq u r r.act = m at hm ⊢
  cases r.act
  case wr => exact flags_ite h hw
  case rd => exact flags_ite h hm
  all_goals exact h

theorem State.perform_flags {z : State} (s : State) (u : User) (r : Req) (h : SameFlags z s) :
    SameFlags z (State.perform s u r).1 := by
  unfold State.perform
  repeat' first
    | with_reducible first
        | assumption | apply State.causal_flags | apply State.makeReq_flags | apply flags_fst (by assumption)
        | apply flags_snd (by assumption) | apply flags_some (by assumption)
    | dsimp only | split

theorem Served.fail_flags {z : State} (a : Served) (zero : Bool) (r : Req) (c : LaneCause) (ha : SameFlags z a.s) :
    SameFlags z (Served.fail a zero r c).s := by
  unfold Served.fail
  repeat' first | with_reducible (first | assumption | intro _) | dsimp only | split

theorem Served.one_flags {z : State} (u : User) (zero : Bool) (a : Served) (r : Req) (ha : SameFlags z a.s) :
    SameFlags z (Served.one u zero a r).s := by
  unfold Served.one
  repeat' first
    | with_reducible first
        | assumption | intro _ | apply State.perform_flags | apply Served.fail_flags | apply flags_fst (by assumption)
        | apply flags_snd (by assumption)
    | dsimp only | split

theorem serveLane_flags {z : State} (u : User) (zero : Bool) (a : Served) (rs : List Req) (ha : SameFlags z a.s) :
    SameFlags z (serveLane u zero a rs).s := by
  unfold serveLane
  split
  · rename_i r t c e
    refine Served.fail_flags _ _ _ _ ?_
    show SameFlags z t
    split at e
    · cases e
    · obtain ⟨q, -, hq⟩ := List.exists_of_findSome?_eq_some e
      split at hq
      · rename_i t' c' e'
        cases hq
        exact flags_fst e' (State.perform_flags _ _ _ ha)
      · cases hq
  · exact foldl_served_flags (fun b x hb => Served.one_flags _ _ b x hb) ha

theorem serve_flags {z : State} (s : State) (u : User) (zero : Bool) (vals : List (Nat × BitVec 128)) (lanes : List
    (List Req)) (h : SameFlags z s) :
    SameFlags z (serve s u zero vals lanes).s := by
  unfold serve
  repeat' first
    | with_reducible first
        | assumption | intro _ | apply serveLane_flags | apply foldl_flags | apply foldl_fst_flags
        | apply flags_fst (by assumption) | apply flags_snd (by assumption) | apply foldl_served_flags
    | dsimp only | split

theorem State.sendRequests_flags {z : State} (s : State) (op c : Nat) (rs : List Req) (h : SameFlags z s) :
    SameFlags z (State.sendRequests s op c rs) := by
  unfold State.sendRequests
  repeat' first
    | with_reducible first
        | assumption | intro _ | apply State.send_flags | apply foldl_flags | apply foldl_fst_flags
        | apply flags_fst (by assumption) | apply flags_snd (by assumption)
    | dsimp only | split

theorem State.unhold_flags {z : State} (s : State) (id : Nat) (h : SameFlags z s) :
    SameFlags z (State.unhold s id) := by
  unfold State.unhold
  repeat' first
    | with_reducible first
        | assumption | apply State.setOp_flags | apply flags_fst (by assumption) | apply flags_snd (by assumption)
        | apply flags_some (by assumption) | apply flags_id
    | dsimp only | split

theorem State.afterServe_flags {z : State} (s : State) (k slot : Nat) (slice : Bool) (op : Nat) (pc dpc : W64) (kind : OpKind)
    (a : Served) (h : SameFlags z s) :
    SameFlags z (State.afterServe s k slot slice op pc dpc kind a) := by
  unfold State.afterServe
  repeat' first
    | with_reducible first
        | assumption | intro _ | apply State.sliceTrapAt_flags | apply State.unhold_flags | apply State.parkSlice_flags
        | apply State.raiseLanes_flags | apply State.parkCaravan_flags | apply flags_fst (by assumption)
        | apply flags_snd (by assumption)
    | dsimp only | split

theorem State.laneOp_flags {z : State} (s : State) (f : Fields) (cls : Cls) (kind : OpKind) (bad : List
    (Nat × LaneCause × W64)) (lanes : List (List Req)) (h : SameFlags z s) :
    SameFlags z (State.laneOp s f cls kind bad lanes) := by
  unfold State.laneOp
  repeat' first
    | with_reducible first
        | assumption | intro _ | apply serve_flags | apply State.addOp_flags | apply State.sendRequests_flags
        | apply State.advance_flags | apply State.afterServe_flags
    | dsimp only

theorem State.oneOp_flags {z : State} (s : State) (f : Fields) (cls : Cls) (kind : OpKind) (r : Req) (h : SameFlags z s) :
    SameFlags z (State.oneOp s f cls kind r) := by
  unfold State.oneOp
  repeat' first
    | with_reducible first
        | assumption | apply State.perform_flags | apply State.addOp_flags | apply State.advance_flags
        | apply State.sendRequests_flags | apply State.sliceTrap_flags | apply State.raiseAll_flags
        | apply State.parkSlice_flags | apply State.parkCaravan_flags | apply flags_fst (by assumption)
        | apply flags_snd (by assumption)
    | dsimp only | split

theorem State.flushFabric_flags {z : State} (s : State) (c : Nat) (h : SameFlags z s) :
    SameFlags z (State.flushFabric s c) := by
  unfold State.flushFabric
  repeat' first
    | with_reducible first
        | assumption | intro _ | apply State.flushL2_flags | apply State.flushExt_flags | apply foldl_flags
        | apply foldl_fst_flags | apply flags_fst (by assumption) | apply flags_snd (by assumption)
    | dsimp only | split

theorem State.release_flags {z : State} (s : State) (scope : Nat) (deep : Option (Nat × Option Nat)) (h : SameFlags z s) :
    SameFlags z (State.release s scope deep) := by
  unfold State.release
  repeat' first
    | with_reducible first
        | assumption | intro _ | apply State.drainFifo_flags | apply State.flushFabric_flags | apply State.cleanL1_flags
        | apply State.flushL2_flags | apply foldl_flags | apply foldl_fst_flags | apply flags_fst (by assumption)
        | apply flags_snd (by assumption) | apply flags_some (by assumption)
    | dsimp only | split

theorem State.acquire_flags {z : State} (s : State) (scope : Nat) (deep : Option (Nat × Option Nat)) (h : SameFlags z s) :
    SameFlags z (State.acquire s scope deep) := by
  unfold State.acquire
  repeat' first
    | with_reducible first
        | assumption | intro _ | apply State.acquireL1_flags | apply State.dropL2_flags | apply foldl_flags
        | apply foldl_fst_flags | apply flags_fst (by assumption) | apply flags_snd (by assumption)
        | apply flags_some (by assumption)
    | dsimp only | split

theorem State.withRelease_flags {z : State} (s : State) (scope : Nat) (rest : State → State) (h : SameFlags z s)
    (hrest : ∀ x, SameFlags z x → SameFlags z (rest x)) :
    SameFlags z (State.withRelease s scope rest) := by
  unfold State.withRelease
  repeat' first
    | with_reducible first
        | assumption | intro _ | apply State.block_flags | apply State.release_flags | apply hrest
    | dsimp only | split

theorem State.wakeBarrier_flags {z : State} (s : State) (k slot : Nat) (h : SameFlags z s) :
    SameFlags z (State.wakeBarrier s k slot) := by
  unfold State.wakeBarrier
  repeat' first
    | with_reducible first
        | assumption | intro _ | apply flags_setCv | apply flags_setMe | apply flags_cv | apply flags_me | apply flags_cur
        | apply flags_mine | apply rfl | apply State.acquireL1_flags | apply State.settle_flags
    | dsimp only

theorem State.checkBarrier_flags {z : State} (s : State) (pk pe b : Nat) (h : SameFlags z s) :
    SameFlags z (State.checkBarrier s pk pe b) := by
  unfold State.checkBarrier
  repeat' first
    | with_reducible first
        | assumption | intro _ | apply State.wakeBarrier_flags | apply foldl_flags | apply foldl_fst_flags
        | apply flags_fst (by assumption) | apply flags_snd (by assumption)
    | dsimp only | split

theorem State.putBarrier_flags {z : State} (s : State) (pk pe b x : Nat) (h : SameFlags z s) :
    SameFlags z (State.putBarrier s pk pe b x) := by
  unfold State.putBarrier
  repeat' first | with_reducible (first | assumption | apply State.checkBarrier_flags) | dsimp only

theorem State.arrive_flags {z : State} (s : State) (pk pe b n : Nat) (h : SameFlags z s) :
    SameFlags z (State.arrive s pk pe b n) := by
  unfold State.arrive
  repeat' first | with_reducible (first | assumption | apply State.putBarrier_flags) | dsimp only | split

/-! ## Control -/

theorem State.jump_flags {z : State} (s : State) (x : W64) (go : State → State) (h : SameFlags z s)
    (hgo : ∀ x, SameFlags z x → SameFlags z (go x)) :
    SameFlags z (State.jump s x go) := by
  unfold State.jump
  repeat' first
    | with_reducible first
        | assumption | intro _ | apply State.raiseEvery_flags | apply State.setPc_flags | apply hgo
    | dsimp only | split

theorem braBody_flags {z : State} (f : Fields) (s : State) (h : SameFlags z s) :
    SameFlags z (braBody f s) := by
  unfold braBody
  repeat' first
    | with_reducible first
        | assumption | apply flags_setCv | apply flags_setMe | apply flags_cv | apply flags_me | apply flags_cur
        | apply flags_mine | apply rfl | apply State.setPc_flags | apply State.advance_flags | apply State.raiseCv_flags
        | apply flags_diverge
    | dsimp only | split

theorem yieldBody_flags {z : State} (s : State) (h : SameFlags z s) :
    SameFlags z (yieldBody s) := by
  unfold yieldBody
  repeat' first
    | with_reducible first
        | assumption | apply flags_setCv | apply flags_setMe | apply flags_cv | apply flags_me | apply flags_cur
        | apply flags_mine | apply rfl | apply State.advance_flags
    | dsimp only

theorem execNop_flags {z : State} (f : Fields) (s : State) (h : SameFlags z s) :
    FlagsN z (execNop f s) := by
  unfold execNop
  repeat' first
    | with_reducible first
        | assumption | intro _ | apply issue_flags | apply State.advance_flags | apply flagsN_next
    | dsimp only

theorem execBra_flags {z : State} (f : Fields) (s : State) (h : SameFlags z s) :
    FlagsN z (execBra f s) := by
  unfold execBra
  repeat' first | with_reducible (first | assumption | apply issue_flags | apply braBody_flags | apply flagsN_next) | dsimp only

theorem execBrx_flags {z : State} (f : Fields) (s : State) (h : SameFlags z s) :
    FlagsN z (execBrx f s) := by
  unfold execBrx
  repeat' first
    | with_reducible first
        | assumption | intro _ | apply issue_flags | apply State.jump_flags | apply flags_id | apply flagsN_next
    | dsimp only

theorem execBrany_flags {z : State} (f : Fields) (s : State) (h : SameFlags z s) :
    FlagsN z (execBrany f s) := by
  unfold execBrany
  repeat' first
    | with_reducible first
        | assumption | intro _ | apply issue_flags | apply State.setPc_flags | apply State.advance_flags | apply flagsN_next
    | dsimp only | split

theorem execBrall_flags {z : State} (f : Fields) (s : State) (h : SameFlags z s) :
    FlagsN z (execBrall f s) := by
  unfold execBrall
  repeat' first
    | with_reducible first
        | assumption | intro _ | apply issue_flags | apply State.setPc_flags | apply State.advance_flags | apply flagsN_next
    | dsimp only | split

theorem execCall_flags {z : State} (f : Fields) (s : State) (h : SameFlags z s) :
    FlagsN z (execCall f s) := by
  unfold execCall
  repeat' first
    | with_reducible first
        | assumption | intro _ | apply issue_flags | apply State.jump_flags | apply State.setS_flags | apply State.setPc_flags
        | apply flags_fst (by assumption) | apply flags_snd (by assumption) | apply flagsN_next
    | dsimp only | split

theorem execRet_flags {z : State} (f : Fields) (s : State) (h : SameFlags z s) :
    FlagsN z (execRet f s) := by
  unfold execRet
  repeat' first
    | with_reducible first
        | assumption | intro _ | apply issue_flags | apply State.jump_flags | apply flags_id | apply flagsN_next
    | dsimp only

theorem execReconv_flags {z : State} (f : Fields) (s : State) (h : SameFlags z s) :
    FlagsN z (execReconv f s) := by
  unfold execReconv
  repeat' first
    | with_reducible first
        | assumption | intro _ | apply flags_setCv | apply flags_setMe | apply flags_cv | apply flags_me | apply flags_cur
        | apply flags_mine | apply rfl | apply issue_flags | apply flags_reconv | apply flagsN_next
    | dsimp only

theorem execExitI_flags {z : State} (f : Fields) (s : State) (h : SameFlags z s) :
    FlagsN z (execExitI f s) := by
  unfold execExitI
  repeat' first
    | with_reducible first
        | assumption | intro _ | apply flags_setCv | apply flags_setMe | apply flags_cv | apply flags_me | apply flags_cur
        | apply flags_mine | apply rfl | apply issue_flags | apply flags_endSlice | apply State.advance_flags
        | apply flags_exitLanes | apply flagsN_next
    | dsimp only | split

theorem execYield_flags {z : State} (f : Fields) (s : State) (h : SameFlags z s) :
    FlagsN z (execYield f s) := by
  unfold execYield
  repeat' first | with_reducible (first | assumption | apply issue_flags | apply yieldBody_flags | apply flagsN_next) | dsimp only

theorem execSleep_flags {z : State} (f : Fields) (s : State) (h : SameFlags z s) :
    FlagsN z (execSleep f s) := by
  unfold execSleep
  repeat' first
    | with_reducible first
        | assumption | intro _ | apply flags_setCv | apply flags_setMe | apply flags_cv | apply flags_me | apply flags_cur
        | apply flags_mine | apply rfl | apply issue_flags | apply yieldBody_flags | apply State.advance_flags
        | apply flagsN_next
    | dsimp only | split

theorem execTrap_flags {z : State} (f : Fields) (s : State) (h : SameFlags z s) :
    FlagsN z (execTrap f s) := by
  unfold execTrap
  repeat' first
    | with_reducible first
        | assumption | intro _ | apply issue_flags | apply State.raiseCv_flags | apply flagsN_next
    | dsimp only

theorem execBrk_flags {z : State} (f : Fields) (s : State) (h : SameFlags z s) :
    FlagsN z (execBrk f s) := by
  unfold execBrk
  repeat' first
    | with_reducible first
        | assumption | intro _ | apply issue_flags | apply State.raiseCv_flags | apply flagsN_next
    | dsimp only

theorem execMskget_flags {z : State} (f : Fields) (s : State) (h : SameFlags z s) :
    FlagsN z (execMskget f s) := by
  unfold execMskget
  repeat' first
    | with_reducible first
        | assumption | intro _ | apply issue_flags | apply State.setS_flags | apply State.advance_flags | apply flagsN_next
    | dsimp only | split

theorem execMskset_flags {z : State} (f : Fields) (s : State) (h : SameFlags z s) :
    FlagsN z (execMskset f s) := by
  unfold execMskset
  repeat' first
    | with_reducible first
        | assumption | intro _ | apply flags_setCv | apply flags_setMe | apply flags_cv | apply flags_me | apply flags_cur
        | apply flags_mine | apply rfl | apply issue_flags | apply State.raiseCv_flags | apply State.advance_flags
        | apply flagsN_next
    | dsimp only | split

/-! ## Scalar -/

theorem State.scalar_flags {z : State} (s : State) (f : Fields) (zero : Bool) (g : W64 → W64 → W64 → W64) (h : SameFlags z s) :
    SameFlags z (State.scalar s f zero g) := by
  unfold State.scalar
  repeat' first | with_reducible (first | assumption | intro _ | apply State.setS_flags | apply State.advance_flags) | dsimp only

theorem execSmov_flags {z : State} (f : Fields) (s : State) (h : SameFlags z s) :
    FlagsN z (execSmov f s) := by
  unfold execSmov
  repeat' first
    | with_reducible first
        | assumption | intro _ | apply issue_flags | apply State.scalar_flags | apply flagsN_next
    | dsimp only

theorem execSmovi_flags {z : State} (f : Fields) (s : State) (h : SameFlags z s) :
    FlagsN z (execSmovi f s) := by
  unfold execSmovi
  repeat' first
    | with_reducible first
        | assumption | intro _ | apply issue_flags | apply State.scalar_flags | apply flags_fst (by assumption)
        | apply flags_snd (by assumption) | apply flagsN_next
    | dsimp only | split

theorem execSadd_flags {z : State} (f : Fields) (s : State) (h : SameFlags z s) :
    FlagsN z (execSadd f s) := by
  unfold execSadd
  repeat' first
    | with_reducible first
        | assumption | intro _ | apply issue_flags | apply State.scalar_flags | apply flagsN_next
    | dsimp only

theorem execSsub_flags {z : State} (f : Fields) (s : State) (h : SameFlags z s) :
    FlagsN z (execSsub f s) := by
  unfold execSsub
  repeat' first
    | with_reducible first
        | assumption | intro _ | apply issue_flags | apply State.scalar_flags | apply flagsN_next
    | dsimp only

theorem execSmul_flags {z : State} (f : Fields) (s : State) (h : SameFlags z s) :
    FlagsN z (execSmul f s) := by
  unfold execSmul
  repeat' first
    | with_reducible first
        | assumption | intro _ | apply issue_flags | apply State.scalar_flags | apply flagsN_next
    | dsimp only

theorem execSand_flags {z : State} (f : Fields) (s : State) (h : SameFlags z s) :
    FlagsN z (execSand f s) := by
  unfold execSand
  repeat' first
    | with_reducible first
        | assumption | intro _ | apply issue_flags | apply State.scalar_flags | apply flagsN_next
    | dsimp only

theorem execSor_flags {z : State} (f : Fields) (s : State) (h : SameFlags z s) :
    FlagsN z (execSor f s) := by
  unfold execSor
  repeat' first
    | with_reducible first
        | assumption | intro _ | apply issue_flags | apply State.scalar_flags | apply flagsN_next
    | dsimp only

theorem execSxor_flags {z : State} (f : Fields) (s : State) (h : SameFlags z s) :
    FlagsN z (execSxor f s) := by
  unfold execSxor
  repeat' first
    | with_reducible first
        | assumption | intro _ | apply issue_flags | apply State.scalar_flags | apply flagsN_next
    | dsimp only

theorem execSshl_flags {z : State} (f : Fields) (s : State) (h : SameFlags z s) :
    FlagsN z (execSshl f s) := by
  unfold execSshl
  repeat' first
    | with_reducible first
        | assumption | intro _ | apply issue_flags | apply State.scalar_flags | apply flagsN_next
    | dsimp only

theorem execSshr_flags {z : State} (f : Fields) (s : State) (h : SameFlags z s) :
    FlagsN z (execSshr f s) := by
  unfold execSshr
  repeat' first
    | with_reducible first
        | assumption | intro _ | apply issue_flags | apply State.scalar_flags | apply flagsN_next
    | dsimp only

theorem execSset_flags {z : State} (f : Fields) (s : State) (h : SameFlags z s) :
    FlagsN z (execSset f s) := by
  unfold execSset
  repeat' first
    | with_reducible first
        | assumption | intro _ | apply issue_flags | apply State.scalar_flags | apply flagsN_next
    | dsimp only | split

theorem execSsel_flags {z : State} (f : Fields) (s : State) (h : SameFlags z s) :
    FlagsN z (execSsel f s) := by
  unfold execSsel
  repeat' first
    | with_reducible first
        | assumption | intro _ | apply issue_flags | apply State.scalar_flags | apply flagsN_next
    | dsimp only | split

theorem execSld_flags {z : State} (f : Fields) (s : State) (h : SameFlags z s) :
    FlagsN z (execSld f s) := by
  unfold execSld
  repeat' first
    | with_reducible first
        | assumption | intro _ | apply issue_flags | apply State.oneOp_flags | apply flagsN_next
    | dsimp only

theorem execSst_flags {z : State} (f : Fields) (s : State) (h : SameFlags z s) :
    FlagsN z (execSst f s) := by
  unfold execSst
  repeat' first
    | with_reducible first
        | assumption | intro _ | apply issue_flags | apply State.oneOp_flags | apply flagsN_next
    | dsimp only

theorem execS2v_flags {z : State} (f : Fields) (s : State) (h : SameFlags z s) :
    FlagsN z (execS2v f s) := by
  unfold execS2v
  repeat' first
    | with_reducible first
        | assumption | intro _ | apply flags_setCv | apply flags_setMe | apply flags_cv | apply flags_me | apply flags_cur
        | apply flags_mine | apply rfl | apply issue_flags | apply flags_writeLanes | apply State.advance_flags
        | apply flagsN_next
    | dsimp only | split

theorem execV2s_flags {z : State} (f : Fields) (s : State) (h : SameFlags z s) :
    FlagsN z (execV2s f s) := by
  unfold execV2s
  repeat' first
    | with_reducible first
        | assumption | intro _ | apply issue_flags | apply State.raiseCv_flags | apply State.setS_flags
        | apply State.advance_flags | apply flagsN_next
    | dsimp only | split

end Sys2Proof.Machine
end

