-- ==== Sys2Proof/Laws/Outcomes.lean ====
section
/-! SUPPORT. What the ends that instructions share come to once the checks of R221 pass: going on, writing an S register, going
elsewhere, stopping at a cause, waiting, and leaving an operation outstanding. -/

namespace Sys2Proof.Machine

open Host (Outcome)

/-! ## Going on -/

theorem State.setPc_caravan (s : State) (x : W64) (h : s.cur.slice = false) : s.setPc x = s.setMe { s.me with pc := x } := by
  simp [State.setPc, h]

theorem State.advance_eq (s : State) : s.advance = goesOn s := by
  unfold State.advance State.setPc State.pc goesOn
  split <;> rfl

/-- A state whose issuing caravan runs as it did in s has nothing to settle after going on. -/
theorem settle_goesOn (s u : State) (h : Running s) (hs : s.cur.slice = false) (hc : u.cur = s.cur) (hm : u.me = s.me) :
    (goesOn u).settle s.cur.core s.cur.slot = goesOn u := by
  have r : Running u := ⟨by rw [hm]; exact h.state, by rw [hm]; exact h.lanes, by rw [hm]; exact h.table⟩
  have e : goesOn u = u.setMe { u.me with pc := u.me.pc + 12 } := by simp [goesOn, hc, hs]
  rw [e, ← hc]
  exact settle_setMe u _ r rfl rfl rfl

theorem lane_goesOn {i : Instr} {f : Fields} {s : State} {priv : Bool} {body : State → State} (u : State) (h : LaneRuns i f s)
    (hs : sliceOnly i = false) (hp : priv = true → s.myCtx.priv = true) (hb : body s = u.advance) (hc : u.cur = s.cur)
    (hm : u.me = s.me) : issue i f priv false body s = .next (goesOn u) := by
  rw [issue_lane priv body h hs hp, hb, State.advance_eq, settle_goesOn s u h.runs h.caravan hc hm]

theorem once_goesOn {i : Instr} {f : Fields} {s : State} {priv : Bool} {body : State → State} (u : State) (h : OnceRuns i f s)
    (hs : sliceOnly i = false) (hp : priv = true → s.myCtx.priv = true) (hb : body s = u.advance) (hc : u.cur = s.cur)
    (hm : u.me = s.me) : issue i f priv true body s = .next (goesOn u) := by
  rw [issue_once priv body h hs hp, hb, State.advance_eq, settle_goesOn s u h.runs h.caravan hc hm]

theorem agent_goesOn {i : Instr} {f : Fields} {s : State} {priv : Bool} {body : State → State} (u : State) (h : AgentRuns i f s)
    (hs : sliceOnly i = false) (hp : priv = true → s.myCtx.priv = true) (hb : body s = u.advance) (hc : u.cur = s.cur)
    (hm : u.me = s.me) : issue i f priv true body s = .next (goesOn u) := by
  rcases h with h | h
  · exact once_goesOn u h hs hp hb hc hm
  · rw [issue_slice priv true body h hp, hb, State.advance_eq]

/-! ## Writing an S register -/

/-- A body that leaves u, which differs from s outside its issuing caravan only, and writes S register d there. -/
theorem once_wroteS {i : Instr} {f : Fields} {s : State} {priv : Bool} {body : State → State} (u : State) (x : W64)
    (h : OnceRuns i f s) (hs : sliceOnly i = false) (hp : priv = true → s.myCtx.priv = true)
    (hb : body s = (u.setS f.d.sreg x).advance) (hc : u.cur = s.cur) (hm : u.me = s.me) :
    issue i f priv true body s = .next (u.setMe { s.me with sregs := sset 0 s.me.sregs f.d.sreg x, pc := s.me.pc + 12 }) := by
  have r : Running u := ⟨by rw [hm]; exact h.runs.state, by rw [hm]; exact h.runs.lanes, by rw [hm]; exact h.runs.table⟩
  have e : (u.setS f.d.sreg x).advance =
      u.setMe { s.me with sregs := sset 0 s.me.sregs f.d.sreg x, pc := s.me.pc + 12 } := by
    have := h.caravan
    simp [State.setS, State.advance, State.setPc, State.pc, hc, hm, this]
  rw [issue_once priv body h hs hp, hb, e, ← hc]
  refine congrArg Outcome.next (settle_setMe u _ r ?_ ?_ ?_) <;> simp [hm]

theorem once_setS {i : Instr} {f : Fields} {s : State} {priv : Bool} {body : State → State} {x : W64} (h : OnceRuns i f s)
    (hs : sliceOnly i = false) (hp : priv = true → s.myCtx.priv = true) (hb : body s = (s.setS f.d.sreg x).advance) :
    NextS (issue i f priv true body s) s f x := by
  refine ⟨_, once_wroteS s x h hs hp hb rfl rfl, ?_, ?_, ?_, ?_⟩
  · simp [OnlyMe]
  · intro m; simp [State.sreg, h.caravan, sget_sset]
  · simp [State.pc, h.caravan]
  · simp [h.caravan]

/-- A privileged instruction of a user context (R224). -/
theorem issue_denied {i : Instr} {f : Fields} {s : State} {once : Bool} {body : State → State} (h : OnceRuns i f s)
    (hs : sliceOnly i = false) (hp : s.myCtx.priv = false) : issue i f true once body s = .next (s.raiseCv .privilege) := by
  simp [issue, h.caravan, h.legal, hs, hp]

/-! ## Going elsewhere -/

theorem wentTo_setPc (s : State) (x : W64) : WentTo s (s.setPc x) x := by
  unfold State.setPc
  split
  · rename_i h
    refine ⟨onlyMe_setMe _ _, ?_, ?_⟩ <;> simp [State.pc, h]
  · rename_i h
    refine ⟨onlyMe_setMe _ _, ?_, ?_⟩ <;> simp [State.pc, h]

theorem once_setPc {i : Instr} {f : Fields} {s : State} {priv : Bool} {body : State → State} {x : W64} (h : OnceRuns i f s)
    (hs : sliceOnly i = false) (hp : priv = true → s.myCtx.priv = true) (hb : body s = s.setPc x) :
    NextPc (issue i f priv true body s) s x := by
  refine ⟨s.setPc x, ?_, wentTo_setPc s x⟩
  rw [issue_once priv body h hs hp, hb, State.setPc_caravan _ _ h.caravan]
  exact congrArg Outcome.next (settle_setMe s _ h.runs rfl rfl rfl)

theorem lane_setPc {i : Instr} {f : Fields} {s : State} {priv : Bool} {body : State → State} {x : W64} (h : LaneRuns i f s)
    (hs : sliceOnly i = false) (hp : priv = true → s.myCtx.priv = true) (hb : body s = s.setPc x) :
    NextPc (issue i f priv false body s) s x := by
  refine ⟨s.setPc x, ?_, wentTo_setPc s x⟩
  rw [issue_lane priv body h hs hp, hb, State.setPc_caravan _ _ h.caravan]
  exact congrArg Outcome.next (settle_setMe s _ h.runs rfl rfl rfl)

theorem agent_setPc {i : Instr} {f : Fields} {s : State} {priv : Bool} {body : State → State} {x : W64} (h : AgentRuns i f s)
    (hs : sliceOnly i = false) (hp : priv = true → s.myCtx.priv = true) (hb : body s = s.setPc x) :
    NextPc (issue i f priv true body s) s x := by
  rcases h with h | h
  · exact once_setPc h hs hp hb
  · exact ⟨s.setPc x, by rw [issue_slice priv true body h hp, hb], wentTo_setPc s x⟩

theorem slice_setPc {i : Instr} {f : Fields} {s : State} {priv : Bool} {body : State → State} {x : W64} (h : SliceRuns i f s)
    (hp : priv = true → s.myCtx.priv = true) (hb : body s = s.setPc x) : NextPc (issue i f priv true body s) s x :=
  ⟨s.setPc x, by rw [issue_slice priv true body h hp, hb], wentTo_setPc s x⟩

/-! ## Stopping at a cause -/

theorem lane_stops {i : Instr} {f : Fields} {s : State} {priv : Bool} {body : State → State} {x : CvCause} (h : LaneRuns i f s)
    (hs : sliceOnly i = false) (hp : priv = true → s.myCtx.priv = true) (hb : body s = s.raiseCv x) :
    issue i f priv false body s = .next (stops s x) := by
  rw [issue_lane priv body h hs hp, hb]; simp [stops, h.caravan]

theorem once_stops {i : Instr} {f : Fields} {s : State} {priv : Bool} {body : State → State} {x : CvCause} (h : OnceRuns i f s)
    (hs : sliceOnly i = false) (hp : priv = true → s.myCtx.priv = true) (hb : body s = s.raiseCv x) :
    issue i f priv true body s = .next (stops s x) := by
  rw [issue_once priv body h hs hp, hb]; simp [stops, h.caravan]

theorem slice_stops {i : Instr} {f : Fields} {s : State} {priv : Bool} {body : State → State} {x : CvCause} (h : SliceRuns i f s)
    (hp : priv = true → s.myCtx.priv = true) (hb : body s = s.raiseCv x) :
    issue i f priv true body s = .next (stops s x) := by
  rw [issue_slice priv true body h hp, hb]; simp [stops, h.slice]

theorem agent_stops {i : Instr} {f : Fields} {s : State} {priv : Bool} {body : State → State} {x : CvCause} (h : AgentRuns i f s)
    (hs : sliceOnly i = false) (hp : priv = true → s.myCtx.priv = true) (hb : body s = s.raiseCv x) :
    issue i f priv true body s = .next (stops s x) := by
  rcases h with h | h
  · exact once_stops h hs hp hb
  · exact slice_stops h hp hb

theorem lane_tileStops {i : Instr} {f : Fields} {s : State} {priv : Bool} {body : State → State} {err : Bool} (h : LaneRuns i f s)
    (hs : sliceOnly i = false) (hp : priv = true → s.myCtx.priv = true) (hb : body s = s.raiseTile err) :
    issue i f priv false body s = .next (tileStops s err) := by
  rw [issue_lane priv body h hs hp, hb]; simp [tileStops, h.caravan]

theorem slice_tileStops {i : Instr} {f : Fields} {s : State} {priv : Bool} {body : State → State} {err : Bool} (h : SliceRuns i f s)
    (hp : priv = true → s.myCtx.priv = true) (hb : body s = s.raiseTile err) :
    issue i f priv true body s = .next (tileStops s err) := by
  rw [issue_slice priv true body h hp, hb]; simp [tileStops, h.slice]

theorem agent_tileStops {i : Instr} {f : Fields} {s : State} {priv : Bool} {body : State → State} {err : Bool}
    (h : AgentRuns i f s) (hs : sliceOnly i = false) (hp : priv = true → s.myCtx.priv = true) (hb : body s = s.raiseTile err) :
    issue i f priv true body s = .next (tileStops s err) := by
  rcases h with h | h
  · rw [issue_once priv body h hs hp, hb]; simp [tileStops, h.caravan]
  · exact slice_tileStops h hp hb

/-! ## Waiting -/

theorem State.block_eq (s : State) (w : Wait) : s.block w 0 = waits s w := by
  unfold State.block waits
  split <;> simp

/-- A wait that is no point of R338 leaves nothing to settle. -/
theorem settle_waits (s : State) (w : Wait) (h : Running s) (hs : s.cur.slice = false) (hw : w.point = none) :
    (waits s w).settle s.cur.core s.cur.slot = waits s w := by
  have e : waits s w = s.setMe { s.me with st := .blocked, wait := w } := by simp [waits, hs]
  have hc : (waits s w).cv s.cur.core s.cur.slot = { s.me with st := .blocked, wait := w } := by
    rw [e]; exact State.me_setMe s _
  have m : s.me.mask ≠ 0#1024 := h.lanes
  unfold State.settle
  simp [hc, hw, m]

theorem lane_waits {i : Instr} {f : Fields} {s : State} {priv : Bool} {body : State → State} {w : Wait} (h : LaneRuns i f s)
    (hs : sliceOnly i = false) (hp : priv = true → s.myCtx.priv = true) (hb : body s = s.block w 0) (hw : w.point = none) :
    issue i f priv false body s = .next (waits s w) := by
  rw [issue_lane priv body h hs hp, hb, State.block_eq, settle_waits s w h.runs h.caravan hw]

theorem slice_waits {i : Instr} {f : Fields} {s : State} {priv : Bool} {body : State → State} {w : Wait} (h : SliceRuns i f s)
    (hp : priv = true → s.myCtx.priv = true) (hb : body s = s.block w 0) :
    issue i f priv true body s = .next (waits s w) := by
  rw [issue_slice priv true body h hp, hb, State.block_eq]

theorem agent_waits {i : Instr} {f : Fields} {s : State} {priv : Bool} {body : State → State} {w : Wait} (h : AgentRuns i f s)
    (hs : sliceOnly i = false) (hp : priv = true → s.myCtx.priv = true) (hb : body s = s.block w 0) (hw : w.point = none) :
    issue i f priv true body s = .next (waits s w) := by
  rcases h with h | h
  · rw [issue_once priv body h hs hp, hb, State.block_eq, settle_waits s w h.runs h.caravan hw]
  · exact slice_waits h hp hb

/-! ## Leaving an operation outstanding (R264) -/

/-- An addressed instruction whose requests meet no cause and no park goes on with its operation outstanding (R264). -/
theorem laneOp_served (u : State) (f : Fields) (cls : Cls) (kind : OpKind) (lanes : List (List Req)) (h : u.cur.slice = false)
    (hc : (serve u (u.user u.nextOp) kind.zeroes [] lanes).causes = []) (hp : (serve u (u.user u.nextOp) kind.zeroes [] lanes).parks = []) :
    u.laneOp f cls kind [] lanes =
      ({ (serve u (u.user u.nextOp) kind.zeroes [] lanes).s with
        ops := (serve u (u.user u.nextOp) kind.zeroes [] lanes).s.ops ++ [opFor u f cls kind (serve u (u.user u.nextOp) kind.zeroes [] lanes)],
        nextOp := u.nextOp + 1 }.sendRequests u.nextOp u.me.ctx (serve u (u.user u.nextOp) kind.zeroes [] lanes).remote).setMe
          { (serve u (u.user u.nextOp) kind.zeroes [] lanes).s.me with pc := u.me.pc + 12 } := by
  have b : ButWin u (serve u (u.user u.nextOp) kind.zeroes [] lanes).s := serve_butWin _ _ _ _ _ (ButWin.refl u)
  simp only [State.laneOp]
  generalize serve u (u.user u.nextOp) kind.zeroes [] lanes = a at *
  have hpc : a.s.me.pc = u.me.pc := by rw [← b.me]
  have hctx : a.s.me.ctx = u.me.ctx := by rw [← b.me]
  have hkid : a.s.me.kid = u.me.kid := by rw [← b.me]
  have hs : a.s.cur.slice = false := by rw [b.cur]; exact h
  have hspc : a.s.pc = u.pc := by simp [State.pc, hs, h, hpc]
  have ho : a.s.addOp f cls kind a.todo a.remote [] a.vals =
      { a.s with ops := a.s.ops ++ [opFor u f cls kind a], nextOp := u.nextOp + 1 } := by
    simp only [State.addOp, opFor, b.nextOp, b.cur, hctx, hkid, hspc]
  have hb : ∀ v : State, v.cur = u.cur → v.me.pc = u.me.pc → v.advance = v.setMe { v.me with pc := u.me.pc + 12 } := by
    intro v h1 h2
    rw [State.advance_eq]; simp [goesOn, h1, h, h2]
  have hm : ∀ v : State, SameAgents a.s v → v.cur = u.cur ∧ v.me = a.s.me := fun v k => ⟨k.cur.trans b.cur, k.me⟩
  simp only [hc, hp, List.foldr_nil, List.map_nil, ho]
  have k := hm _ (State.sendRequests_agents (z := a.s)
    { a.s with ops := a.s.ops ++ [opFor u f cls kind a], nextOp := u.nextOp + 1 } u.nextOp u.me.ctx a.remote
    (SameAgents.refl _))
  have hme : ({ a.s with ops := a.s.ops ++ [opFor u f cls kind a], nextOp := u.nextOp + 1 } : State).me = a.s.me := rfl
  rw [hme, hctx, hb _ k.1 (by rw [k.2, hpc]), k.2]
  simp [State.afterServe, State.raiseLanes, hctx]

theorem lane_served {i : Instr} {f : Fields} {s u : State} {body : State → State} {cls : Cls} {kind : OpKind}
    {lanes : List (List Req)} (h : LaneRuns i f s) (hs : sliceOnly i = false) (hb : body s = u.laneOp f cls kind [] lanes)
    (hc : u.cur = s.cur) (hst : u.me.st = s.me.st) (hmask : u.me.mask = s.me.mask) (htrap : u.me.trap = s.me.trap) :
    NextServed (issue i f false false body s) u f cls kind lanes := by
  unfold NextServed
  have b : ButWin u (serve u (u.user u.nextOp) kind.zeroes [] lanes).s := serve_butWin _ _ _ _ _ (ButWin.refl u)
  have hl := laneOp_served u f cls kind lanes (by rw [hc]; exact h.caravan)
  generalize serve u (u.user u.nextOp) kind.zeroes [] lanes = a at *
  intro a' hca hpa
  refine ⟨_, ?_, b.cur, b.me, rfl⟩
  rw [issue_lane false body h hs (by simp), hb, hl hca hpa, ← hc]
  have k := State.sendRequests_agents (z := a.s)
    { a.s with ops := a.s.ops ++ [opFor u f cls kind a], nextOp := u.nextOp + 1 } u.nextOp u.me.ctx a.remote
    (SameAgents.refl _)
  have hme := k.me
  have hcu : _ = u.cur := k.cur.trans b.cur
  generalize State.sendRequests _ _ _ _ = v at *
  rw [← hcu]
  have g : v.me.st = s.me.st ∧ v.me.mask = s.me.mask ∧ v.me.trap = s.me.trap := by
    rw [hme, ← hst, ← hmask, ← htrap, ← b.me]; exact ⟨rfl, rfl, rfl⟩
  have r : Running v := ⟨by rw [g.1]; exact h.runs.state, by rw [g.2.1]; exact h.runs.lanes, by
    have e : v.me.pending = s.me.pending := by simp [Caravan.pending, g.2.2]
    rw [e, g.2.2]; exact h.runs.table⟩
  refine congrArg Outcome.next (settle_setMe v _ r ?_ ?_ ?_) <;> simp [hme]

end Sys2Proof.Machine
end

