-- ==== Sys2Proof/Laws/PerInstr.lean ====
section
/-! SUPPORT. A statement about every constructor of Instr, as syntax: the opcode map of R222 leads from a legal core
instruction's opcode and fields back to it; what is no core instruction has no opcode. -/

namespace Sys2Proof.Laws.OpcodeMap

open Sys2Proof
open Fields Operand

def Statement (i : Instr) : Prop :=
  match coreParts i with
  | some (opc, f) => legal i = true → ofOpcode opc f = some (canonical i)
  | none => legal i = true → ∀ opc f, coreParts i ≠ some (opc, f)

theorem nop : ∀ f, Statement (.nop f) := fun _ _ => rfl
theorem bra : ∀ f, Statement (.bra f) := fun _ _ => rfl
theorem brx : ∀ f, Statement (.brx f) := fun _ _ => rfl
theorem brany : ∀ f, Statement (.brany f) := fun _ _ => rfl
theorem brall : ∀ f, Statement (.brall f) := fun _ _ => rfl
theorem call : ∀ f, Statement (.call f) := fun _ _ => rfl
theorem ret : ∀ f, Statement (.ret f) := fun _ _ => rfl
theorem reconv : ∀ f, Statement (.reconv f) := fun _ _ => rfl
theorem exitI : ∀ f, Statement (.exitI f) := fun _ _ => rfl
theorem yield : ∀ f, Statement (.yield f) := fun _ _ => rfl
theorem sleep : ∀ f, Statement (.sleep f) := fun _ _ => rfl
theorem trap : ∀ f, Statement (.trap f) := fun _ _ => rfl
theorem brk : ∀ f, Statement (.brk f) := fun _ _ => rfl
theorem mskget : ∀ f, Statement (.mskget f) := fun _ _ => rfl
theorem mskset : ∀ f, Statement (.mskset f) := fun _ _ => rfl
theorem iadd : ∀ f, Statement (.iadd f) := fun _ _ => rfl
theorem isub : ∀ f, Statement (.isub f) := fun _ _ => rfl
theorem imul : ∀ f, Statement (.imul f) := fun _ _ => rfl
theorem imulh : ∀ f, Statement (.imulh f) := fun _ _ => rfl
theorem imad : ∀ f, Statement (.imad f) := fun _ _ => rfl
theorem imin : ∀ f, Statement (.imin f) := fun _ _ => rfl
theorem imax : ∀ f, Statement (.imax f) := fun _ _ => rfl
theorem iabs : ∀ f, Statement (.iabs f) := fun _ _ => rfl
theorem iaddc : ∀ f, Statement (.iaddc f) := fun _ _ => rfl
theorem isubb : ∀ f, Statement (.isubb f) := fun _ _ => rfl
theorem shl : ∀ f, Statement (.shl f) := fun _ _ => rfl
theorem shr : ∀ f, Statement (.shr f) := fun _ _ => rfl
theorem sar : ∀ f, Statement (.sar f) := fun _ _ => rfl
theorem rotl : ∀ f, Statement (.rotl f) := fun _ _ => rfl
theorem andI : ∀ f, Statement (.andI f) := fun _ _ => rfl
theorem orI : ∀ f, Statement (.orI f) := fun _ _ => rfl
theorem xorI : ∀ f, Statement (.xorI f) := fun _ _ => rfl
theorem andn : ∀ f, Statement (.andn f) := fun _ _ => rfl
theorem notI : ∀ f, Statement (.notI f) := fun _ _ => rfl
theorem ttab : ∀ f, Statement (.ttab f) := fun _ _ => rfl
theorem bfe : ∀ f, Statement (.bfe f) := fun _ _ => rfl
theorem bfi : ∀ f, Statement (.bfi f) := fun _ _ => rfl
theorem popc : ∀ f, Statement (.popc f) := fun _ _ => rfl
theorem clz : ∀ f, Statement (.clz f) := fun _ _ => rfl
theorem brev : ∀ f, Statement (.brev f) := fun _ _ => rfl
theorem prmt : ∀ f, Statement (.prmt f) := fun _ _ => rfl
theorem iset : ∀ f, Statement (.iset f) := fun _ _ => rfl
theorem iadd64 : ∀ f, Statement (.iadd64 f) := fun _ _ => rfl
theorem imad64 : ∀ f, Statement (.imad64 f) := fun _ _ => rfl
theorem sel : ∀ f, Statement (.sel f) := fun _ _ => rfl
theorem mov : ∀ f, Statement (.mov f) := fun _ _ => rfl
theorem movi : ∀ f, Statement (.movi f) := fun _ _ => rfl
theorem fadd : ∀ f, Statement (.fadd f) := fun _ _ => rfl
theorem fmul : ∀ f, Statement (.fmul f) := fun _ _ => rfl
theorem ffma : ∀ f, Statement (.ffma f) := fun _ _ => rfl
theorem fmin : ∀ f, Statement (.fmin f) := fun _ _ => rfl
theorem fmax : ∀ f, Statement (.fmax f) := fun _ _ => rfl
theorem fset : ∀ f, Statement (.fset f) := fun _ _ => rfl
theorem frcp : ∀ f, Statement (.frcp f) := fun _ _ => rfl
theorem frsq : ∀ f, Statement (.frsq f) := fun _ _ => rfl
theorem fsqrt : ∀ f, Statement (.fsqrt f) := fun _ _ => rfl
theorem fex2 : ∀ f, Statement (.fex2 f) := fun _ _ => rfl
theorem flg2 : ∀ f, Statement (.flg2 f) := fun _ _ => rfl
theorem frnd : ∀ f, Statement (.frnd f) := fun _ _ => rfl
theorem fscl : ∀ f, Statement (.fscl f) := fun _ _ => rfl
theorem fclass : ∀ f, Statement (.fclass f) := fun _ _ => rfl
theorem dadd : ∀ f, Statement (.dadd f) := fun _ _ => rfl
theorem dmul : ∀ f, Statement (.dmul f) := fun _ _ => rfl
theorem dfma : ∀ f, Statement (.dfma f) := fun _ _ => rfl
theorem dmin : ∀ f, Statement (.dmin f) := fun _ _ => rfl
theorem dmax : ∀ f, Statement (.dmax f) := fun _ _ => rfl
theorem dset : ∀ f, Statement (.dset f) := fun _ _ => rfl
theorem pkadd : ∀ f, Statement (.pkadd f) := fun _ _ => rfl
theorem pkmul : ∀ f, Statement (.pkmul f) := fun _ _ => rfl
theorem pkfma : ∀ f, Statement (.pkfma f) := fun _ _ => rfl
theorem pkset : ∀ f, Statement (.pkset f) := fun _ _ => rfl
theorem cvt : ∀ f, Statement (.cvt f) := fun _ _ => rfl
theorem cvtsi : ∀ f, Statement (.cvtsi f) := fun _ _ => rfl
theorem cvtdx : ∀ f, Statement (.cvtdx f) := fun _ _ => rfl
theorem plop : ∀ f, Statement (.plop f) := fun _ _ => rfl
theorem pmov : ∀ f, Statement (.pmov f) := fun _ _ => rfl
theorem ballot : ∀ f, Statement (.ballot f) := fun _ _ => rfl
theorem vote : ∀ f, Statement (.vote f) := fun _ _ => rfl
theorem laneid : ∀ f, Statement (.laneid f) := fun _ _ => rfl
theorem shfl : ∀ f, Statement (.shfl f) := fun _ _ => rfl
theorem redux : ∀ f, Statement (.redux f) := fun _ _ => rfl
theorem scan : ∀ f, Statement (.scan f) := fun _ _ => rfl
theorem matchLanes : ∀ f, Statement (.matchLanes f) := fun _ _ => rfl
theorem firstLane : ∀ f, Statement (.firstLane f) := fun _ _ => rfl
theorem smov : ∀ f, Statement (.smov f) := fun _ _ => rfl
theorem smovi : ∀ f, Statement (.smovi f) := fun _ _ => rfl
theorem sadd : ∀ f, Statement (.sadd f) := fun _ _ => rfl
theorem ssub : ∀ f, Statement (.ssub f) := fun _ _ => rfl
theorem smul : ∀ f, Statement (.smul f) := fun _ _ => rfl
theorem sand : ∀ f, Statement (.sand f) := fun _ _ => rfl
theorem sor : ∀ f, Statement (.sor f) := fun _ _ => rfl
theorem sxor : ∀ f, Statement (.sxor f) := fun _ _ => rfl
theorem sshl : ∀ f, Statement (.sshl f) := fun _ _ => rfl
theorem sshr : ∀ f, Statement (.sshr f) := fun _ _ => rfl
theorem sset : ∀ f, Statement (.sset f) := fun _ _ => rfl
theorem ssel : ∀ f, Statement (.ssel f) := fun _ _ => rfl
theorem sld : ∀ f, Statement (.sld f) := fun _ _ => rfl
theorem sst : ∀ f, Statement (.sst f) := fun _ _ => rfl
theorem s2v : ∀ f, Statement (.s2v f) := fun _ _ => rfl
theorem v2s : ∀ f, Statement (.v2s f) := fun _ _ => rfl
theorem ld : ∀ f, Statement (.ld f) := fun _ _ => rfl
theorem st : ∀ f, Statement (.st f) := fun _ _ => rfl
theorem ldl : ∀ f, Statement (.ldl f) := fun _ _ => rfl
theorem stl : ∀ f, Statement (.stl f) := fun _ _ => rfl
theorem ldw : ∀ f, Statement (.ldw f) := fun _ _ => rfl
theorem stw : ∀ f, Statement (.stw f) := fun _ _ => rfl
theorem ldr : ∀ f, Statement (.ldr f) := fun _ _ => rfl
theorem atom : ∀ f, Statement (.atom f) := fun _ _ => rfl
theorem red : ∀ f, Statement (.red f) := fun _ _ => rfl
theorem cas : ∀ f, Statement (.cas f) := fun _ _ => rfl
theorem mdld : ∀ f, Statement (.mdld f) := fun _ _ => rfl
theorem mdst : ∀ f, Statement (.mdst f) := fun _ _ => rfl
theorem prf : ∀ f, Statement (.prf f) := fun _ _ => rfl
theorem cctl : ∀ f, Statement (.cctl f) := fun _ _ => rfl
theorem ldq : ∀ f, Statement (.ldq f) := fun _ _ => rfl
theorem region : ∀ f, Statement (.region f) := fun _ _ => rfl
theorem fence : ∀ f, Statement (.fence f) := fun _ _ => rfl
theorem rel : ∀ f, Statement (.rel f) := fun _ _ => rfl
theorem acq : ∀ f, Statement (.acq f) := fun _ _ => rfl
theorem waitc : ∀ f, Statement (.waitc f) := fun _ _ => rfl
theorem mark : ∀ f, Statement (.mark f) := fun _ _ => rfl
theorem barinit : ∀ f, Statement (.barinit f) := fun _ _ => rfl
theorem bararv : ∀ f, Statement (.bararv f) := fun _ _ => rfl
theorem barexp : ∀ f, Statement (.barexp f) := fun _ _ => rfl
theorem barwait : ∀ f, Statement (.barwait f) := fun _ _ => rfl
theorem bartest : ∀ f, Statement (.bartest f) := fun _ _ => rfl
theorem join : ∀ f, Statement (.join f) := fun _ _ => rfl
theorem leave : ∀ f, Statement (.leave f) := fun _ _ => rfl
theorem partyq : ∀ f, Statement (.partyq f) := fun _ _ => rfl
theorem spawn : ∀ f, Statement (.spawn f) := fun _ _ => rfl
theorem termq : ∀ f, Statement (.termq f) := fun _ _ => rfl
theorem accalloc : ∀ f, Statement (.accalloc f) := fun _ _ => rfl
theorem accfree : ∀ f, Statement (.accfree f) := fun _ _ => rfl
theorem tdef : ∀ f, Statement (.tdef f) := fun _ _ => rfl
theorem tfree : ∀ f, Statement (.tfree f) := fun _ _ => rfl
theorem tstat : ∀ f, Statement (.tstat f) := fun _ _ => rfl
theorem tld : ∀ f, Statement (.tld f) := fun _ _ => rfl
theorem tst : ∀ f, Statement (.tst f) := fun _ _ => rfl
theorem cpl : ∀ f, Statement (.cpl f) := fun _ _ => rfl
theorem cpt : ∀ f, Statement (.cpt f) := fun _ _ => rfl
theorem cpq : ∀ f, Statement (.cpq f) := fun _ _ => rfl
theorem cpo : ∀ f, Statement (.cpo f) := fun _ _ => rfl
theorem qclose : ∀ f, Statement (.qclose f) := fun _ _ => rfl
theorem qstat : ∀ f, Statement (.qstat f) := fun _ _ => rfl
theorem mma : ∀ f, Statement (.mma f) := fun _ _ => rfl
theorem mmas : ∀ f, Statement (.mmas f) := fun _ _ => rfl
theorem mmx : ∀ f, Statement (.mmx f) := fun _ _ => rfl
theorem msca : ∀ f, Statement (.msca f) := fun _ _ => rfl
theorem msl : ∀ f, Statement (.msl f) := fun _ _ => rfl
theorem mzero : ∀ f, Statement (.mzero f) := fun _ _ => rfl
theorem mlda : ∀ f, Statement (.mlda f) := fun _ _ => rfl
theorem mcvt : ∀ f, Statement (.mcvt f) := fun _ _ => rfl
theorem mstat : ∀ f, Statement (.mstat f) := fun _ _ => rfl
theorem coll : ∀ f, Statement (.coll f) := fun f => by
  show legal (.coll f) = true → ofOpcode 0x240 f = some (.coll f)
  intro h
  have h : (f.headOk && f.d.isT && f.a.isSk 3 && f.b.isImax 15 && f.noM) = true := h
  show some (if modBits f.m 9 1 == 1 then Instr.collDone f else .coll f) = _
  simp only [Bool.and_eq_true] at h
  have hm : f.m = 0 := by simpa [Fields.noM] using h.2
  simp [hm, modBits]
theorem collDone : ∀ f, Statement (.collDone f) := fun f => by
  show legal (.collDone f) = true → ofOpcode 0x240 f = some (.collDone f)
  intro h
  have h : (f.headOk && f.noD && f.a.isSk 4 && f.noB && modOnly f.m 0x300 && modBits f.m 9 1 == 1) = true := h
  show some (if modBits f.m 9 1 == 1 then Instr.collDone f else .coll f) = _
  simp only [Bool.and_eq_true, beq_iff_eq] at h
  have hm : modBits f.m 9 1 = 1 := h.2
  simp [hm]
theorem rld : ∀ f, Statement (.rld f) := fun _ _ => rfl
theorem rst : ∀ f, Statement (.rst f) := fun f => by
  show legal (.rst f) = true → ofOpcode 0x242 f = some (.rst f)
  intro h
  have h : (f.headOk && modOnly f.m 0x007 && modBits f.m 0 3 ≤ 3 && regsOf (modBits f.m 0 3) f.d && f.a.isS && (f.b.isVp || f.b.isS)) = true := h
  show some (if modBits f.m 9 1 == 1 then Instr.rstBlk f else .rst f) = _
  simp only [Bool.and_eq_true] at h
  have hm : modBits f.m 9 1 ≠ 1 := by
    have e : f.m &&& ~~~0x007#10 = 0 := beq_iff_eq.mp h.1.1.1.1.2
    have b : f.m.getLsbD 9 = false := by simpa using congrArg (fun x => BitVec.getLsbD x 9) e
    rw [← BitVec.testBit_toNat, Nat.testBit_eq_decide_div_mod_eq] at b
    exact of_decide_eq_false b
  simp [hm]
theorem rstBlk : ∀ f, Statement (.rstBlk f) := fun f => by
  show legal (.rstBlk f) = true → ofOpcode 0x242 f = some (.rstBlk f)
  intro h
  have h : (f.headOk && modOnly f.m 0x308 && modBits f.m 9 1 == 1 && f.d.isT && f.a.isS && f.b.isSk 4) = true := h
  show some (if modBits f.m 9 1 == 1 then Instr.rstBlk f else .rst f) = _
  simp only [Bool.and_eq_true, beq_iff_eq] at h
  have hm : modBits f.m 9 1 = 1 := h.1.1.1.2
  simp [hm]
theorem rred : ∀ f, Statement (.rred f) := fun _ _ => rfl
theorem ratom : ∀ f, Statement (.ratom f) := fun _ _ => rfl
theorem vmask : ∀ f, Statement (.vmask f) := fun _ _ => rfl
theorem vrsc : ∀ f, Statement (.vrsc f) := fun _ _ => rfl
theorem msv : ∀ f, Statement (.msv f) := fun _ _ => rfl
theorem gangq : ∀ f, Statement (.gangq f) := fun _ _ => rfl
theorem gangack : ∀ f, Statement (.gangack f) := fun _ _ => rfl
theorem xmodeStep1 : ∀ f, Statement (.xmodeStep1 f) := fun _ _ => rfl
theorem xmodeStep2 : ∀ f, Statement (.xmodeStep2 f) := fun _ _ => rfl
theorem xmodeStep3 : ∀ f, Statement (.xmodeStep3 f) := fun _ _ => rfl
theorem xmodeExit : ∀ f, Statement (.xmodeExit f) := fun _ _ => rfl
theorem xprog : ∀ f, Statement (.xprog f) := fun _ _ => rfl
theorem xcol : ∀ f, Statement (.xcol f) := fun _ _ => rfl
theorem xread : ∀ f, Statement (.xread f) := fun _ _ => rfl
theorem xstat : ∀ f, Statement (.xstat f) := fun _ _ => rfl
theorem xreset : ∀ f, Statement (.xreset f) := fun _ _ => rfl
theorem afor : ∀ f, Statement (.afor f) := fun _ _ => rfl
theorem aend : ∀ f, Statement (.aend f) := fun _ _ => rfl
theorem qpush : ∀ f, Statement (.qpush f) := fun _ _ => rfl
theorem await : ∀ f, Statement (.await f) := fun _ _ => rfl
theorem csrr : ∀ f, Statement (.csrr f) := fun _ _ => rfl
theorem csrw : ∀ f, Statement (.csrw f) := fun _ _ => rfl
theorem replay : ∀ f, Statement (.replay f) := fun _ _ => rfl
theorem tlbinv : ∀ f, Statement (.tlbinv f) := fun _ _ => rfl
theorem evpost : ∀ f, Statement (.evpost f) := fun _ _ => rfl
theorem launch : ∀ f, Statement (.launch f) := fun _ _ => rfl
theorem resume : ∀ f, Statement (.resume f) := fun _ _ => rfl
theorem kill : ∀ f, Statement (.kill f) := fun _ _ => rfl
theorem ctxopCreate : ∀ f, Statement (.ctxopCreate f) := fun f => by
  show legal (.ctxopCreate f) = true → ofOpcode 0x308 f = some (.ctxopCreate f)
  intro h
  have h : (f.headOk && f.d.isS && f.a.isS && f.b.isS && f.m == 0) = true := h
  show some (ctxopOf f) = _
  simp only [Bool.and_eq_true, beq_iff_eq] at h
  simp [ctxopOf, h.2, modBits]
theorem ctxopActivate : ∀ f, Statement (.ctxopActivate f) := fun f => by
  show legal (.ctxopActivate f) = true → ofOpcode 0x308 f = some (.ctxopActivate f)
  intro h
  have h : (f.headOk && f.d.isS && f.a.isS && f.b.isS && f.m == 1) = true := h
  show some (ctxopOf f) = _
  simp only [Bool.and_eq_true, beq_iff_eq] at h
  simp [ctxopOf, h.2, modBits]
theorem ctxopPreempt : ∀ f, Statement (.ctxopPreempt f) := fun f => by
  show legal (.ctxopPreempt f) = true → ofOpcode 0x308 f = some (.ctxopPreempt f)
  intro h
  have h : (f.headOk && f.d.isS && f.a.isS && f.b.isS && f.m == 2) = true := h
  show some (ctxopOf f) = _
  simp only [Bool.and_eq_true, beq_iff_eq] at h
  simp [ctxopOf, h.2, modBits]
theorem ctxopRestore : ∀ f, Statement (.ctxopRestore f) := fun f => by
  show legal (.ctxopRestore f) = true → ofOpcode 0x308 f = some (.ctxopRestore f)
  intro h
  have h : (f.headOk && f.d.isS && f.a.isS && f.b.isS && f.m == 3) = true := h
  show some (ctxopOf f) = _
  simp only [Bool.and_eq_true, beq_iff_eq] at h
  simp [ctxopOf, h.2, modBits]
theorem ctxopReset : ∀ f, Statement (.ctxopReset f) := fun f => by
  show legal (.ctxopReset f) = true → ofOpcode 0x308 f = some (.ctxopReset f)
  intro h
  have h : (f.headOk && f.d.isS && f.a.isS && f.b.isS && f.m == 4) = true := h
  show some (ctxopOf f) = _
  simp only [Bool.and_eq_true, beq_iff_eq] at h
  simp [ctxopOf, h.2, modBits]
theorem ctxopDestroy : ∀ f, Statement (.ctxopDestroy f) := fun f => by
  show legal (.ctxopDestroy f) = true → ofOpcode 0x308 f = some (.ctxopDestroy f)
  intro h
  have h : (f.headOk && f.d.isS && f.a.isS && f.b.isS && f.m == 5) = true := h
  show some (ctxopOf f) = _
  simp only [Bool.and_eq_true, beq_iff_eq] at h
  simp [ctxopOf, h.2, modBits]
theorem ctxopQuery : ∀ f, Statement (.ctxopQuery f) := fun f => by
  show legal (.ctxopQuery f) = true → ofOpcode 0x308 f = some (.ctxopQuery f)
  intro h
  have h : (f.headOk && f.d.isS && f.a.isS && f.b.isS && f.m == 6) = true := h
  show some (ctxopOf f) = _
  simp only [Bool.and_eq_true, beq_iff_eq] at h
  simp [ctxopOf, h.2, modBits]
theorem ctxopModify : ∀ f, Statement (.ctxopModify f) := fun f => by
  show legal (.ctxopModify f) = true → ofOpcode 0x308 f = some (.ctxopModify f)
  intro h
  have h : (f.headOk && f.d.isS && f.a.isS && f.b.isS && f.m == 7) = true := h
  show some (ctxopOf f) = _
  simp only [Bool.and_eq_true, beq_iff_eq] at h
  simp [ctxopOf, h.2, modBits]
theorem energyq : ∀ f, Statement (.energyq f) := fun _ _ => rfl
theorem execNop : Statement .execNop := fun _ _ _ h => nomatch h
theorem latch : ∀ r, Statement (.latch r) := fun _ _ _ _ h => nomatch h
theorem store : ∀ r, Statement (.store r) := fun _ _ _ _ h => nomatch h
theorem setk : ∀ sel v, Statement (.setk sel v) := fun _ _ _ _ _ h => nomatch h
theorem setm : ∀ sel v, Statement (.setm sel v) := fun _ _ _ _ _ h => nomatch h
theorem shk : ∀ d n, Statement (.shk d n) := fun _ _ _ _ _ h => nomatch h
theorem cmp : ∀ v, Statement (.cmp v) := fun _ _ _ _ h => nomatch h
theorem cmpa : ∀ v, Statement (.cmpa v) := fun _ _ _ _ h => nomatch h
theorem cmpo : ∀ v, Statement (.cmpo v) := fun _ _ _ _ h => nomatch h
theorem tnot : ∀ v, Statement (.tnot v) := fun _ _ _ _ h => nomatch h
theorem wr : ∀ v, Statement (.wr v) := fun _ _ _ _ h => nomatch h
theorem wrn : ∀ v, Statement (.wrn v) := fun _ _ _ _ h => nomatch h
theorem tsave : ∀ f, Statement (.tsave f) := fun _ _ _ _ h => nomatch h
theorem tload : ∀ f, Statement (.tload f) := fun _ _ _ _ h => nomatch h
theorem tshf : ∀ v d n, Statement (.tshf v d n) := fun _ _ _ _ _ _ h => nomatch h
theorem tcnt : ∀ v j, Statement (.tcnt v j) := fun _ _ _ _ _ h => nomatch h
theorem tfst : ∀ v j, Statement (.tfst v j) := fun _ _ _ _ _ h => nomatch h
theorem rdw : ∀ j w, Statement (.rdw j w) := fun _ _ _ _ _ h => nomatch h
theorem rdwF : ∀ j v, Statement (.rdwF j v) := fun _ _ _ _ _ h => nomatch h
theorem xout : ∀ w, Statement (.xout w) := fun _ _ _ _ h => nomatch h
theorem xin : ∀ b w, Statement (.xin b w) := fun _ _ _ _ _ h => nomatch h
theorem execRel : ∀ sel, Statement (.execRel sel) := fun _ _ _ _ h => nomatch h
theorem execAcq : ∀ sel, Statement (.execAcq sel) := fun _ _ _ _ h => nomatch h
theorem execFence : ∀ sel, Statement (.execFence sel) := fun _ _ _ _ h => nomatch h
theorem loop : ∀ t, Statement (.loop t) := fun _ _ _ _ h => nomatch h
theorem setc : ∀ n, Statement (.setc n) := fun _ _ _ _ h => nomatch h
theorem halt : Statement .halt := fun _ _ _ h => nomatch h
theorem rtag : ∀ v, Statement (.rtag v) := fun _ _ _ _ h => nomatch h
theorem xmodeOtherWord : ∀ f, Statement (.xmodeOtherWord f) := fun _ _ => rfl
theorem illegalWord : ∀ w, Statement (.illegalWord w) := fun _ _ _ _ h => nomatch h
theorem advance : ∀ ch, Statement (.advance ch) := fun _ _ _ _ h => nomatch h
theorem deviceReset : Statement .deviceReset := fun _ _ _ h => nomatch h
theorem boot : ∀ valid counter, Statement (.boot valid counter) := fun _ _ _ _ _ h => nomatch h
theorem repairStep : Statement .repairStep := fun _ _ _ h => nomatch h
theorem mapStep : Statement .mapStep := fun _ _ _ h => nomatch h
theorem measure : Statement .measure := fun _ _ _ h => nomatch h
theorem links : Statement .links := fun _ _ _ h => nomatch h
theorem nodeidAssigned : ∀ id, Statement (.nodeidAssigned id) := fun _ _ _ _ h => nomatch h
theorem systemStep : Statement .systemStep := fun _ _ _ h => nomatch h
theorem drained : ∀ c, Statement (.drained c) := fun _ _ _ _ h => nomatch h
theorem d1Expires : ∀ c, Statement (.d1Expires c) := fun _ _ _ _ h => nomatch h
theorem d2Expires : ∀ c, Statement (.d2Expires c) := fun _ _ _ _ h => nomatch h
theorem saved : ∀ c, Statement (.saved c) := fun _ _ _ _ h => nomatch h
theorem saveFault : ∀ c, Statement (.saveFault c) := fun _ _ _ _ h => nomatch h
theorem restoreComplete : ∀ c, Statement (.restoreComplete c) := fun _ _ _ _ h => nomatch h
theorem resetDone : ∀ c, Statement (.resetDone c) := fun _ _ _ _ h => nomatch h
theorem producerIndexObserved : ∀ c q, Statement (.producerIndexObserved c q) := fun _ _ _ _ _ h => nomatch h
theorem headRead : ∀ c q, Statement (.headRead c q) := fun _ _ _ _ _ h => nomatch h
theorem admission : ∀ c q, Statement (.admission c q) := fun _ _ _ _ _ h => nomatch h
theorem dependenceReread : ∀ c q, Statement (.dependenceReread c q) := fun _ _ _ _ _ h => nomatch h
theorem placement : ∀ die, Statement (.placement die) := fun _ _ _ _ h => nomatch h
theorem stealRequest : ∀ k thief victim, Statement (.stealRequest k thief victim) := fun _ _ _ _ _ _ h => nomatch h
theorem stealReply : ∀ k thief, Statement (.stealReply k thief) := fun _ _ _ _ _ h => nomatch h
theorem remainingCount : ∀ k src dst count, Statement (.remainingCount k src dst count) := fun _ _ _ _ _ _ _ h => nomatch h
theorem spawnBinTimeout : ∀ die bin, Statement (.spawnBinTimeout die bin) := fun _ _ _ _ _ h => nomatch h
theorem zeroNotice : ∀ k die, Statement (.zeroNotice k die) := fun _ _ _ _ _ h => nomatch h
theorem quiescenceWave : ∀ k, Statement (.quiescenceWave k) := fun _ _ _ _ h => nomatch h
theorem completionAction : ∀ k, Statement (.completionAction k) := fun _ _ _ _ h => nomatch h
theorem controlIntervalBoundary : Statement .controlIntervalBoundary := fun _ _ _ h => nomatch h
theorem priorityPromotion : ∀ core slot, Statement (.priorityPromotion core slot) := fun _ _ _ _ _ h => nomatch h
theorem yieldExpires : ∀ core slot, Statement (.yieldExpires core slot) := fun _ _ _ _ _ h => nomatch h
theorem sleepEnd : ∀ core slot, Statement (.sleepEnd core slot) := fun _ _ _ _ _ h => nomatch h
theorem waitSatisfied : ∀ core slot, Statement (.waitSatisfied core slot) := fun _ _ _ _ _ h => nomatch h
theorem caravanExit : ∀ core slot, Statement (.caravanExit core slot) := fun _ _ _ _ _ h => nomatch h
theorem partyDeparture : ∀ core slot, Statement (.partyDeparture core slot) := fun _ _ _ _ _ h => nomatch h
theorem accallocGrant : ∀ core, Statement (.accallocGrant core) := fun _ _ _ _ h => nomatch h
theorem copyBytesLand : ∀ op, Statement (.copyBytesLand op) := fun _ _ _ _ h => nomatch h
theorem copyComplete : ∀ op, Statement (.copyComplete op) := fun _ _ _ _ h => nomatch h
theorem sendComplete : ∀ op, Statement (.sendComplete op) := fun _ _ _ _ h => nomatch h
theorem queueEntryVisible : ∀ core slot q, Statement (.queueEntryVisible core slot q) := fun _ _ _ _ _ _ h => nomatch h
theorem heldRecordRetry : ∀ c cons, Statement (.heldRecordRetry c cons) := fun _ _ _ _ _ h => nomatch h
theorem channelRequest : ∀ op, Statement (.channelRequest op) := fun _ _ _ _ h => nomatch h
theorem rfmBlockEnd : ∀ ch bank, Statement (.rfmBlockEnd ch bank) := fun _ _ _ _ _ h => nomatch h
theorem refreshWindowBoundary : ∀ ch, Statement (.refreshWindowBoundary ch) := fun _ _ _ _ h => nomatch h
theorem memoryReply : ∀ op, Statement (.memoryReply op) := fun _ _ _ _ h => nomatch h
theorem releaseComplete : ∀ core slot, Statement (.releaseComplete core slot) := fun _ _ _ _ _ h => nomatch h
theorem lineEviction : ∀ core asid line, Statement (.lineEviction core asid line) := fun _ _ _ _ _ _ h => nomatch h
theorem tlbinvComplete : ∀ core slot, Statement (.tlbinvComplete core slot) := fun _ _ _ _ _ h => nomatch h
theorem contextRegisterWriteComplete : ∀ c, Statement (.contextRegisterWriteComplete c) := fun _ _ _ _ h => nomatch h
theorem registerWrite : ∀ va x, Statement (.registerWrite va x) := fun _ _ _ _ _ h => nomatch h
theorem replayDoorbell : ∀ node sctx w, Statement (.replayDoorbell node sctx w) := fun _ _ _ _ _ _ h => nomatch h
theorem extentGrant : ∀ id node base size owner, Statement (.extentGrant id node base size owner) := fun _ _ _ _ _ _ _ _ h => nomatch h
theorem extentOrderlyRelease : ∀ id, Statement (.extentOrderlyRelease id) := fun _ _ _ _ h => nomatch h
theorem extentForcedRelease : ∀ id, Statement (.extentForcedRelease id) := fun _ _ _ _ h => nomatch h
theorem extentWritebackDone : ∀ id, Statement (.extentWritebackDone id) := fun _ _ _ _ h => nomatch h
theorem armingTimeout : ∀ ch, Statement (.armingTimeout ch) := fun _ _ _ _ h => nomatch h
theorem exitingComplete : ∀ ch, Statement (.exitingComplete ch) := fun _ _ _ _ h => nomatch h
theorem oboundExpires : ∀ ch, Statement (.oboundExpires ch) := fun _ _ _ _ h => nomatch h
theorem snapshotServed : ∀ ch, Statement (.snapshotServed ch) := fun _ _ _ _ h => nomatch h
theorem flitCheckFail : ∀ port flit, Statement (.flitCheckFail port flit) := fun _ _ _ _ _ h => nomatch h
theorem retrainEntry : ∀ port, Statement (.retrainEntry port) := fun _ _ _ _ h => nomatch h
theorem trainingComplete : ∀ port peer peerPort, Statement (.trainingComplete port peer peerPort) := fun _ _ _ _ _ _ h => nomatch h
theorem trainingFailed : ∀ port, Statement (.trainingFailed port) := fun _ _ _ _ h => nomatch h
theorem retrainTimeout : ∀ port, Statement (.retrainTimeout port) := fun _ _ _ _ h => nomatch h
theorem lctlDisSet : ∀ port, Statement (.lctlDisSet port) := fun _ _ _ _ h => nomatch h
theorem lctlDisClear : ∀ port, Statement (.lctlDisClear port) := fun _ _ _ _ h => nomatch h
theorem remoteRequest : ∀ r, Statement (.remoteRequest r) := fun _ _ _ _ h => nomatch h
theorem remoteReply : ∀ op lane out data, Statement (.remoteReply op lane out data) := fun _ _ _ _ _ _ _ h => nomatch h
theorem parkedNotice : ∀ op lane, Statement (.parkedNotice op lane) := fun _ _ _ _ _ h => nomatch h
theorem fabricTimeout : ∀ op lane, Statement (.fabricTimeout op lane) := fun _ _ _ _ _ h => nomatch h
theorem peerContextReset : ∀ c comm, Statement (.peerContextReset c comm) := fun _ _ _ _ _ h => nomatch h
theorem lossyBlock : ∀ port b, Statement (.lossyBlock port b) := fun _ _ _ _ _ h => nomatch h
theorem endMarker : ∀ m, Statement (.endMarker m) := fun _ _ _ _ h => nomatch h
theorem nodeReset : ∀ node, Statement (.nodeReset node) := fun _ _ _ _ h => nomatch h
theorem gangQuery : ∀ c comm, Statement (.gangQuery c comm) := fun _ _ _ _ _ h => nomatch h
theorem pause : ∀ c comm cstar, Statement (.pause c comm cstar) := fun _ _ _ _ _ _ h => nomatch h
theorem gangResume : ∀ c comm, Statement (.gangResume c comm) := fun _ _ _ _ _ h => nomatch h
theorem instanceDone : ∀ c comm inst peer, Statement (.instanceDone c comm inst peer) := fun _ _ _ _ _ _ _ h => nomatch h
theorem switchDecline : ∀ op, Statement (.switchDecline op) := fun _ _ _ _ h => nomatch h
theorem switchAbort : ∀ op, Statement (.switchAbort op) := fun _ _ _ _ h => nomatch h
theorem matrixStart : ∀ op, Statement (.matrixStart op) := fun _ _ _ _ h => nomatch h
theorem multicastRound : ∀ die cluster mask tile, Statement (.multicastRound die cluster mask tile) := fun _ _ _ _ _ _ _ h => nomatch h
theorem matrixStop : ∀ op, Statement (.matrixStop op) := fun _ _ _ _ h => nomatch h
theorem matrixComplete : ∀ op, Statement (.matrixComplete op) := fun _ _ _ _ h => nomatch h
theorem getVersion : Statement .getVersion := fun _ _ _ h => nomatch h
theorem getCapabilities : Statement .getCapabilities := fun _ _ _ h => nomatch h
theorem negotiateAlgorithms : Statement .negotiateAlgorithms := fun _ _ _ h => nomatch h
theorem getDigests : Statement .getDigests := fun _ _ _ h => nomatch h
theorem getCertificate : Statement .getCertificate := fun _ _ _ h => nomatch h
theorem challenge : Statement .challenge := fun _ _ _ h => nomatch h
theorem getMeasurements : ∀ index, Statement (.getMeasurements index) := fun _ _ _ _ h => nomatch h
theorem keyExchange : Statement .keyExchange := fun _ _ _ h => nomatch h
theorem finish : Statement .finish := fun _ _ _ h => nomatch h
theorem endSession : Statement .endSession := fun _ _ _ h => nomatch h
theorem loadKey : ∀ slot key, Statement (.loadKey slot key) := fun _ _ _ _ _ h => nomatch h
theorem admitHost : ∀ node, Statement (.admitHost node) := fun _ _ _ _ h => nomatch h
theorem getBringup : Statement .getBringup := fun _ _ _ h => nomatch h
theorem setPinned : ∀ dies caps, Statement (.setPinned dies caps) := fun _ _ _ _ _ h => nomatch h
theorem powerWindow : ∀ watts, Statement (.powerWindow watts) := fun _ _ _ _ h => nomatch h
theorem thermalLimit : Statement .thermalLimit := fun _ _ _ h => nomatch h
theorem thermalShutdown : Statement .thermalShutdown := fun _ _ _ h => nomatch h
theorem contextCommand : ∀ node sctx cmd, Statement (.contextCommand node sctx cmd) := fun _ _ _ _ _ _ h => nomatch h

end Sys2Proof.Laws.OpcodeMap
end

