-- ==== Sys2Proof/Tests/Slice0.lean ====
section
/-! SUPPORT. Tests: words written out from the spec's encodings decode to their instructions, ill-formed terms are refused,
single steps give the values the spec works out, and the hypotheses of the statements are met by concrete states. -/

namespace Sys2Proof.Tests

open Sys2Proof Sys2Proof.Machine
open Host (Outcome)

set_option maxRecDepth 100000
set_option Elab.async false

/-! ## Decoding: words from the spec's encodings, one or more for each class of R222 -/

def always : Guard := { pred := 63, neg := false }
def noHints : Hints := { stall := 0, setv := false, setk := 0, wait := 0 }
def none_ : Operand := .v 0 0 0
/-- Fields with a true guard and no hints. -/
def fl (d a b : Operand) (m : BitVec 10) : Fields := { g := always, h := noHints, d := d, a := a, b := b, m := m }

/-- Chapter 10's branch with P5, 4 and 9 instructions on. -/
theorem test_decode_bra : decodeTableWord 96 0x00200098_00130005_0000FC01 = some (.bra (fl (.pred 5) (.imm 4) (.imm 9) 0)) := by
  decide +kernel
/-- Chapter 22's ROTL V1, V0.bfly16, #16 under P5, waiting for token 0. -/
theorem test_decode_rotl : decodeTableWord 96 0x00200100_14000001_0002144D =
    some (.rotl { g := ⟨5, false⟩, h := ⟨0, false, 0, 1⟩, d := .v 1 0 0, a := .v 0 5 0, b := .imm 16, m := 0 }) := by
  decide +kernel
/-- Chapter 22's TTAB under !P5. -/
theorem test_decode_ttab : decodeTableWord 96 0x38800014_00500000_00011453 =
    some (.ttab { g := ⟨5, true⟩, h := noHints, d := .v 0 0 0, a := .s 20, b := .v 1 0 0, m := 0xE2 }) := by decide +kernel
/-- Chapter 09's FADD V4, V1.bfly4, −V2 under P3, with hints. -/
theorem test_decode_fadd : decodeTableWord 96 0x00010020_0C040004_34040C80 =
    some (.fadd { g := ⟨3, false⟩, h := ⟨1, true, 2, 2⟩, d := .v 4 0 0, a := .v 1 3 0, b := .v 2 0 1, m := 0 }) := by
  decide +kernel
/-- Chapter 20's LANEID V0. -/
theorem test_decode_laneid : decodeTableWord 96 0x0000FCC4 = some (.laneid (fl none_ none_ none_ 0)) := by decide +kernel
/-- Chapter 20's SMOVI.U S1. -/
theorem test_decode_smovi : decodeTableWord 96 0x40200008_00010001_0000FD01 =
    some (.smovi (fl (.s 1) (.imm 0) (.imm 0) 0x100)) := by decide +kernel
/-- Chapter 22's ST.32 V2, V0, #0. -/
theorem test_decode_st : decodeTableWord 96 0x00A00000_00000002_0000FD41 =
    some (.st (fl (.v 2 0 0) none_ (.imm 0) 2)) := by decide +kernel
/-- Chapter 22's BARWAIT #0, #0. -/
theorem test_decode_barwait : decodeTableWord 96 0x00200008_00000000_0000FD88 =
    some (.barwait (fl none_ (.imm 0) (.imm 0) 0)) := by decide +kernel
/-- Chapter 23's CPT.B0 T0, S1, S4. -/
theorem test_decode_cpt : decodeTableWord 96 0x80100044_00072000_0000FDC6 =
    some (.cpt (fl (.tile 0) (.s 1) (.s 4) 0x200)) := by decide +kernel
/-- Chapter 23's MSL.F64 Z2, T0, T1, #8. -/
theorem test_decode_msl : decodeTableWord 96 0x0232001C_80033002_0000FE04 =
    some (.msl (fl (.acc 2) (.tile 0) (.tile 1) 8)) := by decide +kernel
/-- GANGACK S4, by R210, R213, R222: OPC 0x249, OPA kind 01. -/
theorem test_decode_gangack : decodeTableWord 96 0x00000004_00100000_0000FE49 =
    some (.gangack (fl none_ (.s 4) none_ 0)) := by decide +kernel
/-- XSTAT S4, S4: OPC 0x284. -/
theorem test_decode_xstat : decodeTableWord 96 0x00000004_00110004_0000FE84 =
    some (.xstat (fl (.s 4) (.s 4) none_ 0)) := by decide +kernel
/-- AWAIT T2, #0: OPC 0x2C3, OPD class 2, OPA kind 10. -/
theorem test_decode_await : decodeTableWord 96 0x00000008_00032002_0000FEC3 =
    some (.await (fl (.tile 2) (.imm 0) none_ 0)) := by decide +kernel
/-- CSRR S4, control register 0x011: OPC 0x300, OPA class 6. -/
theorem test_decode_csrr : decodeTableWord 96 0x0000000D_80450004_0000FF00 =
    some (.csrr (fl (.s 4) (.csr 0x11) none_ 0)) := by decide +kernel
/-- CTXOP's operation is MOD 3:0: 4 is RESET. -/
theorem test_decode_ctxop : decodeTableWord 96 0x01100044_00110004_0000FF08 =
    some (.ctxopReset (fl (.s 4) (.s 4) (.s 4) 4)) := by decide +kernel
/-- Chapter 19's SETK.LO #0x100, and XOUT of word 9. -/
theorem test_decode_setk : decodeTableWord 32 0x0C000100 = some (.setk 0 0x100) := by decide +kernel
theorem test_decode_xout : decodeTableWord 32 0x48000009 = some (.xout 9) := by decide +kernel
/-- Class 0xD is unassigned, and so is function 15 of class 0; executor opcode 0x1B is illegal (R222, R139). -/
theorem test_decode_unassigned : decodeTableWord 96 0x0000FF40 = none ∧ decodeTableWord 96 0x0000FC0F = none ∧
    decodeTableWord 32 0x6C000000 = none := by decide +kernel

/-! ## Ill-formed terms are refused -/

/-- GRD.PRED 48 to 62 (R210), and HNT.SETK without HNT.SETV (R212). -/
theorem test_illformed_head : legal (.nop { fl none_ none_ none_ 0 with g := ⟨50, false⟩ }) = false ∧
    legal (.nop { fl none_ none_ none_ 0 with h := ⟨0, false, 3, 0⟩ }) = false := by decide +kernel
/-- A permutation on OPD, the reserved permutation 15, a sub-modifier where none is accepted (R213, R214, R217). -/
theorem test_illformed_vector : legal (.imul (fl (.v 0 1 0) none_ none_ 0)) = false ∧
    legal (.imul (fl none_ (.v 0 15 0) none_ 0)) = false ∧ legal (.andI (fl none_ (.v 0 0 1) none_ 0)) = false ∧
    legal (.fadd (fl none_ (.v 0 0 4) none_ 0)) = false := by decide +kernel
/-- Operands of a kind or class that the entry does not accept (R213, R215). -/
theorem test_illformed_kind : legal (.sadd (fl none_ (.s 1) (.s 1) 0)) = false ∧
    legal (.fadd (fl (.imm 0) none_ none_ 0)) = false ∧ legal (.tdef (fl (.acc 2) (.s 4) none_ 0)) = false ∧
    legal (.qstat (fl (.s 4) (.tile 1) none_ 0)) = false ∧ legal (.ballot (fl none_ (.s 1) none_ 0)) = false := by
  decide +kernel
/-- An odd register of a pair (R168), an unused operand that is not zero, an unused MOD bit (R219, R228). -/
theorem test_illformed_fields : legal (.dadd (fl (.v 1 0 0) none_ none_ 0)) = false ∧
    legal (.nop (fl none_ (.v 1 0 0) none_ 0)) = false ∧ legal (.nop (fl none_ none_ none_ 1)) = false ∧
    legal (.imul (fl none_ none_ none_ 1)) = false := by decide +kernel
/-- An unassigned control register, a role of 0, a WAITC threshold field beyond 12 bits, a REGION range beyond V255
(R215, R220, R225, R276). -/
theorem test_illformed_special : legal (.csrr (fl (.s 4) (.csr 0x12) none_ 0)) = false ∧
    legal (.msl (fl (.acc 2) (.tile 0) (.role 0 1) 8)) = false ∧ legal (.waitc (fl (.raw 4096) (.raw 0) (.raw 0) 0)) = false ∧
    legal (.region (fl (.raw 0x2FF) (.raw 0) (.raw 0) 0)) = false := by decide +kernel
/-- Types that the entry does not accept (R219, R239). -/
theorem test_illformed_type : legal (.iadd (fl none_ none_ none_ (4 * 4))) = false ∧
    legal (.cvt (fl none_ none_ none_ 0x021)) = false := by decide +kernel
/-- Executor operand values out of range (R140). -/
theorem test_illformed_executor : legal (.setk 2 8) = false ∧ legal (.setm 3 256) = false ∧ legal (.xout 249) = false ∧ legal (.latch 32767) = true := by
  decide +kernel

/-! ## Single steps -/

/-- A caravan of one mask word with lane 0 active at PC 0 and two queues, in the privileged context 0, about to issue. -/
def placed : State := { State.reset.withFetchWord 96 0xFC00 with cur := { core := 0, slot := 0, slice := false } }
def ran : State := placed.setMe { placed.me with nq := 2, qdepth := 4 }
/-- The same with some of the issuing caravan's parts changed. -/
def ranWith (g : Caravan → Caravan) : State := ran.setMe (g ran.me)
/-- The register k of lane L, and the flags, of the issuing caravan in an outcome. -/
def regOf (o : Outcome State Fault Refusal) (k L : Nat) : Option W32 :=
  match o with
  | .next t => some (t.me.reg k L)
  | _ => none
def flagsIn (o : Outcome State Fault Refusal) : Option Flag :=
  match o with
  | .next t => some t.me.flags
  | _ => none
def cvIn (o : Outcome State Fault Refusal) : Option Caravan :=
  match o with
  | .next t => some (t.cv 0 0)
  | _ => none

/-- NOP as the first instruction after reset: the caravan goes on 12 bytes further (R209, R230). -/
theorem test_step_nop : (cvIn (step (State.reset.withFetchWord 96 0xFC00))).map (·.pc) = some 12 := by decide +kernel
/-- A word of class 0xD raises ILLEGAL_ENCODING (R221); without a handler that ends the caravan (R347). -/
theorem test_step_illegal : (cvIn (step (State.reset.withFetchWord 96 0xFF40))).map (·.st) = some .finishing := by
  decide +kernel
/-- HALT as an executor's first word: the executor is HALTED (R140). -/
theorem test_step_halt : (match step (State.reset.withFetchWord 32 0x64000000) with
    | .next t => some (t.executor 0).st
    | _ => none) = some .halted := by decide +kernel
/-- IADD wraps, and under .SAT clamps and raises SAT (R241). -/
theorem test_iadd_wraps : regOf (exec (.iadd (fl (.v 2 0 0) (.v 1 0 0) (.imm 1) (8 * 4)))
    (ranWith (·.setReg 1 0 0x7FFFFFFF))) 2 0 = some 0x80000000 := by decide +kernel
theorem test_iadd_saturates : (regOf (exec (.iadd (fl (.v 2 0 0) (.v 1 0 0) (.imm 1) (0x200 + 8 * 4)))
    (ranWith (·.setReg 1 0 0x7FFFFFFF))) 2 0 = some 0x7FFFFFFF) ∧ flagsIn (exec (.iadd (fl (.v 2 0 0) (.v 1 0 0) (.imm 1)
    (0x200 + 8 * 4))) (ranWith (·.setReg 1 0 0x7FFFFFFF))) = some fSAT := by decide +kernel
/-- Chapter 12's worked conversions: −2.7 to −2 with NX, 3,000,000,000 to the largest I32 with NV (R251, R257). -/
theorem test_cvt_inexact : regOf (exec (.cvt (fl (.v 3 0 0) (.v 2 0 0) none_ 0x1A1)) (ranWith (·.setReg 2 0 0xC02CCCCD))) 3 0 =
    some 0xFFFFFFFE := by decide +kernel
theorem test_cvt_invalid : (regOf (exec (.cvt (fl (.v 3 0 0) (.v 2 0 0) none_ 0x1A1)) (ranWith (·.setReg 2 0 0x4F32D05E))) 3 0 =
    some 0x7FFFFFFF) ∧ flagsIn (exec (.cvt (fl (.v 3 0 0) (.v 2 0 0) none_ 0x1A1)) (ranWith (·.setReg 2 0 0x4F32D05E))) =
    some fNV := by decide +kernel
/-- FADD of 1 and 2^-24 rounds to even, with NX (R169). -/
theorem test_fadd_ties : regOf (exec (.fadd (fl (.v 2 0 0) (.v 0 0 0) (.v 1 0 0) 0))
    (ranWith (fun c => (c.setReg 0 0 0x3F800000).setReg 1 0 0x33800000))) 2 0 = some 0x3F800000 := by decide +kernel
/-- SHL by 32 gives 0; SAR by more than 31 fills with the sign (R239). -/
theorem test_shl_width : regOf (exec (.shl (fl (.v 2 0 0) (.v 1 0 0) (.imm 32) 0)) (ranWith (·.setReg 1 0 5))) 2 0 = some 0 := by
  decide +kernel
theorem test_sar_width : regOf (exec (.sar (fl (.v 2 0 0) (.v 1 0 0) (.imm 40) 0)) (ranWith (·.setReg 1 0 0x80000000))) 2 0 =
    some 0xFFFFFFFF := by decide +kernel
/-- A source that is also the destination is read first: a butterfly of two lanes swaps them (R217, R218). -/
theorem test_swap_lanes : (regOf (exec (.mov (fl (.v 1 0 0) (.v 1 1 0) none_ 0))
    (ranWith (fun c => { (c.setReg 1 0 7).setReg 1 1 9 with exist := 3, mask := 3 }))) 1 0 = some 9) ∧
    (regOf (exec (.mov (fl (.v 1 0 0) (.v 1 1 0) none_ 0))
    (ranWith (fun c => { (c.setReg 1 0 7).setReg 1 1 9 with exist := 3, mask := 3 }))) 1 1 = some 7) := by decide +kernel
/-- A divergent BRA pushes the join and the pending entry and takes the branch (R62, R231). -/
theorem test_bra_diverges : (cvIn (exec (.bra (fl (.pred 1) (.imm 4) (.imm 9) 0))
    (ranWith (fun c => { c.setPred 1 1 with exist := 3, mask := 3 })))).map (fun c => (c.mask, c.pc, c.stack)) =
    some (1, 48, [{ pc := 108, mask := 3 }, { pc := 12, mask := 2 }]) := by decide +kernel
/-- SMOVI sign-extends its 32 bits, SMOVI.HI replaces the upper half (R246). -/
theorem test_smovi : (cvIn (exec (.smovi (fl (.s 1) (.imm 0) (.imm 0x8000) 0)) ran)).map (fun c => sget 0 c.sregs 1) =
    some 0xFFFFFFFF80000000 := by decide +kernel
/-- SMUL keeps the low 64 bits (R243). -/
theorem test_smul : (cvIn (exec (.smul (fl (.s 2) (.s 1) (.imm 3) 0))
    (ranWith (fun c => { c with sregs := sset 0 c.sregs 1 0x8000000000000001 })))).map (fun c => sget 0 c.sregs 2) =
    some 0x8000000000000003 := by decide +kernel
/-- TRAP without a handler kills every lane (R347). -/
theorem test_trap_kills_without_handler : (cvIn (exec (.trap (fl none_ (.imm 5) none_ 0)) ran)).map (fun c => (c.st, c.mask)) =
    some (.finishing, 0) := by decide +kernel
/-- An unprivileged context may not write WINAREA: the register keeps its value (R224). -/
theorem test_privilege : (match exec (.csrw (fl (.csr 0x32) (.s 4) none_ 0)) (ran.setCtx 0 { ran.ctx 0 with priv := false }) with
    | .next t => some ((t.ctx 0).winarea, t.me.st)
    | _ => none) = some (0, .finishing) := by decide +kernel

/-! ## The hypotheses of the statements are met -/

/-- The conditions of LaneRuns, OnceRuns and SliceRuns, as a test. -/
def runsB (s : State) : Bool :=
  (s.me.st = .ready || s.me.st = .trapped) && s.me.mask ≠ 0 && (!s.me.pending || s.me.trap.npc < 32)
def laneB (s : State) (i : Instr) : Bool :=
  match coreParts i with
  | some (_, f) => !s.cur.slice && legal i && limitsOk s i f && s.part f ≠ 0 && runsB s
  | none => false
def onceB (s : State) (i : Instr) : Bool :=
  match coreParts i with
  | some (_, f) => !s.cur.slice && legal i && limitsOk s i f && s.caravanGuard f && runsB s
  | none => false
def sliceB (s : State) (i : Instr) : Bool :=
  match coreParts i with
  | some (_, f) => s.cur.slice && s.me.slice.st = .running && legal i && sliceMay i && limitsOk s i f && f.g.pred = 63 && !f.g.neg
  | none => false

theorem runs_of (s : State) (h : runsB s = true) : Running s := by
  simp only [runsB, Bool.and_eq_true, Bool.or_eq_true, decide_eq_true_eq, Bool.not_eq_true'] at h
  exact ⟨h.1.1, h.1.2, fun p => by rcases h.2 with e | e <;> simp_all⟩
theorem lane_of {s : State} {i : Instr} {opc : Nat} {f : Fields} (e : coreParts i = some (opc, f)) (h : laneB s i = true) :
    LaneRuns i f s := by
  simp only [laneB, e, Bool.and_eq_true, Bool.not_eq_true', decide_eq_true_eq] at h
  exact ⟨h.1.1.1.1, h.1.1.1.2, h.1.1.2, h.1.2, runs_of s h.2⟩
theorem once_of {s : State} {i : Instr} {opc : Nat} {f : Fields} (e : coreParts i = some (opc, f)) (h : onceB s i = true) :
    OnceRuns i f s := by
  simp only [onceB, e, Bool.and_eq_true, Bool.not_eq_true'] at h
  exact ⟨h.1.1.1.1, h.1.1.1.2, h.1.1.2, h.1.2, runs_of s h.2⟩
theorem slice_of {s : State} {i : Instr} {opc : Nat} {f : Fields} (e : coreParts i = some (opc, f)) (h : sliceB s i = true) :
    SliceRuns i f s := by
  simp only [sliceB, e, Bool.and_eq_true, Bool.not_eq_true', decide_eq_true_eq] at h
  exact ⟨h.1.1.1.1.1.1, h.1.1.1.1.1.2, h.1.1.1.1.2, h.1.1.1.2, h.1.1.2, h.1.2, h.2⟩

/-- The access slice of the same caravan, running. -/
def sliced : State := { ranWith (fun c => { c with slice := { c.slice with st := .running } }) with
  cur := { core := 0, slot := 0, slice := true } }

/-- LaneRuns is met for each per-lane opcode (`lane_of`). -/
theorem witness_lane_runs1 :
    ([.iadd, .isub, .imulh, .imin, .imax, .bfe, .imad64, .redux, .scan] : List (Fields → Instr)).all
      (fun c => laneB ran (c (fl none_ none_ none_ 32))) &&
    ([.imul, .imad, .iabs, .iaddc, .isubb, .shl, .shr, .sar, .rotl, .andI, .orI, .xorI, .andn, .notI,
      .ttab, .bfi, .popc, .clz, .brev, .prmt, .iadd64, .sel, .mov, .fadd, .fmul, .ffma, .fmin, .fmax,
      .frcp, .frsq, .fsqrt, .fex2, .flg2, .frnd, .fscl, .dadd, .dmul, .dfma, .dmin, .dmax, .cvtsi,
      .laneid, .shfl, .matchLanes, .ldl, .stl, .ldw, .stw, .atom, .red, .cas] : List (Fields → Instr)).all
      (fun c => laneB ran (c (fl none_ none_ none_ 0))) &&
    ([.iset] : List (Fields → Instr)).all
      (fun c => laneB ran (c (fl (.pred 1) none_ none_ 32))) &&
    ([.movi] : List (Fields → Instr)).all
      (fun c => laneB ran (c (fl none_ (.imm 0) (.imm 0) 0))) &&
    ([.fset, .dset] : List (Fields → Instr)).all
      (fun c => laneB ran (c (fl (.pred 1) none_ none_ 0))) &&
    ([.fclass, .pkadd, .pkmul, .pkfma, .pkset] : List (Fields → Instr)).all
      (fun c => laneB ran (c (fl none_ none_ none_ 16))) := by decide +kernel
theorem witness_lane_runs2 :
    ([.cvt] : List (Fields → Instr)).all
      (fun c => laneB ran (c (fl none_ none_ none_ 544))) &&
    ([.cvtdx] : List (Fields → Instr)).all
      (fun c => laneB ran (c (fl none_ none_ none_ 8))) &&
    ([.plop] : List (Fields → Instr)).all
      (fun c => laneB ran (c (fl (.pred 1) (.pred 1) (.pred 1) 0))) &&
    ([.pmov, .ballot, .firstLane] : List (Fields → Instr)).all
      (fun c => laneB ran (c (fl none_ (.pred 1) none_ 0))) &&
    ([.vote] : List (Fields → Instr)).all
      (fun c => laneB ran (c (fl (.pred 1) (.pred 1) none_ 0))) &&
    ([.ld, .st, .mdld, .mdst, .prf, .cctl] : List (Fields → Instr)).all
      (fun c => laneB ran (c (fl none_ none_ (.imm 0) 0))) := by decide +kernel
theorem witness_lane_runs3 :
    ([.ldr] : List (Fields → Instr)).all
      (fun c => laneB ran (c (fl none_ (.s 4) (.imm 0) 0))) &&
    ([.spawn, .rld, .rst, .ratom] : List (Fields → Instr)).all
      (fun c => laneB ran (c (fl none_ (.s 4) none_ 0))) &&
    ([.tld] : List (Fields → Instr)).all
      (fun c => laneB ran (c (fl none_ (.tile 2) (.s 4) 0))) &&
    ([.tst] : List (Fields → Instr)).all
      (fun c => laneB ran (c (fl (.tile 2) none_ none_ 0))) &&
    ([.vmask] : List (Fields → Instr)).all
      (fun c => laneB ran (c (fl (.pred 1) none_ (.s 4) 0))) &&
    ([.vrsc] : List (Fields → Instr)).all
      (fun c => laneB ran (c (fl none_ none_ (.s 4) 0))) := by decide +kernel
theorem witness_lane_runs4 :
    ([.msv] : List (Fields → Instr)).all
      (fun c => laneB ran (c (fl none_ none_ (.pred 1) 0))) := by decide +kernel
/-- OnceRuns is met for each opcode that executes once for the caravan (`once_of`). -/
theorem witness_once_runs1 :
    ([.nop, .reconv, .exitI, .yield, .fence, .rel, .acq, .mark, .leave, .kill] : List (Fields → Instr)).all
      (fun c => onceB ran (c (fl none_ none_ none_ 0))) &&
    ([.bra] : List (Fields → Instr)).all
      (fun c => onceB ran (c (fl (.pred 1) (.imm 0) (.imm 0) 0))) &&
    ([.brx, .ret, .sleep, .s2v, .gangack, .xreset, .resume] : List (Fields → Instr)).all
      (fun c => onceB ran (c (fl none_ (.s 4) none_ 0))) &&
    ([.brany, .brall] : List (Fields → Instr)).all
      (fun c => onceB ran (c (fl (.pred 1) (.imm 0) none_ 0))) &&
    ([.call, .smov, .termq, .xread, .xstat] : List (Fields → Instr)).all
      (fun c => onceB ran (c (fl (.s 4) (.s 4) none_ 0))) &&
    ([.trap, .brk, .bararv] : List (Fields → Instr)).all
      (fun c => onceB ran (c (fl none_ (.imm 0) none_ 0))) := by decide +kernel
theorem witness_once_runs2 :
    ([.mskget, .partyq, .energyq] : List (Fields → Instr)).all
      (fun c => onceB ran (c (fl (.s 4) (.imm 0) none_ 0))) &&
    ([.mskset] : List (Fields → Instr)).all
      (fun c => onceB ran (c (fl none_ (.s 4) (.imm 0) 0))) &&
    ([.smovi] : List (Fields → Instr)).all
      (fun c => onceB ran (c (fl (.s 4) (.imm 0) (.imm 0) 0))) &&
    ([.sadd, .ssub, .smul, .sand, .sor, .sxor, .sshl, .sshr, .ssel, .join, .cpl, .gangq, .xmodeStep1,
      .xmodeStep2, .xmodeStep3, .xmodeExit, .xprog, .replay, .launch, .ctxopCreate, .xmodeOtherWord] : List (Fields → Instr)).all
      (fun c => onceB ran (c (fl (.s 4) (.s 4) (.s 4) 0))) &&
    ([.sset] : List (Fields → Instr)).all
      (fun c => onceB ran (c (fl (.s 4) (.s 4) (.s 4) 40))) &&
    ([.sld, .sst] : List (Fields → Instr)).all
      (fun c => onceB ran (c (fl (.s 4) (.s 4) (.imm 0) 0))) := by decide +kernel
theorem witness_once_runs3 :
    ([.v2s] : List (Fields → Instr)).all
      (fun c => onceB ran (c (fl (.s 4) none_ (.imm 0) 0))) &&
    ([.region, .waitc] : List (Fields → Instr)).all
      (fun c => onceB ran (c (fl (.raw 0) (.raw 0) (.raw 0) 0))) &&
    ([.barinit, .barexp, .barwait] : List (Fields → Instr)).all
      (fun c => onceB ran (c (fl none_ (.imm 0) (.s 4) 0))) &&
    ([.bartest] : List (Fields → Instr)).all
      (fun c => onceB ran (c (fl (.pred 1) (.imm 0) (.s 4) 0))) &&
    ([.accalloc] : List (Fields → Instr)).all
      (fun c => onceB ran (c (fl (.pred 1) (.acc 1) (.s 4) 0))) &&
    ([.accfree] : List (Fields → Instr)).all
      (fun c => onceB ran (c (fl none_ (.acc 1) none_ 0))) := by decide +kernel
theorem witness_once_runs4 :
    ([.tdef] : List (Fields → Instr)).all
      (fun c => onceB ran (c (fl (.tile 2) (.s 4) none_ 0))) &&
    ([.tfree] : List (Fields → Instr)).all
      (fun c => onceB ran (c (fl (.tile 2) none_ none_ 0))) &&
    ([.tstat] : List (Fields → Instr)).all
      (fun c => onceB ran (c (fl (.s 4) (.tile 2) (.imm 0) 0))) &&
    ([.cpt, .cpo] : List (Fields → Instr)).all
      (fun c => onceB ran (c (fl (.tile 2) (.s 4) (.s 4) 0))) &&
    ([.qclose] : List (Fields → Instr)).all
      (fun c => onceB ran (c (fl (.queue 0) none_ none_ 0))) &&
    ([.qstat] : List (Fields → Instr)).all
      (fun c => onceB ran (c (fl (.s 4) (.queue 0) none_ 0))) := by decide +kernel
theorem witness_once_runs5 :
    ([.mma] : List (Fields → Instr)).all
      (fun c => onceB ran (c (fl (.acc 1) (.tile 2) (.s 4) 0))) &&
    ([.mmas] : List (Fields → Instr)).all
      (fun c => onceB ran (c (fl (.acc 1) (.tile 2) (.tile 2) 0))) &&
    ([.mmx] : List (Fields → Instr)).all
      (fun c => onceB ran (c (fl (.acc 1) (.tile 2) (.tile 2) 8))) &&
    ([.msca] : List (Fields → Instr)).all
      (fun c => onceB ran (c (fl (.acc 1) (.acc 1) (.tile 2) 0))) &&
    ([.msl] : List (Fields → Instr)).all
      (fun c => onceB ran (c (fl (.acc 1) (.tile 2) (.s 4) 1))) &&
    ([.mzero] : List (Fields → Instr)).all
      (fun c => onceB ran (c (fl (.acc 1) none_ none_ 32))) := by decide +kernel
theorem witness_once_runs6 :
    ([.mlda] : List (Fields → Instr)).all
      (fun c => onceB ran (c (fl (.acc 1) (.tile 2) none_ 32))) &&
    ([.mcvt] : List (Fields → Instr)).all
      (fun c => onceB ran (c (fl (.tile 2) (.acc 1) none_ 32))) &&
    ([.mstat] : List (Fields → Instr)).all
      (fun c => onceB ran (c (fl (.s 4) (.acc 1) none_ 0))) &&
    ([.coll] : List (Fields → Instr)).all
      (fun c => onceB ran (c (fl (.tile 2) (.s 4) (.imm 0) 0))) &&
    ([.collDone] : List (Fields → Instr)).all
      (fun c => onceB ran (c (fl none_ (.s 4) none_ 512))) &&
    ([.rstBlk] : List (Fields → Instr)).all
      (fun c => onceB ran (c (fl (.tile 2) (.s 4) (.s 4) 512))) := by decide +kernel
theorem witness_once_runs7 :
    ([.rred] : List (Fields → Instr)).all
      (fun c => onceB ran (c (fl (.tile 2) (.tile 2) (.s 4) 8))) &&
    ([.xcol, .tlbinv, .evpost] : List (Fields → Instr)).all
      (fun c => onceB ran (c (fl none_ (.s 4) (.s 4) 0))) &&
    ([.csrr] : List (Fields → Instr)).all
      (fun c => onceB ran (c (fl (.s 4) (.csr 17) none_ 0))) &&
    ([.csrw] : List (Fields → Instr)).all
      (fun c => onceB ran (c (fl (.csr 17) (.s 4) none_ 0))) &&
    ([.ctxopActivate] : List (Fields → Instr)).all
      (fun c => onceB ran (c (fl (.s 4) (.s 4) (.s 4) 1))) &&
    ([.ctxopPreempt] : List (Fields → Instr)).all
      (fun c => onceB ran (c (fl (.s 4) (.s 4) (.s 4) 2))) := by decide +kernel
theorem witness_once_runs8 :
    ([.ctxopRestore] : List (Fields → Instr)).all
      (fun c => onceB ran (c (fl (.s 4) (.s 4) (.s 4) 3))) &&
    ([.ctxopReset] : List (Fields → Instr)).all
      (fun c => onceB ran (c (fl (.s 4) (.s 4) (.s 4) 4))) &&
    ([.ctxopDestroy] : List (Fields → Instr)).all
      (fun c => onceB ran (c (fl (.s 4) (.s 4) (.s 4) 5))) &&
    ([.ctxopQuery] : List (Fields → Instr)).all
      (fun c => onceB ran (c (fl (.s 4) (.s 4) (.s 4) 6))) &&
    ([.ctxopModify] : List (Fields → Instr)).all
      (fun c => onceB ran (c (fl (.s 4) (.s 4) (.s 4) 7))) := by decide +kernel
/-- SliceRuns is met for each opcode that an access slice executes (`slice_of`). -/
theorem witness_slice_runs1 :
    ([.brx] : List (Fields → Instr)).all
      (fun c => sliceB sliced (c (fl none_ (.s 4) none_ 0))) &&
    ([.smov] : List (Fields → Instr)).all
      (fun c => sliceB sliced (c (fl (.s 4) (.s 4) none_ 0))) &&
    ([.smovi] : List (Fields → Instr)).all
      (fun c => sliceB sliced (c (fl (.s 4) (.imm 0) (.imm 0) 0))) &&
    ([.sadd, .ssub, .smul, .sand, .sor, .sxor, .sshl, .sshr, .ssel, .cpl] : List (Fields → Instr)).all
      (fun c => sliceB sliced (c (fl (.s 4) (.s 4) (.s 4) 0))) &&
    ([.sset] : List (Fields → Instr)).all
      (fun c => sliceB sliced (c (fl (.s 4) (.s 4) (.s 4) 40))) &&
    ([.sld, .sst] : List (Fields → Instr)).all
      (fun c => sliceB sliced (c (fl (.s 4) (.s 4) (.imm 0) 0))) := by decide +kernel
theorem witness_slice_runs2 :
    ([.ldq] : List (Fields → Instr)).all
      (fun c => sliceB sliced (c (fl (.queue 0) (.s 4) (.imm 0) 0))) &&
    ([.waitc] : List (Fields → Instr)).all
      (fun c => sliceB sliced (c (fl (.raw 0) (.raw 0) (.raw 0) 0))) &&
    ([.tdef] : List (Fields → Instr)).all
      (fun c => sliceB sliced (c (fl (.tile 2) (.s 4) none_ 0))) &&
    ([.tfree] : List (Fields → Instr)).all
      (fun c => sliceB sliced (c (fl (.tile 2) none_ none_ 0))) &&
    ([.cpt, .cpo] : List (Fields → Instr)).all
      (fun c => sliceB sliced (c (fl (.tile 2) (.s 4) (.s 4) 0))) &&
    ([.cpq, .qpush] : List (Fields → Instr)).all
      (fun c => sliceB sliced (c (fl (.queue 0) (.s 4) (.s 4) 0))) := by decide +kernel
theorem witness_slice_runs3 :
    ([.afor] : List (Fields → Instr)).all
      (fun c => sliceB sliced (c (fl (.s 4) (.s 4) (.s 4) 1))) &&
    ([.aend] : List (Fields → Instr)).all
      (fun c => sliceB sliced (c (fl none_ none_ none_ 0))) &&
    ([.await] : List (Fields → Instr)).all
      (fun c => sliceB sliced (c (fl (.tile 2) (.imm 0) none_ 0))) := by decide +kernel

/-! ### Variants of chapters 11 to 13 -/

/-- The clauses of IntegerPairAndBitResults, LaneResults, FloatingPointResults, BlockEncode and ScalarVectorMoves that ask
something of MOD or of an operand beside the run conditions. -/
theorem witness_variants :
    let z := fl none_ none_ none_
    laneB ran (.mov (z 0)) && laneB ran (.mov (z 0x200)) && laneB ran (.pmov (fl (.pred 1) (.pred 2) none_ 0)) &&
    laneB ran (.pmov (fl (.pred 1) none_ none_ 0)) && laneB ran (.pmov (fl none_ (.pred 2) none_ 0)) &&
    laneB ran (.matchLanes (z 0)) && laneB ran (.matchLanes (z 0x200)) && laneB ran (.cvt (z 0x1A1)) &&
    laneB ran (.cvt (z 0x19D)) && laneB ran (.cvtdx (fl (.v 1 0 0) none_ none_ 8)) &&
    laneB ran (.cvtdx (fl (.v 1 0 0) none_ none_ 0x208)) && decide (ran.me.width = 32 * 2 ^ 0) &&
    onceB ran (.v2s (fl (.s 1) none_ (.imm 31) 0)) && onceB ran (.v2s (fl (.s 1) none_ (.imm 32) 0)) &&
    onceB ran (.v2s (fl (.s 1) none_ none_ 0x200)) && decide (lowest ran.me.width ran.me.mask < ran.me.width) = true := by
  decide +kernel

/-- ShuffleSourceLane; RoundingMeetsFormats: 1 + 2^-24 and the largest value; a product that overflows; the cases of
FloatSpecialCases; IntegerBitFunctions at both ends of i. -/
theorem witness_values : (32 = 32 * 2 ^ 0 ∧ 31 < 32 ∧ (3 : Nat) < 4 ∧ (6 : Nat) ≤ 6) ∧
    (roundFp fp32 0 false (2 ^ 24 + 1) (-24)).2 &&& fOF = 0 ∧ decodeFp fp32 0x3F800001 = .fin false 8388609 (-23) ∧
    (roundFp fp32 0 false 1 128).2 &&& fOF = fOF ∧ (decodeFp fp32 0x7F800000).isInf = true ∧
    (decodeFp fp32 0x7FC00001).isNan = true ∧ (decodeFp fp32 0).isZero = true := by decide +kernel

/-! ### Control -/

/-- Lanes 0 and 1 active; lane 0 has P1. -/
def two : State := ranWith (fun c => { c.setPred 1 1 with exist := 3, mask := 3 })
/-- The same inside a divergent region whose join is at 0, with the second path still to run, and when it has run. -/
def inRegion (pend : Mask) : State :=
  ranWith (fun c => { c.setPred 1 1 with exist := 3, depth := 1, stack := [{ pc := 0, mask := 3 }, { pc := 24, mask := pend }] })
/-- A handler's context: TRAPBASE and PRIVAREA set. -/
def handled : State := ran.setCtx 0 { ran.ctx 0 with trapbase := 0x1000, privarea := 0x10000000 }

/-- NopsAndBranchesGo: branches taken by all, by none and unconditionally; addresses below and beyond 57 bits. -/
theorem witness_branches :
    let far := ranWith (fun c => { c with sregs := sset 0 c.sregs 1 0x200000000000000 })
    let bra := Instr.bra (fl (.pred 1) (.imm 4) (.imm 9) 0)
    onceB ran bra && onceB ran (.bra (fl none_ (.imm 4) none_ 2)) && sliceB sliced (.bra (fl none_ (.imm 4) none_ 2)) &&
    decide (ran.condMask (.pred 1) 0 = 0) && decide (ran.condMask (.pred 1) 1 = ran.me.mask) &&
    decide ((ran.sreg 4 &&& ~~~(3 : W64)).toNat < 2 ^ 57) && decide (2 ^ 57 ≤ (far.sreg 1 &&& ~~~(3 : W64)).toNat) &&
    onceB far (.brx (fl none_ (.s 1) none_ 0)) && onceB far (.call (fl (.s 2) (.s 1) none_ 0)) &&
    onceB ran (.call (fl (.s 2) (.imm 3) none_ 0)) = true := by decide +kernel
/-- AnyAllBranch: a condition that holds in one of two lanes, and in none. -/
theorem witness_any_all : (onceB two (.brany (fl (.pred 1) (.imm 4) none_ 0)) &&
    onceB two (.brall (fl (.pred 1) (.imm 4) none_ 0)) && onceB ran (.brany (fl (.pred 1) (.imm 4) none_ 0)) &&
    decide (two.condMask (.pred 1) 0 = 1)) = true := by decide +kernel
/-- DivergenceAndReconvergence. -/
theorem witness_divergence :
    let bra := Instr.bra (fl (.pred 1) (.imm 4) (.imm 9) 0)
    let rec_ := Instr.reconv (fl none_ none_ none_ 0)
    let deep := two.setMe { two.me with depth := 16 }
    (onceB two bra && decide (two.condMask (.pred 1) 0 ≠ two.me.mask) && decide (two.condMask (.pred 1) 0 ≠ 0) &&
      decide (two.me.stack.length = 2 * two.me.depth) && onceB deep bra && decide (16 ≤ deep.me.depth) &&
      onceB (inRegion 2) rec_ && onceB (inRegion 0) rec_ && decide ((inRegion 2).me.floor < (inRegion 2).me.depth) &&
      decide (((inRegion 2).me.entry 0).pc = (inRegion 2).me.pc) && onceB ran rec_ &&
      decide (ran.me.depth ≤ ran.me.floor) && decide (two.me.mask &&& ~~~(two.condMask (.pred 1) 0) ≠ 0)) = true := by
  decide +kernel
/-- LanesExitAndYield. -/
theorem witness_exit :
    let exit := Instr.exitI (fl none_ none_ none_ 0)
    let one := Instr.exitI (fl none_ (.pred 1) none_ 2)
    let pend := ranWith (fun c => { c with trap := { c.trap with dmask := 2, npc := 1, table := [(0, 0)] } })
    let trapped := two.setMe { two.me with st := .trapped, trap := { two.me.trap with taken := true, tmask := 3 } }
    (onceB ran exit && onceB two one && decide (two.me.mask &&& ~~~(two.condMask (.pred 1) 2) ≠ 0) &&
      onceB (inRegion 2) exit && onceB pend exit && decide (pend.me.trap.dmask ≠ 0) && onceB trapped one &&
      sliceB sliced exit && onceB ran (.sleep (fl none_ (.imm 0) none_ 0)) && onceB ran (.sleep (fl none_ (.imm 9) none_ 0)) &&
      onceB ran (.mskget (fl (.s 1) (.imm 31) none_ 0)) && onceB ran (.mskget (fl (.s 1) (.imm 32) none_ 0)) &&
      onceB ran (.mskset (fl none_ (.s 4) (.imm 0) 0)) && decide (maskWord ran.me.mask 0 1 ≠ 0) &&
      decide (maskWord ran.me.mask 0 0 = 0)) = true := by decide +kernel
/-- TrapAndBreakpointEnterHandler: the trap record's page is in the L1 of the issuing core, so its writes pass. -/
def recordLine (i : Nat) : Line :=
  { codeLine 0 0 with tag := 0xC10000000 / 128 + i, w := true, priv := true }
def withRecord : State := handled.setCore 0 { handled.core 0 with l1 := (List.range 38).map recordLine }

theorem witness_handler :
    let f := fl none_ (.imm 5) none_ 0
    let r := trapFilled withRecord .software 12 5
    let s := withRecord.setMe (inHandler withRecord r)
    let u : User := { ctx := 0, core := some 0, copy := false, fetch := false, priv := false, op := 0, who := none }
    (onceB withRecord (.trap f) && onceB withRecord (.brk f) && !withRecord.me.trap.taken && withRecord.myCtx.trapbase ≠ 0 &&
      withRecord.myCtx.privarea ≠ 0 && (s.cvWrites u (trapSlotVa s 0 0) 304 s.me.trap.image).2.isNone &&
      s.me.trap.depth = 0) = true := by decide +kernel
/-- FatalTrapsAndLaneFaults: no handler, and a trap already taken; a PC table with room. -/
theorem witness_fatal :
    (!ran.cur.slice && ran.me.st = .ready && !ran.me.trap.taken && ran.myCtx.trapbase = 0 &&
      (ranWith (fun c => { c with trap := { c.trap with taken := true } })).me.trap.taken &&
      ran.me.trap.npc = ran.me.trap.table.length && ran.me.trap.npc < 32) = true := by decide +kernel

/-! ### Memory -/

/-- The code line writable as well, so that stores and atomics of up to cluster scope pass at VA 0 to 127. -/
def stored : State := ran.setCore 0 { ran.core 0 with l1 := [{ codeLine 0 0xFC00 with w := true }] }
/-- Private memory present, its first line in L1. -/
def windowed : State :=
  let s := stored.setCtx 0 { stored.ctx 0 with privarea := 0x10000000 }
  s.setCore 0 { s.core 0 with l1 := { recordLine 0 with tag := 0x10000000 / 128 } :: (s.core 0).l1 }
def passes (s : State) (l : List (List Req)) : Bool :=
  let a := serve s (s.user s.nextOp) true [] l
  a.causes.isEmpty && a.parks.isEmpty && a.todo.isEmpty && a.remote.isEmpty

/-- LoadsAndStoresOfLanes and AtomicsAndTheirOrder: the requests are served without a cause or a park; own accesses that are
not performed, and none. -/
theorem witness_served :
    let busy := stored.addOp (fl none_ none_ none_ 0) .ST .store [mkReq 0 0 4 (.wr 1)] [] [] []
    (passes stored [[mkReq 0 0 4 .rd]] && passes stored [[mkReq 0 16 16 (.wr 7)]] &&
      passes stored [[mkReq 0 8 8 (.rmw 0 2 1 none)]] &&
      passes stored [[mkReq 0 8 4 (.rmw 6 0 1 (some 0))]] &&
      passes windowed [[{ mkReq 0 0x10000000 4 .rd with priv := true }]] && windowed.myCtx.privarea ≠ 0 &&
      laneB stored (.ld (fl none_ none_ (.imm 0) 2)) && laneB stored (.st (fl none_ none_ (.imm 0) 2)) &&
      laneB stored (.atom (fl none_ (.v 2 0 0) none_ 0)) && laneB stored (.atom (fl none_ (.v 2 0 0) none_ 0x100)) &&
      laneB stored (.red (fl none_ (.v 2 0 0) none_ 0x200)) && laneB stored (.cas (fl none_ (.v 2 0 0) none_ 0x300)) &&
      !stored.memPending && busy.memPending && (stored.op stored.nextOp).isNone) = true := by decide +kernel
/-- The core window is present. -/
theorem witness_window :
    let s := stored.setCtx 0 { stored.ctx 0 with winarea := 0x20000000 }
    (s.myCtx.winarea ≠ 0 && laneB s (.ldw (fl none_ none_ none_ 2)) && laneB s (.stw (fl none_ none_ none_ 2))) = true := by
  decide +kernel
/-- SLD and SST perform at issue. -/
def okAt (s : State) (r : Req) : Bool :=
  match (s.perform (s.user s.nextOp) r).2 with
  | .ok _ => true
  | _ => false
theorem witness_scalar_access :
    (okAt stored (mkReq 0 0 4 .rd) && okAt stored (mkReq 0 0 4 (.wr 5))) = true := by decide +kernel
/-- An access slice whose queue 0 holds n landed entries. -/
def queued (n : Nat) (closed : Bool) : State :=
  let s := stored.setMe { stored.me with
    slice := { stored.me.slice with st := .running },
    queues := [{ ents := List.replicate n { seq := 0, landed := true }, head := 0, nextSeq := n, closed := closed,
                 qerr := false }] }
  { s with cur := { core := 0, slot := 0, slice := true } }
/-- RegionsQueueLoadsCaches: LDQ with its queue closed, full and with room; CCTL below 2^57. -/
theorem witness_queue_loads :
    let ldq := Instr.ldq (fl (.queue 0) (.s 4) (.imm 0) 2)
    (sliceB (queued 0 true) ldq && sliceB (queued 4 false) ldq && sliceB (queued 1 false) ldq &&
      ((queued 0 true).queueOf 0).closed && decide ((queued 4 false).me.qdepth ≤ ((queued 4 false).queueOf 0).ents.length) &&
      decide (((queued 1 false).queueOf 0).ents.length < (queued 1 false).me.qdepth) &&
      passes (queued 1 false) ((List.range 32).map (fun L => [mkReq L (BitVec.ofNat 64 (4 * L)) 4 .rd])) &&
      laneB ran (.cctl (fl none_ none_ (.imm 0) 0)) && (ran.laneVa (fl none_ none_ (.imm 0) 0) 0).toNat < 2 ^ 57) = true := by
  decide +kernel

/-! ### Ordering, parties, barriers -/

/-- With an own store that is not performed. -/
def busy (s : State) : State := s.addOp (fl none_ none_ none_ 0) .ST .store [mkReq 0 0 4 (.wr 1)] [] [] []
/-- A pending deferred trap. -/
def deferred (s : State) : State :=
  s.setMe { s.me with trap := { s.me.trap with dmask := 2, npc := 1, table := [(0, 0)] } }
/-- The caravan in a party of n expected members, with one 256-byte unit of scratch at 4096 and CSREQ space around it. -/
def member (n : Nat) (st : PartyState) : State :=
  let s := ranWith (fun c => { c with party := some (0, 0), csbase := 4096, cslen := 4096 })
  s.setParty 0 0 { Party.zero with st := st, key := 7, scrBase := 16, scrSize := 1, expect := n, joined := 1, cores := 1,
                                   members := [(0, 0)] }
/-- The same outside the party, which has another member. -/
def outside (st : PartyState) : State :=
  let s := member 2 st
  (s.setMe { s.me with party := none, sregs := sset 0 (sset 0 s.me.sregs 1 7) 2 9 }).setParty 0 0
    { s.party 0 0 with members := [(1, 0)] }
/-- Barrier 0 of the party holds x. -/
def barred (s : State) (x : Nat) : State := { s with mem := mstore s.mem (Flat.core 0 4096) 16 x }

/-- ReleasesAndAcquires: each scope, an own store outstanding and none, a deep scope that names no place; the joined forms. -/
theorem witness_fences :
    (onceB ran (.fence (fl none_ none_ none_ 0x43)) && onceB ran (.fence (fl none_ none_ none_ 0)) &&
      onceB ran (.fence (fl none_ none_ none_ 0x82)) && onceB (busy ran) (.fence (fl none_ none_ none_ 0x100)) &&
      onceB ran (.fence (fl none_ (.s 4) none_ 0x180)) && (busy ran).memPending && !ran.memPending &&
      onceB ran (.rel (fl none_ none_ none_ 0x140)) && onceB ran (.acq (fl none_ none_ none_ 0x40)) &&
      onceB stored (.rel (fl (.s 1) (.s 4) none_ 0x202)) && onceB stored (.acq (fl (.s 1) (.s 4) none_ 0x202)) &&
      onceB stored (.rel (fl (.s 1) (.s 4) none_ 0x242)) && okAt stored (mkReq 0 0 4 .rd) &&
      okAt stored (mkReq 0 0 4 (.wr 1))) = true := by decide +kernel
/-- CountersAndMarks: thresholds met and not, a pending trap, a slice; MARK in and out of a party. -/
theorem witness_waits :
    let zero := Instr.waitc (fl (.raw 0) (.raw 0) (.raw 0) 0)
    let one := Instr.waitc (fl (.raw 0xFFF) (.raw 0xFFF) (.raw 0xFFF) 0)
    (onceB ran zero && onceB (busy ran) zero && onceB (deferred (busy ran)) zero && (deferred ran).me.pending &&
      !ran.me.pending && sliceB sliced one && sliceB { busy sliced with cur := sliced.cur } zero &&
      (busy sliced).counter 0 0 true .ST = 1 && (busy ran).counter 0 0 false .ST = 1 &&
      onceB ran (.mark (fl none_ none_ none_ 0)) && onceB (member 1 .formed) (.mark (fl none_ none_ none_ 0x200)) &&
      (member 1 .formed).me.party = some (0, 0) &&
      ((member 1 .formed).party 0 0).members.all (fun m => (m = (0, 0) && m.2 < 16 : Bool))) = true := by decide +kernel
/-- BarriersServeTheirParty: records with INIT 0 and 1, both phases, a member that waits. -/
theorem witness_barriers :
    let m := member 1 .formed
    let one := barred m (2 ^ 48 + 2 ^ 32)
    let b := fun (c : Operand) => fl none_ (.imm 0) c 0
    let waiting := one.setMe { one.me with st := .blocked, wait := .barrier 0 false }
    (onceB m (.barinit (b (.imm 1))) && decide (barrierOf m 0 0 0 = 0) && onceB one (.barexp (b (.imm 4))) &&
      decide (Bar.init (barrierOf one 0 0 0) ≠ 0) && onceB (busy one) (.bararv (b none_)) && onceB one (.bararv (b none_)) &&
      decide (16 * 0 + 16 ≤ 256 * (one.party 0 0).scrSize) && decide (Bar.pend (barrierOf one 0 0 0) = 1) &&
      decide (Bar.due (barrierOf one 0 0 0) = 0) && !Bar.err (barrierOf one 0 0 0) &&
      decide (Bar.pend (barrierOf (barred m (2 ^ 48 + 2 ^ 33)) 0 0 0) = 2) &&
      decide (waiting.me.wait = .barrier 0 false) && decide (waiting.me.mask ≠ 0) && !waiting.me.pending &&
      onceB m (.barwait (b (.imm 0))) && onceB m (.bartest (fl (.pred 1) (.imm 0) (.imm 0) 0)) &&
      onceB one (.barwait (b (.imm 0))) && onceB one (.barwait (b (.imm 1))) && onceB (deferred one) (.barwait (b (.imm 0))) &&
      onceB one (.bartest (fl (.pred 1) (.imm 0) (.imm 0) 0)) && !Bar.phase (barrierOf one 0 0 0)) = true := by
  decide +kernel
/-- PartiesJoinAndLeave: a member already, key 0, a party found forming and formed, a count out of range, a new party, no
scratch, and a context that drains; LEAVE and PARTYQ inside and outside, with operations outstanding and none. -/
theorem witness_parties :
    let j := fun (key n : Operand) => Instr.join (fl (.s 3) key n 0)
    let busyCp := fun (s : State) => s.addOp (fl none_ none_ none_ 0) .CP .store [] [] [] []
    let two := (member 2 .formed).setParty 0 0 { (member 2 .formed).party 0 0 with scrSize := 0, members := [(0, 0), (1, 0)] }
    let o := outside .forming
    (onceB (member 1 .formed) (j (.s 1) (.imm 1)) && onceB o (j (.s 4) (.imm 1)) &&
      findParty o 0 0 7 = some (0, 0) && findParty (outside .formed) 0 0 7 = some (0, 0) && onceB o (j (.s 1) (.imm 2)) &&
      onceB o (j (.s 2) (.imm 0)) && onceB o (j (.s 2) (.imm 129)) && onceB o (j (.s 2) (.imm 0x101)) &&
      decide (o.sreg 2 = 9) && findParty o 0 0 9 = none && (o.myCtx.st = .active) &&
      ((List.range 16).find? (fun e => decide ((o.party 0 e).st = .free))) = some 1 &&
      onceB ran (.leave (fl none_ none_ none_ 0)) && onceB (member 1 .formed) (.leave (fl none_ none_ none_ 0)) &&
      onceB (busyCp (member 1 .formed)) (.leave (fl none_ none_ none_ 0)) && onceB two (.leave (fl none_ none_ none_ 0)) &&
      onceB ran (.partyq (fl (.s 1) (.imm 0) none_ 0)) && onceB (member 1 .formed) (.partyq (fl (.s 1) (.imm 1) none_ 0)) &&
      onceB (member 1 .formed) (.partyq (fl (.s 1) (.imm 3) none_ 0)) &&
      onceB two (.partyq (fl (.s 1) (.imm 2) none_ 0))) = true := by decide +kernel
theorem witness_scratch : scratchAt (outside .forming) 0 4096 4096 1 = some 17 ∧ scratchAt ran 0 0 0 1 = none := by
  constructor <;> decide +kernel
/-- A kernel with one spawn entry. -/
def spawner : State :=
  let k : Kernel := { kid := ran.me.kid, st := .running, at_ := 0, relay := false, record := 2 ^ 40, spawn := [0], shares := [],
                      sent := [], recv := [], spawned := [], pending := [], replies := [], adverts := [], wave1 := none }
  ran.setCtx 0 { ran.ctx 0 with kernels := [k] }
/-- SpawnAndTermination. -/
theorem witness_spawn :
    let sp := Instr.spawn (fl none_ (.s 4) none_ 0)
    (laneB ran sp && (ran.kernel ran.me.kid).isNone && laneB spawner sp && (spawner.kernel spawner.me.kid).isSome &&
      !spawnWaits spawner 0 spawner.me.kid 0 1 && spawnWaits
        (spawner.setCtx 0 { spawner.ctx 0 with st := .draining }) 0 spawner.me.kid 0 33 &&
      onceB ran (.termq (fl (.s 1) (.s 4) none_ 0))) = true := by decide +kernel
/-- GranulesAreGranted: nothing asked, a grant, a wait in line, a name bound and not. -/
theorem witness_granules :
    let m := member 1 .formed
    let z : ZName := { pcore := 0, pent := 0, z := 1, grans := List.range 32, hdr := 32 }
    let full := m.setCore 0 { m.core 0 with znames := [z] }
    let other := m.setCore 0 { m.core 0 with znames := [{ z with pent := 1 }] }
    let op := fun (s : State) => s.addOp (fl none_ none_ none_ 0) .MX .store [] [] [] []
    let al := fun (n : BitVec 16) => Instr.accalloc (fl (.pred 1) (.acc 2) (.imm n) 0)
    (onceB m (al 0) && onceB m (al 33) && onceB m (al 4) && onceB full (al 4) && onceB other (al 4) && onceB full (.accalloc (fl
      (.pred 1) (.acc 1) (.imm 1) 0)) && onceB m (.accfree (fl none_ (.acc 1) none_ 0)) &&
      onceB full (.accfree (fl none_ (.acc 1) none_ 0)) && !zInUse full 0 (0, 0) 1 && onceB (op full) (al 4)) = true := by
  decide +kernel


/-! ### Tiles, copies, queues, the matrix unit -/

/-- Tile 2 of one row of eight FP32 elements at 4096, in state st. -/
def tiled (s : State) (st : TileState) : State :=
  s.setTile 0 2 { Tile.zero with defined := true, base := 16, pitch := 1, fmt := 6, cols := 7, st := st }
def tword : Nat := 16 + 6 * 2 ^ 14 + 2 ^ 18 + 7 * 2 ^ 38
/-- With registers S4 to S7 holding the given values. -/
def withS (s : State) (a b c d : W64) : State :=
  s.setMe { s.me with sregs := sset 0 (sset 0 (sset 0 (sset 0 s.me.sregs 4 a) 5 b) 6 c) 7 d }
/-- A matrix operation that holds tile 2 of core 0. -/
def mxOp (kind : MxKind) (z : Nat) : MxOp :=
  { kind := kind, ty := 6, rm := 0, s := 0, k := 64, zd := z, zs := none, a := .tile 0 2, b := .none, t := none, q := 0,
    pcore := 0, pent := 0, started := false, step := 0, rounds := [], stopped := false, flags := 0 }
def holding (s : State) : State := s.addOp (fl none_ none_ none_ 0) .MX (.matrix (mxOp .mma 1)) [] [] [] []

/-- TileEntriesAndTransfers: TDEF refused, met by a tile in use, and defining one; TFREE of an undefined, a held, a filling and
an empty tile; TSTAT; TLD and TST in each state of a tile. -/
theorem witness_tile_entries :
    let m := member 1 .formed
    let d := Instr.tdef (fl (.tile 2) (.s 4) none_ 0)
    let free := Instr.tfree (fl (.tile 2) none_ none_ 0)
    let stat := fun (b : BitVec 16) => Instr.tstat (fl (.s 1) (.tile 2) (.imm b) 0)
    let good := withS m (BitVec.ofNat 64 tword) 0 0 0
    let inUse := tiled good .ready
    let ld := Instr.tld (fl (.v 0 0 0) (.tile 2) (.imm 0) 0)
    let st := Instr.tst (fl (.tile 2) (.v 0 0 0) none_ 0)
    (onceB m d && onceB good d && inSpace good (256 * 16) 32 && decide (typeBits 6 = 32) && onceB inUse d &&
      onceB m free && onceB (holding (tiled m .ready)) free &&
      tileHeld (holding (tiled m .ready)) 0 2 && !tileHeld (tiled m .ready) 0 2 && onceB (tiled m .filling) free &&
      onceB (tiled m .ready) free && onceB (tiled m .empty) free && onceB m (stat 0) && onceB (tiled m .ready) (stat 1) &&
      laneB (tiled m .ready) ld && 
      laneB (tiled m .filling) ld && laneB (tiled m .empty) ld && laneB (tiled m .empty) st &&
      laneB (tiled m .draining) st && laneB (tiled m .filling) st && !((tiled m .ready).tile 0 2).err &&
      decide (((tiled m .ready).tile 0 2).bytes = 32) && decide (m.me.width = 32) && decide (4 ≤ m.me.nregs)) = true := by
  decide +kernel
/-- CopiesStart: a barrier without a party, CPL of length 2^32, 0 and 16, CPT and CPO of a box that fits, of none and of a
wrong one, on a tile in each state. -/
theorem witness_copies :
    let m := member 1 .formed
    let cpl := fun (b : BitVec 10) => Instr.cpl (fl (.s 5) (.s 6) (.s 4) b)
    let cpt := Instr.cpt (fl (.tile 2) (.s 8) (.s 4) 0x200)
    let cpo := Instr.cpo (fl (.tile 2) (.s 8) (.s 4) 0)
    let box := withS m 0x10008 0 0x10001 0
    let t := tiled box
    let none_ := tiled (withS m 0 0 0 0)
    let wrong := tiled (withS m 0x10009 0 0x10001 0)
    (onceB ran (cpl 0x200) && ran.me.party.isNone && onceB (tiled ran .ready) (.cpt (fl (.tile 2) (.s 8) (.s 4) 0x200)) &&
      onceB (withS m (2 ^ 32) 0 0 0) (cpl 0x200) && decide (16 * 0 + 16 ≤ 256 * (m.party 0 0).scrSize) && onceB m (cpl 0) &&
      onceB (withS m 16 0 0 0) (cpl 0x200) && onceB (t .draining) cpt && onceB (t .filling) cpt && onceB (t .ready) cpt &&
      onceB (wrong .empty) cpt && onceB (none_ .empty) cpt && onceB (t .empty) cpt && !tileHeld (t .empty) 0 2 &&
      decide ((box.boxRegs 4).1 = [8, 1, 1, 1]) && decide (((wrong .empty).boxRegs 4).1 = [9, 1, 1, 1]) &&
      decide (((none_ .empty).boxRegs 4).1 = [0, 0, 0, 0]) && decide ((box.sreg 8).toNat % (typeBits 6 / 8) = 0) &&
      onceB (t .empty) cpo && onceB (t .filling) cpo && onceB (t .draining) cpo && onceB (t .ready) cpo &&
      onceB (none_ .ready) cpo && onceB (wrong .ready) cpo) = true := by decide +kernel
/-- The same agent with other S registers 4 and 5 and other loops of its slice. -/
def sliceS (s : State) (a b : W64) (l : List LoopEntry) : State :=
  s.setMe { s.me with slice := { s.me.slice with sregs := sset 0 (sset 0 s.me.slice.sregs 4 a) 5 b, loops := l } }
/-- QueuesAndAccessLoops: CPQ of no entry, misaligned, of a closed, an empty and a full queue; QCLOSE, QSTAT, QPUSH; AFOR with
no iteration, with room and none; AEND of no, an inner and a last iteration; AWAIT met, not met and of an undefined tile. -/
theorem witness_queue_and_loops :
    let q := fun (n : Nat) (c : Bool) (cnt base : W64) => sliceS (queued n c) cnt base []
    let cpq := Instr.cpq (fl (.queue 0) (.s 5) (.s 4) 0)
    let car := fun (s : State) => { s with cur := { s.cur with slice := false } }
    let e : LoopEntry := { pc := 0, cnt := 2, a := 4, i := 5 }
    let afor := Instr.afor (fl (.s 4) (.s 4) (.s 5) 1)
    let aend := Instr.aend (fl none_ none_ none_ 0)
    let await := Instr.await (fl (.tile 2) (.imm 2) none_ 0)
    (sliceB (q 0 false 0 0) cpq && sliceB (q 0 false 1 2) cpq && sliceB (q 0 true 1 0) cpq && sliceB (q 0 false 2 0) cpq &&
      sliceB (q 4 false 2 0) cpq && (q 4 false 2 0).openCpq.isNone && decide ((q 4 false 2 0).me.qdepth = 4) &&
      (q 0 false 2 0).ops.isEmpty && decide (0 < (q 0 false 2 0).me.queues.length) && onceB (car (queued 1 false)) (.qclose (fl
        (.queue 0) none_ none_ 0)) && onceB (car (queued 0 true)) (.qclose (fl (.queue 0) none_ none_ 0)) &&
      onceB (car (queued 2 true)) (.qstat (fl (.s 1) (.queue 0) none_ 0)) &&
      sliceB (q 0 true 1 0) (.qpush (fl (.queue 0) (.s 4) (.s 5) 0)) && sliceB (q 4 false 1 0) (.qpush (fl (.queue 0) (.s 4) (.s 5) 0)) &&
      sliceB (q 0 false 1 0) (.qpush (fl (.queue 0) (.s 4) (.s 5) 0)) && sliceB sliced afor && sliceB (sliceS sliced 3 1 []) afor &&
      sliceB (sliceS sliced 3 1 [e, e, e, e]) afor && sliceB sliced aend && sliceB (sliceS sliced 3 1 [e]) aend &&
      sliceB (sliceS sliced 3 1 [{ e with cnt := 1 }]) aend && sliceB sliced await && sliceB (tiled sliced .filling) await &&
      sliceB (tiled sliced .ready) await && !(sliced.tile 0 2).defined) = true := by decide +kernel

/-- The caravan in a party with names 1 (one granule), 2 (five) and 3 (four) bound, all lanes active, tiles 2 (64 by 32), 3
(32 by 64), 4 (64 by 64) and 5 (2 by 64) of type ty in state st. -/
def matrixed (ty : Nat) (st : TileState) : State :=
  let m := member 1 .formed
  let z : ZName := { pcore := 0, pent := 0, z := 1, grans := [0], hdr := 1 }
  let s := m.setCore 0 { m.core 0 with
    znames := [z, { z with z := 2, grans := [1, 2, 3, 4, 5] }, { z with z := 3, grans := [6, 7, 8, 9] }] }
  let t : Tile := { Tile.zero with defined := true, base := 16, pitch := 4, fmt := ty, rows := 63, cols := 31, st := st }
  let all := maskWhere m.me.width (fun _ => true)
  (((((s.setMe { s.me with mask := all, exist := all }).setTile 0 2 t).setTile 0 3 { t with rows := 31, cols := 63 }).setTile 0 4
    { t with cols := 63 })).setTile 0 5 { t with rows := 1, cols := 63, fmt := 13 }
def m32 : BitVec 10 := 4 * 6
/-- One instruction of each kind, with operands that its tiles fit (8-bit integers for MMA, MMAS and MMX). -/
def mx (n : Nat) : Instr :=
  match n with
  | 0 => .mma (fl (.acc 1) (.tile 2) (.tile 3) (4 * 1))
  | 1 => .mmas (fl (.acc 1) (.tile 2) (.tile 3) (4 * 1))
  | 2 => .mmx (fl (.acc 3) (.tile 2) (.tile 3) (4 * 2))
  | 3 => .msca (fl (.acc 1) (.acc 3) (.tile 5) 0)
  | 4 => .msl (fl (.acc 2) (.tile 2) (.tile 3) 0x102)
  | 5 => .mzero (fl (.acc 1) none_ none_ m32)
  | 6 => .mlda (fl (.acc 1) (.tile 4) none_ m32)
  | _ => .mcvt (fl (.tile 4) (.acc 1) none_ m32)
def plans (ty : Nat) (st : TileState) (n : Nat) : Bool :=
  let s := matrixed ty st
  onceB s (mx n) && match mxPlan s (mx n) with
    | none => false
    | some m => !mxOutstanding s 0 0 && (mxWants s 0 m).all (fun w => !mxBadTile s w && !(s.tile w.1 w.2.1).err &&
        decide ((s.tile w.1 w.2.1).st = st))
/-- MatrixOperationsIssue: lanes that have diverged, names that are not bound, each instruction with its tiles ready and
filling, tiles that are not allowed, an MMA outstanding, and MCVT to a tile in each state. -/
theorem witness_matrix_issue :
    (plans 1 .ready 0 && plans 2 .ready 2 && plans 1 .ready 3 && plans 6 .ready 4 && plans 1 .ready 5 && plans 6 .ready 6 &&
      plans 1 .filling 0 && plans 2 .filling 2 && plans 1 .filling 3 && plans 6 .filling 4 && plans 6 .draining 6) = true := by
  decide +kernel
theorem witness_matrix_stops :
    ((List.range 8).all (fun n => onceB (member 1 .formed) (mx n) && (mxPlan (member 1 .formed) (mx n)).isNone) &&
      !(member 1 .formed).me.mask.getLsbD 1 && (List.range 8).all (fun n =>
        let s := matrixed 6 .ready
        let t := s.setCore 0 { s.core 0 with znames := [] }
        onceB t (mx n) && (mxPlan t (mx n)).isNone) && (match mxPlan (matrixed 6 .ready) (mx 0) with
        | none => false
        | some m => (mxWants (matrixed 6 .ready) 0 m).any (mxBadTile (matrixed 6 .ready)) &&
          mxOutstanding ((matrixed 6 .ready).addOp (fl none_ none_ none_ 0) .MX (.matrix m) [] [] [] []) 0 0)) = true := by
  decide +kernel
theorem witness_mcvt :
    (([.empty, .filling, .ready, .draining] : List TileState).all (fun st =>
      let s := matrixed 6 st
      onceB s (mx 7) && (mxPlan s (mx 7)).isSome && !mxOutstanding s 0 0 && decide ((s.tile 0 4).rows = 63 ∧ (s.tile 0 4).cols = 63)) &&
      !((matrixed 6 .ready).setTile 0 4 Tile.zero |>.tile 0 4).defined &&
      onceB (matrixed 6 .ready) (.mstat (fl (.s 1) (.acc 2) none_ 0)) &&
      (zName (matrixed 6 .ready) 0 (0, 0) 2).isSome && onceB ran (.mstat (fl (.s 1) (.acc 2) none_ 0)) &&
      (mxPlan (matrixed 6 .ready) (.msl (fl (.acc 2) (.tile 2) (.tile 3) 0x105))).isNone &&
      (mxPlan (matrixed 6 .ready) (.msca (fl (.acc 3) (.acc 3) (.tile 5) 0))).isNone) = true := by decide +kernel
/-- A state whose only operation is an issued matrix instruction of name 1. -/
def sequenced (kind : MxKind) (g : MxOp → MxOp) : State :=
  let m : MxOp := { kind := kind, ty := 6, rm := 0, s := 2, k := 32, zd := 1, zs := none, a := .none, b := .none, t := none,
                    q := 0, pcore := 0, pent := 0, started := false, step := 0, rounds := [], stopped := false, flags := 0 }
  let s := matrixed 6 .ready
  s.addOp (fl none_ none_ none_ 0) .MX (.matrix (g m)) [] [] [] []
def opIs (s : State) (p : Op → Bool) : Bool :=
  match s.op (matrixed 6 .ready).nextOp with
  | some o => !o.done && o.held.isEmpty && o.remote.isEmpty && p o
  | none => false
def saving (s : State) : State := s.setCtx 0 { s.ctx 0 with st := .saving }
/-- MatrixSequencing: an operation that may start, one that may not, MZERO started, an MMA stopped while SAVING, and a round
of a set that only its own core is in; MatrixAccumulates: granules of a name; SlicedSumsRoundOnce: specials and finite sums. -/
theorem witness_matrix_sequence :
    let id_ := fun (x : MxOp) => x
    (opIs (sequenced .mma id_) (fun o => mxMayStart (sequenced .mma id_) o) &&
      (zName (sequenced .mma id_) 0 (0, 0) 1).isSome && opIs (sequenced .mzero (fun x => { x with started := true })) (fun o =>
        !mxMayStart (sequenced .mzero (fun x => { x with started := true })) o) &&
      opIs (saving (sequenced .mma id_)) (fun _ => true) && decide (((saving (sequenced .mma id_)).ctx 0).st = .saving) &&
      MxKind.mma.stops && !MxKind.mzero.stops &&
      opIs (sequenced .mma (fun x => { x with rounds := [(1, 0, 2)] })) (fun o => o.core = 0) &&
      (sequenced .mma id_).ops.length = 1) = true := by decide +kernel
theorem witness_matrix_values :
    ((match ((sequenced .mmx id).op (matrixed 6 .ready).nextOp).bind (·.mx) with
      | some m => decide (granulesOf (sequenced .mmx id) 0 m 3 = [6, 7, 8, 9] ∧ granulesOf (sequenced .mmx id) 0 m 1 = [0])
      | none => false) && decide (1 / 2 ^ 0 % 4 ≠ 1 / 2 ^ 2 % 4) && decide (2 * (3 : Int).natAbs ≤ 2 ^ 3) &&
      decide (decodeFp fp32 0x7FC00000 = .nan false) && decide (decodeFp fp32 0x7F800000 = .inf false) &&
      (match decodeFp fp32 0x3F800000 with
      | .fin _ _ _ => true
      | _ => false)) = true := by decide +kernel

/-! ### The fabric, channel modes and executors -/

/-- A tile of 256 bytes in state st, number n. -/
def wide (s : State) (n : Nat) (st : TileState) : State :=
  s.setTile 0 n { Tile.zero with defined := true, base := 16, pitch := 8, fmt := 6, cols := 31, st := st }
/-- The endpoint 0 of context 0. -/
def endpoint (s : State) (x : Comm) : State :=
  (s.setComm 0 0 x).setCtx 0 { s.ctx 0 with relayq := 0x40000 }
def open0 : Comm := { Comm.zero with read := true, on := true, size := 2, st := .active }
/-- RemoteAccessesAndBlocks: a node word that names no node and one that does; accesses free, and behind a release; RST.BLK of a
tile in each state, of a whole and a broken number of blocks, on both classes. -/
theorem witness_remote :
    let n := withS ran 0x10005 0 0 0
    let b := fun (st : TileState) (k : BitVec 10) => (wide n 2 st, Instr.rstBlk (fl (.tile 2) (.s 4) (.s 8) (0x200 + k)))
    (laneB ran (.rld (fl none_ (.s 4) none_ 2)) && laneB ran (.rst (fl none_ (.s 4) none_ 2)) && laneB ran (.ratom (fl none_ (.s 4) none_ 0)) &&
      onceB ran (.rstBlk (fl (.tile 2) (.s 4) (.s 8) 0x200)) && laneB n (.rld (fl none_ (.s 4) none_ 2)) &&
      laneB n (.rst (fl none_ (.s 4) none_ 2)) && laneB n (.ratom (fl none_ (.s 4) none_ 0)) &&
      laneB (busy n) (.ratom (fl none_ (.s 4) none_ 0x200)) && (busy n).memPending &&
      (n.src64 false none_ 0 == 0) && (([.empty, .filling, .draining, .ready] : List TileState).all (fun st =>
        onceB (b st 0).1 (b st 0).2)) && onceB (b .ready 0x100).1 (b .ready 0x100).2 &&
      decide (((b .ready 0).1.tile 0 2).bytes = 256) && !tileHeld (b .ready 0).1 0 2 &&
      onceB (tiled n .ready) (.rstBlk (fl (.tile 2) (.s 4) (.s 8) 0x200)) && decide (((tiled n .ready).tile 0 2).bytes % 256 ≠ 0)) =
      true := by decide +kernel
/-- CollectivesAndGangs: COLL outside a party, with a word that is not allowed, on a disabled endpoint, with another instance and as the
first member; COLL.DONE of no instance and of an open one; GANGQ granted, refused and waiting; GANGACK with and without an
instance; VMASK, VRSC and MSV. -/
theorem witness_collectives :
    let m := withS (member 2 .formed) 0 1 0 0
    let p := fun (s : State) => s.setParty 0 0 { s.party 0 0 with members := [(0, 0), (0, 1)], joined := 2 }
    let coll := Instr.coll (fl (.tile 2) (.s 4) (.imm 0) 0)
    let e := endpoint (p m) open0
    let inst : Instance := { inst := 0, core := 0, tile := 2, bcore := 0, bent := 0, made := 0, bar := 0, chunk := 0, posted := true, localDone := false,
                             peers := [] }
    let fin := Instr.collDone (fl none_ (.s 4) none_ 0x200)
    let pausing := { open0 with st := .pausing, cstar := 2, insts := [inst] }
    let gq := fun (x : Comm) (n : W64) => (endpoint (withS ran 0 n 0 0) x, Instr.gangq (fl (.s 1) (.s 4) (.s 5) 0))
    let ga := fun (x : Comm) => (endpoint ran x, Instr.gangack (fl none_ (.s 4) none_ 0))
    (onceB ran coll && ran.me.party.isNone && onceB (endpoint (p (withS m 64 1 0 0)) open0) coll && onceB e coll && e.openColl.isNone &&
      onceB (endpoint (p m) { open0 with on := false }) coll && onceB (endpoint (p m) { open0 with next := 5 }) coll &&
      decide (e.myCtx.relayq ≠ 0) && (e.comm 0 0).on && decide ((e.party 0 0).joined ≠ 1) && (e.party 0 0).coll.isNone && e.ops.isEmpty &&
      onceB (endpoint (withS ran 0 (2 ^ 26) 0 0) open0) fin && onceB (endpoint (withS ran 0 (2 * 2 ^ 26) 0 0) { open0 with insts := [inst] }) fin &&
      decide (((2 * 2 ^ 26 + 0) * 2 ^ 64) / 2 ^ 90 % 2 ^ 7 = 2) &&
      onceB (endpoint (withS ran 64 0 0 0) open0) (.gangq (fl (.s 1) (.s 4) (.s 5) 0)) &&
      onceB (endpoint (withS ran 64 0 0 0) open0) (.gangack (fl none_ (.s 4) none_ 0)) &&
      onceB (gq { open0 with on := false } 0).1 (gq open0 0).2 && onceB (gq open0 7).1 (gq open0 0).2 && onceB (gq pausing 3).1 (gq open0 0).2 &&
      onceB (gq { open0 with permit := some 3 } 4).1 (gq open0 0).2 && onceB (gq { open0 with permit := some 3 } 3).1 (gq open0 0).2 &&
      onceB (ga open0).1 (ga open0).2 && onceB (ga pausing).1 (ga open0).2 && onceB (ga { pausing with on := false }).1 (ga open0).2 &&
      laneB ran (.vmask (fl (.pred 1) none_ (.s 4) 0)) && laneB ran (.vrsc (fl none_ none_ (.s 4) 0)) &&
      laneB ran (.msv (fl none_ none_ (.pred 1) 0))) = true := by decide +kernel
/-- ChunksAreReduced: tiles that are not of one shape, Ta filling, a BROKEN and an ACTIVE endpoint. -/
theorem witness_chunks :
    let rred := Instr.rred (fl (.tile 3) (.tile 2) (.s 4) (2 * 6))
    let t := fun (a : TileState) (x : Comm) => endpoint (wide (wide ran 2 a) 3 .empty) x
    (onceB (t .ready open0) rred && onceB (wide (wide ran 2 .ready) 3 .ready) rred && onceB (t .filling open0) rred &&
      onceB (t .ready { open0 with st := .broken }) rred && !tileHeld (t .ready open0) 0 2 &&
      decide (((t .ready open0).tile 0 2).bytes = 256) && (t .ready open0).ops.isEmpty && !((t .ready open0).tile 0 2).err &&
      decide (typeBits 6 = 32)) = true := by decide +kernel

/-- Channel 0 in a mode, with the caravan's context as its owner. -/
def moded (s : State) (m : ChMode) (steps : Nat) : State :=
  let ch := chanHash 0
  s.setChan ch { s.chan ch with mode := m, owner := 0, steps := steps }
/-- ModeWordsMoveAChannel: no privilege, a place that is no channel, each mode, and words right and wrong. -/
theorem witness_mode_words :
    let w := fun (x : W64) => withS ran 0 x 0 0
    let x1 := fun (i : Fields → Instr) => i (fl (.s 1) (.s 4) (.s 5) 0)
    ((([.xmodeStep1, .xmodeStep2, .xmodeStep3, .xmodeExit, .xmodeOtherWord] : List (Fields → Instr)).all (fun i =>
      onceB (w 0) (x1 i) && onceB (moded (w 0x3A710000) .normal 0) (x1 i) && onceB (moded (w 0x5C920000) .arming 1) (x1 i) &&
      onceB (moded (w 0x7EB30000) .arming 2) (x1 i) && onceB (moded (w 0x9D040000) .compute 0) (x1 i) &&
      onceB (moded (w 1) .arming 1) (x1 i) && onceB (moded (w 1) .exiting 0) (x1 i) &&
      onceB (withS ran (2 ^ 57) 0 0 0) (x1 i))) && (w 0).myCtx.priv &&
      decide (deepScope (w 0) 0 0 false ((w 0).sreg 4) = some (chanHash 0, none)) &&
      (deepScope (withS ran (2 ^ 57) 0 0 0) 0 0 false (2 ^ 57)).isNone) = true := by decide +kernel
theorem witness_mode_unprivileged :
    let s := ran.setCtx 0 { ran.ctx 0 with priv := false }
    (!s.myCtx.priv && onceB s (.xmodeStep1 (fl (.s 1) (.s 4) (.s 5) 0)) && onceB s (.xreset (fl none_ (.s 4) none_ 0))) = true := by
  decide +kernel
/-- BankCommandsQueue: the owner's commands and another's. -/
theorem witness_bank_commands :
    let bank : W64 := 0x1EB * 2 ^ 48 + 2 ^ 25 * 3
    let at_ := fun (s : State) (x : W64) => s.setMe { s.me with sregs := sset 0 s.me.sregs 4 x }
    let own := fun (x : W64) => (at_ stored x).setChan 0 { stored.chan 0 with mode := .compute }
    let ch : W64 := 0x1EB * 2 ^ 48
    ((([stored, own 0] : List State).all (fun s => onceB (at_ s ch) (.xcol (fl none_ (.s 4) (.s 8) 0)) &&
        onceB (at_ s bank) (.xread (fl (.s 8) (.s 4) none_ 0)) && onceB (at_ s bank) (.xstat (fl (.s 1) (.s 4) none_ 0)) &&
        onceB (at_ s bank) (.xreset (fl none_ (.s 4) none_ 0)) && onceB (at_ s bank) (.xprog (fl (.s 4) (.s 8) (.imm 1) 0)) &&
        onceB (at_ s bank) (.xprog (fl (.s 4) (.s 8) (.imm 0) 0)))) && decide (((own 0).chan 0).mode = .compute) &&
      decide (deepScope (own ch) 0 0 true bank = some (0, some 3)) && !(own ch).me.relDue && !(own ch).heldBack (own ch).cur (own ch).nextOp &&
      decide (deepScope (own ch) 0 0 false bank = some (0, none)) &&
      !(own ch).behindMark (own ch).cur (own ch).nextOp && (own ch).ops.isEmpty && ((own ch).chan 0).cmds.isEmpty &&
      (let a := serve (own bank) ((own bank).user (own bank).nextOp) true [] [[mkReq 0 0 4 .rd]]
       a.causes.isEmpty && a.parks.isEmpty && a.todo.isEmpty && a.remote.isEmpty && decide (a.vals.length = 1) &&
         !a.s.heldBack (own bank).cur a.s.nextOp && !a.s.behindMark (own bank).cur a.s.nextOp && decide (a.s.cur = (own bank).cur) &&
         decide (a.s.me = (own bank).me) && a.s.ops.isEmpty && (a.s.chan 0).cmds.isEmpty)) = true := by decide +kernel
/-- ExecutorResults and ExecutorMovesRows: well-formed and ill-formed words; a row read, a row of another home, an absent row. -/
def rowed (pte : Nat) : State :=
  let s := State.reset
  let e : TlbEnt := { asid := (s.ctx 0).asid, vpn := 0x1EB * 2 ^ 36, size := 12, pte := BitVec.ofNat 64 pte, entry := 0 }
  { s.setChan 0 { s.chan 0 with mode := .compute, tlb := [e] } with
    dev := { s.dev with keys := sset KeySlot.empty s.dev.keys 0 { KeySlot.empty with full := true } },
    ctxs := sset (State.reset.ctx 0) s.ctxs 0 { s.ctx 0 with kbase := 0, kcount := 1 } }
def pageAbsent : State :=
  let s := State.reset
  s.setDie (dieOfChannel (chanHash (tableVa 0 0x1EB))) { s.die 0 with
    l2 := [{ codeLine (s.ctx 0).asid 0 with tag := tableVa 0 0x1EB / 128, data := 8 <<< (8 * (tableVa 0 0x1EB % 128)) }] }
theorem witness_executor_words :
    (legal .execNop && legal (.setk 1 7) && legal (.setm 3 7) && legal (.shk 1 3) && legal (.cmp 1) && legal (.wr 0) && legal (.tcnt 1 3) &&
      legal (.xout 8) && legal (.xin 3 8) && !legal (.setk 2 0xFFFF) && !legal (.xout 255) && !legal (.execRel 3) &&
      legal (.execRel 2) && legal (.execFence 0) && legal (.execAcq 1)) = true := by decide +kernel
theorem witness_executor_rows :
    let ok := rowed (0x23 + 2 ^ 8 + 2 ^ 13)
    let from_ := fun (u : State) => ({ ctx := (u.chan 0).owner, asid := (u.ctx (u.chan 0).owner).asid.toNat, va := rowVa 0 0 } : Origin)
    ((match ok.rowLeaf 0 true with
      | (u, some l) => u.bank == ok.bank && (match u.rowRead (from_ u) (Flat.dram 0 (rowVa ok.bank 0 % 2 ^ 31)) l with
        | (v, some _) => v.bank == ok.bank
        | _ => false)
      | _ => false) &&
      (match (rowed 0x23).translate 0 0 (rowVa 0 0) none with
      | (u, .leaf l) => u.bank == 0 && l.home != 1
      | _ => false) &&
      (match pageAbsent.translate 0 0 (rowVa 0 0) none with
      | (u, .absent true _) => u.bank == 0
      | _ => false) && decide ((pageAbsent.chan 0).owner = 0) && decide (pageAbsent.bank = 0) &&
      (pageAbsent.rowLeaf 0 true).2.isNone) = true := by decide +kernel
/-- AdvanceTakesACommand: each command at the head of a channel that takes one, and a channel that does not. -/
def commanded (cmd : BankCmd) (m : ChMode) : State :=
  let s := ran.addOp (fl none_ none_ none_ 0) .BX (.bank 0 cmd false) [] [] [] [7]
  s.setChan 0 { s.chan 0 with mode := m, cmds := [ran.nextOp] }
theorem witness_advance :
    ((([.xprog 1, .xcol 9, .xread 4 3] : List BankCmd).all (fun c => (commanded c .compute).advOpen.isNone &&
      (match (commanded c .compute).op ran.nextOp with
        | some o => decide (o.kind = .bank 0 c false) && o.id == ran.nextOp
        | none => false))) && decide (((commanded (.xcol 9) .suspended).chan 0).mode = .suspended)) = true := by decide +kernel

/-! ### Control registers, contexts, handlers -/

/-- A line of context 0 with the given data in its home L2. -/
def homed (s : State) (tag : Nat) (x : Nat) : State :=
  let d := dieOfChannel (chanHash (128 * tag))
  let l := { codeLine 0 0 with tag := tag, w := true, data := BitVec.ofNat 1024 x, chan := chanHash (128 * tag) }
  s.setDie d { s.die d with l2 := (s.die d).l2 ++ [l] }
/-- Lines of context 0 in L1 of core 0. -/
def lined (s : State) (tags : List Nat) : State :=
  s.setCore 0 { s.core 0 with l1 := (s.core 0).l1 ++ tags.map (fun n => { codeLine 0 0 with tag := n, w := true }) }
/-- ControlRegistersAndLaunches: every register read, every register written with and without privilege, a write in progress. -/
theorem witness_registers :
    let user := ran.setCtx 0 { ran.ctx 0 with priv := false }
    (([0x01, 0x02, 0x03, 0x04, 0x05, 0x06, 0x11, 0x08, 0x21, 0x34, 0x30, 0x31, 0x32, 0x33, 0x35, 0x36, 0x37, 0x20] : List (BitVec 12)).all
        (fun n => onceB ran (.csrr (fl (.s 1) (.csr n) none_ 0))) && decide (ran.me.ctx < 256) &&
      ([0x04, 0x06, 0x11, 0x31, 0x32, 0x33, 0x35, 0x36, 0x37] : List (BitVec 12)).all (fun n =>
        onceB ran (.csrw (fl (.csr n) (.s 4) none_ 0)) && onceB user (.csrw (fl (.csr n) (.s 4) none_ 0))) &&
      !user.myCtx.priv && ran.myCtx.priv &&
      decide (((ran.setCtx 0 { ran.ctx 0 with csrws := [(0x11, 4, 0, 0)] }).ctx 0).csrws = [(0x11, 4, 0, 0)])) = true := by
  decide +kernel
/-- LAUNCH with its ring full and with room, EVPOST, ENERGYQ. -/
def ringed (cons : Nat) : State :=
  let s := lined (homed (homed (homed (withS ran 0 0 0 0) 8 (1 + cons * 2 ^ 64)) 32 0) 33 0) [1]
  let s := s.setCore 0 { s.core 0 with l1 := { codeLine 0 0 with w := true } :: (s.core 0).l1 }
  s.setCtx 0 { s.ctx 0 with queues := [(0, { LaunchQ.zero with on := true, base := 0x1000, log2n := 0, prodVa := 0x400, consVa := 0x408 })] }
/-- The accesses of a LAUNCH pass, the release before them with nothing left to write to other nodes. -/
def launchReads (s : State) (full : Bool) : Bool :=
  let f := fl (.s 1) (.s 4) (.s 5) 0
  let q := sget LaunchQ.zero s.myCtx.queues 0
  let u := s.release 5 none
  let lu := u.launchUser
  !fabricPending u s.me.ctx && match u.pieces lu (.home true) q.consVa.toNat 8 1 with
  | (s1, .inl cons) => match s1.pieces lu (.home true) q.prodVa.toNat 8 1 with
    | (s2, .inl idx) => decide (s2.me = s.me) && decide (s2.cur = s.cur) && decide (s2.want = .nothing) && decide (idx < 2 ^ 64) &&
      decide (cons < 2 ^ 64) &&
      decide (2 ^ q.log2n ≤ (idx + 2 ^ 64 - cons) % 2 ^ 64) == full && (full || match s2.pieces lu .plain 0 16 16 with
        | (s3, .inl r) => match s3.launchCheck (q.base.toNat + 256 * (idx % 2 ^ q.log2n)) 16 with
          | (s4, none) => match s4.launchCheck q.prodVa.toNat 8 with
            | (s5, none) => decide ((s5.launchNow f 0 q idx r false).want = .nothing)
            | _ => false
          | _ => false
        | _ => false)
    | _ => false
  | _ => false
/-- The two writes pass. -/
def launchWrites (s : State) : Bool :=
  let q := sget LaunchQ.zero s.myCtx.queues 0
  match s.putPieces s.launchUser (.home true) (q.base.toNat + 256 * (1 % 2 ^ q.log2n)) 16 16 7 with
  | (t, none) => match t.putPieces s.launchUser (.home true) q.prodVa.toNat 8 1 2 with
    | (v, none) => decide (v.me = s.me) && decide (v.cur = s.cur) && !s.cur.slice
    | _ => false
  | _ => false
theorem witness_launches :
    let l := Instr.launch (fl (.s 1) (.s 4) (.s 5) 0)
    let user := ran.setCtx 0 { ran.ctx 0 with priv := false }
    (onceB (ringed 0) l && onceB (ringed 1) l && launchReads (ringed 0) true && launchReads (ringed 1) false && launchWrites (ringed 1) && onceB ran l &&
      onceB (busy (ringed 1)) l && (busy (ringed 1)).memPending && !(ringed 1).memPending &&
      onceB user (.launch (fl (.s 1) (.s 4) (.s 5) 0x200)) && onceB ran (.evpost (fl none_ (.s 4) (.s 5) 0)) &&
      onceB (busy ran) (.evpost (fl none_ (.s 4) (.s 5) 0)) && onceB user (.energyq (fl (.s 1) (.imm 3) none_ 0)) &&
      ([3, 8, 9, 10] : List (BitVec 16)).all (fun n => onceB ran (.energyq (fl (.s 1) (.imm n) none_ 0))) &&
      decide (3 < ran.dev.energy.length)) = true := by decide +kernel
/-- A caravan in its handler with lanes 0 and 1, one deferred. -/
def trapped : State :=
  ranWith (fun c => { c with exist := 7, mask := 7, st := .trapped, trap := { c.trap with taken := true, tmask := 3, dmask := 4, depth := 0 } })
def parkOf (w : ParkWhat) : Park := { id := 9, srckind := 2, srcid := 5, ctx := 0, core := 0, cslot := 0, what := w }
def parkedWith (w : ParkWhat) (st : CvState) : State := { ranWith (fun c => { c with st := st }) with parks := [parkOf w] }
/-- HandlersAndParks: RESUME and KILL in and outside a handler, REPLAY refused, malformed, behind a release and of nothing; a park of each kind and
none; TLBINV refused, malformed, of no page and of some. -/
theorem witness_handlers :
    let r := Instr.resume (fl none_ (.s 4) none_ 0)
    let k := Instr.kill (fl none_ none_ none_ 0)
    let rp := Instr.replay (fl (.s 1) (.s 4) (.s 5) 0)
    let tl := Instr.tlbinv (fl none_ (.s 4) (.s 5) 0)
    let user := fun (s : State) => s.setCtx 0 { s.ctx 0 with priv := false }
    (onceB ran r && onceB ran k && onceB trapped r && onceB trapped k && trapped.me.trap.taken && decide (trapped.me.trap.tmask ≠ 0) &&
      decide (trapped.me.mask &&& ~~~(maskWhere 32 (fun L => trapped.src32 .int false none_ L ≠ 0) &&& trapped.me.exist) ≠ 0) &&
      onceB (user ran) rp && onceB (withS ran (2 ^ 28) 0 0 0) rp && onceB (busy ran) rp && onceB ran rp && ran.parks.isEmpty &&
      (ran.release 5 none).parks.isEmpty && onceB (user ran) tl && onceB (withS ran 0 (2 ^ 32) 0 0) tl && onceB ran tl &&
      onceB (withS ran 0 1 0 0) tl && decide ((ran.ctx 0).st ≠ .free ∧ (ran.ctx 0).st ≠ .saving ∧ (ran.ctx 0).st ≠ .saved) &&
      (([.executor 3, .copy 0, .sliceReissue, .queue 1, .reissue] : List ParkWhat).all (fun w =>
        ((parkedWith w .parked).parks.find? (fun p => p.ctx = 0 && p.srckind = 2 && p.srcid = 5 && p.id = 9)) == some (parkOf w))) &&
      decide ((parkedWith .reissue .parked).me.st = .parked) && decide ((parkedWith .reissue .parked).me.mask ≠ 0) &&
      !(parkedWith .reissue .parked).me.pending && decide (ran.me.stall = .none)) = true := by decide +kernel
/-- Context 3 in a state. -/
def other (st : CtxState) : State := ran.setCtx 3 { Context.free with st := st, asid := 7, kbase := 8, kcount := 1, d2 := 1 }
/-- ContextsMove: each operation issued with privilege and without, behind a release, of an id that is too large and one that is not; context 3 in every state; a
descriptor read, well formed and not. -/
theorem witness_contexts :
    let ops : List Instr := [.ctxopCreate (fl (.s 1) (.s 4) (.s 5) 0), .ctxopActivate (fl (.s 1) (.s 4) (.s 5) 1), .ctxopPreempt (fl (.s 1) (.s 4) (.s 5) 2),
      .ctxopRestore (fl (.s 1) (.s 4) (.s 5) 3), .ctxopReset (fl (.s 1) (.s 4) (.s 5) 4), .ctxopDestroy (fl (.s 1) (.s 4) (.s 5) 5),
      .ctxopQuery (fl (.s 1) (.s 4) (.s 5) 6), .ctxopModify (fl (.s 1) (.s 4) (.s 5) 7)]
    let user := ran.setCtx 0 { ran.ctx 0 with priv := false }
    (ops.all (fun i => onceB ran i && onceB user i && onceB (busy ran) i && onceB (withS ran 256 0 0 0) i) &&
      (let u := ran.release 4 none
       let t := u.ctxop (u.user devOp) .query 0 0 false
       decide (t.1.me = ran.me) && decide (t.1.cur = ran.cur)) &&
      (([.free, .created, .active, .draining, .saving, .saved, .resetting, .dead] : List CtxState).all (fun st =>
        decide (((other st).ctx 3).st = st))) && !((other .saved).ctx 3).restoring &&
      ((other .dead).keySlot 8).full == false) = true := by decide +kernel
theorem witness_descriptor :
    let good := 9 + 40 * 2 ^ 24 + 2 ^ 36
    let read := fun (x : Nat) => match (homed ran 8 x).readDesc (ran.user devOp) 1024 with
      | (t, some y) => y == x && (x = 0 || baseFree t y)
      | _ => false
    (read good && read 0 && !descBad good && descBad 0) = true := by decide +kernel

/-! ### Inputs and the device's own steps -/

def dev (g : Device → Device) : State := { ran with dev := g ran.dev }
/-- BringUpAndPower: the device after each step and in FAILSAFE, a port that is not DOWN; dies of one clock; a session with and without all measurements. -/
theorem witness_bring_up :
    let sp := fun (m : BitVec 6) =>
      ({ versioned := true, capable := true, negotiated := true, exchanged := true, session := true, measured := m } : Spdm)
    let at_ := fun (n : Nat) => dev (fun d => { d with step := n, failsafe := false })
    let f := dev (fun d => { d with failsafe := true })
    let up := (at_ 4).setPort 1 { (at_ 4).port 1 with st := .training }
    let session := fun (m : BitVec 6) => dev (fun d => { d with step := 6, measured := some 0, spdm := sp m })
    (((List.range 7).all (fun n => (at_ n).dev.step == n && !(at_ n).dev.failsafe)) && f.dev.failsafe &&
      up.fab.ports.any (fun p => decide (p.2.st ≠ .down)) && (List.range 8).all (fun n => (ran.die n).mhz == (ran.die 0).mhz) &&
      (session 0x3F).dev.spdm.session && decide ((session 0x3F).dev.spdm.measured = 0x3F) && !ran.dev.spdm.versioned &&
      !ran.dev.spdm.negotiated && !ran.dev.spdm.session && ran.dev.admitted.isEmpty && decide (ran.dev.fuse ≤ 3) &&
      decide ((dev (fun d => { d with fuse := 5 })).dev.fuse > 3) && !(ran.dev.admitted.contains 9) &&
      decide ((dev (fun d => { d with admitted := [1, 2, 3, 4] })).dev.admitted.length = 4)) = true := by decide +kernel
/-- A port of each state; a request that is refused, performed and held; an access of another node in flight; an extent of each state; an
endpoint of each state. -/
def linked (st : LinkState) (n : Nat) : State := ran.setPort 3 { ran.port 3 with st := st, attempts := n }
def remoteReq : RemoteReq := { node := 5, sctx := 0, tctx := 0, va := 0, kind := .rd, size := 4, data := 0 }
def serving : State := { homed ran 0 0 with dev := { ran.dev with admitted := [5] } }
def remoteOp (held : List Nat) : State :=
  let s := ran.addOp (fl none_ none_ none_ 0) .CL (.remote 5 0 2 4 false true) [] [mkReq 0 0 4 .rd] [] []
  match s.op ran.nextOp with
  | some o => s.setOp { o with held := held }
  | none => s
theorem witness_fabric_messages :
    let serves := fun (s : State) (r : RemoteReq) =>
      let a := s.admits r.tctx.toNat r.node r.sctx (reqRight r);
      (a.2, a.1.checkedAccess (remoteUser r.tctx.toNat 0) (reqPlace r) r.va r.size r.size (reqAct r))
    let w := { remoteReq with kind := .wr }
    let closed := serving.setChan (chanHash 0) { serving.chan (chanHash 0) with mode := .arming }
    let readOnly := { serving with dies := [] , mem := [] }
    ((match serves serving remoteReq with
      | (true, _, .ok _) => true
      | _ => false) && !(ran.admits 0 5 0 .rd).2 && decide ((ran.ctx 0).st ≠ .free) && decide ((ran.ctx 9).st = .free) &&
      (match (remoteOp []).op ran.nextOp with
        | some o => decide (o.remote = [mkReq 0 0 4 .rd]) && o.todo.isEmpty && o.held.isEmpty
        | none => false) && (match (remoteOp [0]).op ran.nextOp with
        | some o => decide (o.held = [0])
        | none => false) && !ran.me.gone.getLsbD 0 && decide (ran.me.stall = .none) &&
      decide ((5 : BitVec 32) - (sget 0 ran.fab.h 5 - 1) ≠ 0) && decide (w.kind = .wr) && decide (closed.ops = []) && decide (readOnly.ops = []) &&
      (([.down, .training, .up, .retrain, .failed] : List LinkState).all (fun st => decide (((linked st 2).port 3).st = st))) &&
      decide (((linked .training 0).port 3).attempts < 2) && decide (((linked .training 2).port 3).attempts = 2) && decide (ran.fab.comms = []) &&
      (([.idle, .active, .queried, .pausing, .paused, .broken] : List CommState).all (fun st =>
        decide (((endpoint ran { open0 with st := st }).comm 0 0).st = st))) && ((endpoint ran open0).comm 0 0).read &&
      (([.free, .granted, .releasing, .gone] : List ExtState).all (fun st =>
        decide (((ran.setExtent 7 { ran.extent 7 with st := st }).extent 7).st = st)))) = true := by decide +kernel
/-- Requests that meet a cause and a channel that takes none; a reduction in flight with the switch and without. -/
theorem witness_fabric_refusals :
    let w := { remoteReq with kind := .wr }
    let line := fun (x : Bool) => serving.setDie (dieOfChannel (chanHash 0)) { serving.die (dieOfChannel (chanHash 0)) with
      l2 := [{ codeLine 0 0 with w := x, chan := chanHash 0 }] }
    let keyed := { ran.dev with admitted := [5], keys := [(0, { KeySlot.empty with full := true })] }
    let closed := ({ ran.setCtx 0 { ran.ctx 0 with kcount := 1 } with dev := keyed } : State).setChan (chanHash 0) { ran.chan (chanHash 0) with
      mode := .suspended, tlb := [{ asid := 0, vpn := 0, size := 12, pte := 0x2023, entry := 0 }] }
    let out := fun (s : State) (r : RemoteReq) =>
      let a := s.admits 0 5 0 (reqRight r);
      (a.1.checkedAccess (remoteUser 0 0) (reqPlace r) r.va r.size r.size (reqAct r)).2
    let red := fun (sw : Bool) => (ran.addOp (fl none_ none_ none_ 0) .CL (.rred 3 2 0 0 0 0 6 sw false 0 0 true) [] [] [] []).op ran.nextOp
    ((match out (line false) w with
      | .cause .permission => true
      | _ => false) && (match out closed remoteReq with
      | .busy => true
      | _ => false) && ([true, false].all (fun sw => match red sw with
      | some o => o.todo.isEmpty && !o.done && decide (o.kind = .rred 3 2 0 0 0 0 6 sw false 0 0 true)
      | none => false))) = true := by decide +kernel
/-- CoresAndChannelsAdvance: a channel in each mode with an access that waits and none; the caravan in each state and wait; operations of each kind, served and not. -/
def waiting (m : ChMode) : State :=
  let s := busy ran
  s.setChan (chanHash 0) { s.chan (chanHash 0) with mode := m, waits := [ran.nextOp], snap := [ran.nextOp] }
theorem witness_channel_events :
    let ch := chanHash 0
    let two := { ran with dev := { ran.dev with admitted := [5] } }
    (([.normal, .arming, .compute, .suspended, .exiting] : List ChMode).all (fun m => decide (((waiting m).chan ch).mode = m)) &&
      !(waitingAt (waiting .compute) ch).isEmpty && (waitingAt ran ch).isEmpty && ran.ops.isEmpty &&
      decide ((waiting .compute).advOpen = none) && decide ((waiting .suspended).nextOp = 1) && (ran.chan 3).captured.all (fun p => p.2.2 == false) &&
      (waiting .suspended).ops.any (fun o => decide (o.id ∈ ((waiting .suspended).chan ch).snap)) &&
      decide (route ran 0 none (0x1ED * 2 ^ 48 + 16384 * 5 + 8 * 3) = .regs) && decide (route ran 0 none 0 ≠ .regs) &&
      (two.admits 0 5 0 .wr).2 && !(ran.admits 0 5 0 .wr).2) = true := by decide +kernel
theorem witness_caravan_events :
    let c := fun (st : CvState) (w : Wait) => ranWith (fun c => { c with st := st, wait := w })
    let drain := tiled (c .blocked (.tileFree 2)) .draining
    let m := member 1 .formed
    let grant := (m.setMe { m.me with st := .blocked, wait := .accalloc 1 1 }).setCore 0
      { m.core 0 with accq := [{ slot := 0, pd := 1, z := 1, n := 1 }] }
    (decide ((c .sleeping .none).me.st = .sleeping) && decide ((c .sleeping .none).me.mask ≠ 0) && !(c .sleeping .none).me.pending &&
      decide (((c .blocked (.tileFree 2)).tile 0 2).st ≠ .draining) && decide ((drain.tile 0 2).st = .draining) && (drain.tile 0 2).defined &&
      decide ((drain.tile 0 2).ctx = drain.me.ctx) && decide (drain.me.slice.st ≠ .blocked) && (c .blocked (.waitc 0 0 0 0 0 0)).ops.isEmpty &&
      exitReady (c .finishing .none) 0 0 && !exitReady ran 0 0 && (c .finishing .none).me.party.isNone && leaveReady (c .blocked .leave) 0 0 &&
      !leaveReady ran 0 0 && (ran.core 0).accq.isEmpty && decide (1 ≤ (freeGranules grant 0).length) && decide (grant.me.party = some (0, 0)) &&
      (zName grant 0 (0, 0) 1).isNone && decide ((grant.core 0).accq ≠ []) &&
      decide ((ran.setMe { ran.me with stall := .release 3 false }).me.stall = .release 3 false) && (ran.ctx 0).faultq.held.isEmpty &&
      (ran.ctx 0).eventq.held.isEmpty) = true := by decide +kernel
/-- An operation of a kind and class, without requests, with the given values. -/
def opWith (cls : Cls) (kind : OpKind) (vals : List (Nat × BitVec 128)) : State := ran.addOp (fl none_ none_ none_ 0) cls kind [] [] [] vals
def has (s : State) (p : Op → Bool) : Bool :=
  match s.op ran.nextOp with
  | some o => !o.done && o.todo.isEmpty && o.remote.isEmpty && o.held.isEmpty && p o
  | none => false
def copyOf (kind : CopyKind) (pos : Nat) : OpKind := .copy { kind := kind, bar := none, pos := pos, ended := false }
theorem witness_operation_events :
    let cpl := fun (pos : Nat) => opWith .CP (copyOf (.cpl 0 128 256) pos) []
    let cpo := (tiled ran .draining).addOp (fl none_ none_ none_ 0) .CP (copyOf (.cpo 2 0 [8, 1, 1, 1] [4, 0, 0, 0]) 8) [] [] [] []
    let read := lined ran [0, 1]
    let q := (queued 0 false).addOp (fl none_ none_ none_ 0) .LD (.ldq 0 0 4 false) [] [] [] [(0, 7)]
    let push := q.setMe { q.me with queues := [{ ents := [{ seq := 0, landed := false }], head := 0, nextSeq := 1, closed := false, qerr := false }] }
    (has (opWith .LD (.loadV 2 4 false) [(0, 7)]) (fun o => decide (o.kind = .loadV 2 4 false)) && has (opWith .ST .store []) (fun o => o.cls == .ST) &&
      has push (fun o => o.slice && decide (o.kind = .ldq 0 0 4 false)) && !has (busy ran) (fun _ => true) && has (cpl 256) (fun o => (cpl 256).copyGoes o) &&
      has (cpl 255) (fun o => (cpl 255).copyGoes o && o.vals.isEmpty) && has cpo (fun o => cpo.copyGoes o) &&
      has (opWith .CL (.sendTile 2 false 5 0 0 0 0 0 true none) []) (fun o => o.cls == .CL) && has (opWith .CL (.sendTile 2 false 5 0 64 0 0 0 true none) []) (fun o => o.cls == .CL) &&
      ((opWith .ST .store []).ops.all (fun p => p.slice == false)) && (match (opWith .ST .store []).op 0 with
        | some o => (match read.checkedAccess (engineUser o true) .plain 127 1 1 .rd with
          | (t, .ok x) => (match t.checkedAccess (engineUser o true) .plain 255 1 1 (.wr (BitVec.ofNat 128 x)) with
            | (_, .ok _) => true
            | _ => false)
          | _ => false)
        | none => false)) = true := by decide +kernel
/-- KernelsArePlacedAndSaved, ContextsMove: a context in each state with units and none; a save that fails; a queue closed, read, with a head; a kernel in each
state; a share to steal from; a bin with items. -/
def kernelOf (st : KState) : Kernel :=
  { kid := { ctx := 0, q := 0, idx := 0 }, st := st, at_ := 0, relay := false, record := 0, spawn := [], shares := [(2, { p := 2, cursor := 0, limit := 64 })],
    sent := [], recv := [], spawned := [], pending := [], replies := [], adverts := [], wave1 := none }
def kerneled (k : Kernel) : State := { State.reset with ctxs := [(0, { ran.ctx 0 with kernels := [k] })] }
def queueOf0 (x : LaunchQ) : State :=
  let s := homed State.reset 8 1
  { s with ctxs := [(0, { ran.ctx 0 with queues := [(0, { x with base := 0, prodVa := 0x400, consVa := 0x408, on := true })] })] }
theorem witness_front_end :
    let x := LaunchQ.zero
    let head := { x with headOk := true, depOk := true, prod := 1 }
    let bin : Bin := { ctx := 0, entry := 0, e := 0, kid := { ctx := 0, q := 0, idx := 0 }, items := [5] }
    let spawned := (kerneled (kernelOf .running)).setDie 1 { Die.reset with bins := [(4, bin)] }
    let k := kernelOf .running
    (!(State.reset.queue 0 0).open_ && ((queueOf0 x).queue 0 0).open_ &&
      ctxRuns (queueOf0 x) 0 && (match (queueOf0 x).feRead 0 0x400 8 1 with
      | (_, .inl _) => true
      | _ => false) && decide (bestQueue (queueOf0 head) 0 = some 0) && decide (bestQueue (queueOf0 x) 0 ≠ some 0) &&
      decide (((queueOf0 head).ctx 0).eallot = 0) && (State.reset.nextPlacement 2).isNone && decide ((spawned.ctx 0).st = .active) &&
      (spawned.kernel { ctx := 0, q := 0, idx := 0 }).isSome && !(sget Bin.zero (spawned.die 1).bins 4).items.isEmpty &&
      decide (2 ≤ (sget Share.none k.shares 2).count) && k.replies.isEmpty &&
      allQuiet (kerneled { k with shares := [] }) { k with shares := [] } && ctxCompletes (kerneled k) 0 &&
      decide ((sget Share.none k.shares 1).count = 0) && !completionParked (kerneled (kernelOf .quiescent)) k.kid &&
      LaunchRec.incr (kernelOf .quiescent).record == false &&
      (([.admitted, .running, .quiescent, .retired] : List KState).all (fun st => ((kerneled (kernelOf st)).kernel k.kid).isSome))) = true := by
  decide +kernel
theorem witness_front_end_reads :
    let pend := { LaunchQ.zero with prod := 1 }
    let s := { queueOf0 pend with dies := [] }
    let home := fun (s : State) (x : Nat) => homed (homed s 0 x) 1 0
    let dep := { LaunchQ.zero with headOk := true, prod := 1 }
    ((match (home s (2 ^ 24 - 1)).feRead 0 0 16 16 with
      | (_, .inl r) => (recordCode (BitVec.ofNat 2048 r)).isSome
      | _ => false) && (match (queueOf0 dep).readDeps 0 0 4 with
      | (_, .inl _) => true
      | _ => false)) = true := by decide +kernel
theorem witness_context_events :
    let s := other
    (([.draining, .saving, .resetting] : List CtxState).all (fun st => decide (((s st).ctx 3).st = st)) && (s .draining).chans.all (fun p => !p.2.heldBy 3) &&
      !((s .draining).cvs.any (fun p => decide (p.2.ctx = 3) && decide (p.2.st ≠ .absent))) && saveReady (s .saving) 3 &&
      (s .draining).cvs.any (fun p => decide (p.2.ctx = 0) && decide (p.2.st ≠ .absent)) &&
      (match ((s .saving).setCtx 3 { (s .saving).ctx 3 with savelen := 0, saveva := 1 }).trySave 3 with
        | (_, ok) => !ok) && decide (((s .saved).ctx 3).image = SaveImage.zero) && ((s .saved).ctx 3).faultq.held.isEmpty &&
      !(ran.admits 0 5 0 .wr).2) = true := by decide +kernel

/-! ### The instruction word and the step -/

/-- ChecksActInOrder: a negated access-engine instruction in a caravan, a privileged one without privilege, registers beyond the limit, a guard that is off. -/
theorem witness_checks :
    let user := ran.setCtx 0 { ran.ctx 0 with priv := false }
    let x := fl (.s 1) (.s 4) (.s 5) 0
    let big := fl (.v 200 0 0) (.v 0 0 0) (.imm 1) (8 * 4)
    let off := { fl (.v 2 0 0) (.v 0 0 0) (.imm 1) (8 * 4) with g := { pred := 63, neg := true } }
    (admitted ran (.aend (fl none_ none_ none_ 0)) (fl none_ none_ none_ 0) == false && admitted user (.xmodeStep1 x) x && privileged (.xmodeStep1 x) &&
      !user.myCtx.priv && admitted ran (.iadd big) big && !privileged (.iadd big) && limitsOk ran (.iadd big) big == false &&
      admitted ran (.iadd off) off && limitsOk ran (.iadd off) off && guardedOff ran (.iadd off) off) = true := by decide +kernel
/-- StepRunsDecodedInstruction: a fetched word on a unit's turn and on the next turn, executor words legal and not, an input in the agenda.
WordsRoundTrip, StepKeepsMemoryCanonical: legal words, words that decode, canonical memory. -/
theorem witness_step :
    let s := State.reset.withFetchWord 96 0xFC00
    let tick := { s with clock := s.clock + 1 }
    let unit_ := { s with agenda := [.unit 0 false] }
    let adv := fun (w : W32) => { (State.reset.setChan 0 { State.reset.chan 0 with prog := [(0, w)] }) with advOpen := some 0, advTodo := [0] }
    let prog := fun (w : W32) => decodeExecutor (sget 0 ((adv w).chan 0).prog 0)
    (s.posts.isEmpty && s.advOpen.isNone && s.agenda.isEmpty && tick.due.isNone && (match tick.nextTurn with
      | some t => (match t.fetch with
        | (_, some _) => true
        | _ => false) && t.fetchOp.isNone && (let a := serve t { t.user t.nextOp with fetch := true } true [] [[t.fetchReq 0], [t.fetchReq 1], [t.fetchReq 2]];
          a.causes.isEmpty && a.parks.isEmpty && a.todo.isEmpty && a.remote.isEmpty)
      | none => false) && (match ({ tick with agenda := [] }).takeTurn 0 false with
      | some t => (match t.fetch with
        | (_, some _) => true
        | _ => false)
      | none => false) && decide (unit_.agenda = [.unit 0 false]) &&
      (match prog 0x64000000, prog 0x6C000000 with
      | .ok _, .error _ => true
      | _, _ => false) && isStep .measure && (match decodeBytes (toBytes 12 0xFC00), decodeBytes (toBytes 12 0xFF40) with
      | .ok _, .error _ => true
      | _, _ => false) && Memory.wf s.mem && legal (.nop (fl none_ none_ none_ 0)) && (encode (.nop (fl none_ none_ none_ 0))).isSome &&
      legal (.rdw 5 7)) = true := by decide +kernel
/-- The bare operations that the rest of the statements quantify over. -/
theorem witness_tree : tree (fun a b => a + b) 0 3 [1, 2, 3] = 6 ∧ (1 : Nat) < 2 ∧ redOp 0 8 (rredIdentity 0 8) 7 = 7 := by decide +kernel

/-! ### Waits, marks and messages -/

/-- A write of the caravan's context to another node that is not acknowledged; an own load that has not returned; an own access
behind a MARK. -/
def writing (s : State) : State := { s with
  nextOp := s.nextOp + 1
  ops := s.ops ++ [{ opFor s (fl none_ none_ none_ 0) .ST .wback (nothingServed s []) with core := State.devCore, remote := [mkReq 0 0 4 (.wr 1)] }] }
def loading (s : State) : State := s.addOp (fl none_ none_ none_ 0) .LD (.loadV 2 4 false) [mkReq 0 0 4 .rd] [] [] []
def marked (s : State) : State := (busy s).setMe { s.me with marks := [(busy s).nextOp] }
/-- A dirty line of the home L2 of channel 0, which is in mode m. -/
def dirtied (m : ChMode) : State :=
  let s := withS ran (0x1EB * 2 ^ 48) 0 0 0
  let l := { codeLine 0 0 with tag := 0x1EB * 2 ^ 48 / 128, home := 1, w := true, dirty := 1, chan := 0, key := 0 }
  let s := s.setDie (dieOfChannel 0) { s.die (dieOfChannel 0) with l2 := [l] }
  s.setChan 0 { s.chan 0 with mode := m, owner := 5 }
/-- The waits of FencesOrder, AtomicOrders, RemoteAccesses, EVPOST, LAUNCH and REPLAY for what is written to other nodes, of an
acquire for the caravan's own loads, and of a deep release for its channel. -/
theorem witness_order_waits :
    let away := fun (s : State) => !(writing s).memPending && fabricPending ((writing s).release 5 none) 0
    (away ran && !fabricPending (ran.release 5 none) 0 && onceB (writing ran) (.fence (fl none_ none_ none_ 0x142)) &&
      laneB (writing stored) (.atom (fl none_ (.v 2 0 0) none_ 0x228)) && laneB (writing (withS ran 0x10005 0 0 0)) (.ratom (fl none_ (.s 4) none_ 0x200)) &&
      onceB (writing ran) (.evpost (fl none_ (.s 4) (.s 5) 0)) && onceB (writing (ringed 1)) (.launch (fl (.s 1) (.s 4) (.s 5) 0)) &&
      onceB (writing ran) (.replay (fl (.s 1) (.s 4) (.s 5) 0)) && onceB (loading ran) (.acq (fl none_ none_ none_ 0x40)) &&
      (loading ran).readPending && !ran.readPending && onceB (dirtied .suspended) (.fence (fl none_ (.s 4) none_ 0x180)) &&
      decide (deepScope (dirtied .suspended) 0 0 false ((dirtied .suspended).sreg 4) = some (0, none)) &&
      deepLeft ((dirtied .suspended).release 6 (some (0, none))) (some (0, none)) &&
      !deepLeft (ran.release 6 (some (0, none))) (some (0, none))) = true := by decide +kernel
/-- VA 0 is in no cache, and its home channel is in mode m. -/
def awayFrom (m : ChMode) : State :=
  let s : State := { ran.setCtx 0 { ran.ctx 0 with kcount := 1 } with dev := { ran.dev with keys := [(0, { KeySlot.empty with full := true })] } }
  let s := s.setCore 0 { s.core 0 with l1 := [] }
  let s := s.setDie (dieOfChannel (chanHash 0)) { s.die (dieOfChannel (chanHash 0)) with l2 := [] }
  s.setChan (chanHash 0) { s.chan (chanHash 0) with mode := m, tlb := [{ asid := 0, vpn := 0, size := 12, pte := 0x2023, entry := 0 }] }
/-- JoinedReleaseAndAcquire: the joined access is performed at once, and has to wait, at a scope that drains and at a deep one. -/
theorem witness_joined :
    let s := fun (m : ChMode) => withS (awayFrom m) 0 0 0 0
    let deep := fun (m : ChMode) (act : Act) => ((s m).perform ((s m).user (s m).nextOp) { mkStrong 0 0 4 6 act with deep := true }).2
    let away := fun (r : Res) => match r with
      | .busy => true
      | .remote => true
      | .fill => true
      | _ => false
    (away (deep .suspended (.wr 1)) && away (deep .suspended .rd) && okAt (s .normal) { mkStrong 0 0 4 6 (.wr 1) with deep := true } &&
      okAt (s .normal) { mkStrong 0 0 4 6 .rd with deep := true } && okAt (s .normal) (mkStrong 0 0 4 2 (.wr 1)) &&
      ([.suspended, .normal] : List ChMode).all (fun m => onceB (s m) (.rel (fl (.s 1) (.s 4) (.s 4) 0x382)) &&
        onceB (s m) (.rel (fl (.s 1) (.s 4) none_ 0x282)) && onceB (s m) (.acq (fl (.s 1) (.s 4) (.s 4) 0x382)) &&
        decide (deepScope (s m) 0 0 false ((s m).sreg 4) = some (0, none)))) = true := by decide +kernel
/-- Two members of a party; the issuing one and the other have marked m and n times. -/
def twoMark (m n : Nat) : State :=
  let s := member 2 .formed
  let s := (s.setCv 0 1 { s.me with marked := List.replicate n (0, 0, 0, 1) }).setMe { s.me with marked := List.replicate m (0, 0, 0, 1) }
  s.setParty 0 0 { s.party 0 0 with members := [(0, 0), (0, 1)], joined := 2 }
/-- MarksHoldOperations and PartiesJoinAndLeave: the other member has not marked, and has; a member leaves that has not marked. -/
theorem witness_party_marks :
    let mark := Instr.mark (fl none_ none_ none_ 0x200)
    let noted := fun (s : State) => s.setMe { s.me with marked := s.me.marked ++ [(0, 0, (s.party 0 0).made, s.nextOp)] }
    let marks := fun (s : State) => (markers (noted s) 0 0).map (marksFor (noted s) 0 0)
    (onceB (twoMark 0 0) mark && onceB (twoMark 0 1) mark && (marks (twoMark 0 0)).any (·.isEmpty) &&
      (marks (twoMark 0 1)).all (fun l => l.length == 1) && decide (markers (noted (twoMark 0 1)) 0 0 = [(0, 0), (0, 1)]) &&
      onceB (twoMark 0 0) (.leave (fl none_ none_ none_ 0)) && (markers (twoMark 0 0) 0 0).all (fun m => (marksFor (twoMark 0 0) 0 0 m).isEmpty)) =
      true := by decide +kernel
/-- CopiesStart: a misaligned base with a box of nothing and with one that fits; QueuesAndAccessLoops: a CPQ that has pushed one of
three entries, its queue closed, with room and full. -/
theorem witness_copy_ends :
    let at_ := fun (s : State) (x : W64) => s.setMe { s.me with sregs := sset 0 s.me.sregs 8 x }
    let fits := tiled (at_ (withS (member 1 .formed) 0x10008 0 0x10001 0) 2)
    let none_ := tiled (at_ (withS (member 1 .formed) 0 0 0 0) 2)
    let cpt := Instr.cpt (fl (.tile 2) (.s 8) (.s 4) 0x200)
    let cpo := Instr.cpo (fl (.tile 2) (.s 8) (.s 4) 0)
    let again := fun (closed : Bool) (n : Nat) => (sliceS (queued n closed) 3 0 []).addOp (fl Tests.none_ Tests.none_ Tests.none_ 0) .CP
      (.copy { kind := .cpq 0 0 3 0 1, bar := none, pos := 0, ended := false }) [] [] [] []
    (([fits, none_].all (fun s => onceB (s .empty) cpt && onceB (s .ready) cpo && decide (((s .empty).sreg 8).toNat % (typeBits 6 / 8) ≠ 0))) &&
      ([again true 1, again false 1, again false 3].all (fun s => sliceB s (.cpq (fl (.queue 0) (.s 5) (.s 4) 0)) && s.openCpq.isSome &&
        decide (s.ops.length = 1) && decide (s.me.qdepth = 4)))) = true := by decide +kernel
/-- MatrixOperationsIssue: a READY source with ERR, and sources of which the first that is not READY is FILLING or DRAINING. -/
theorem witness_matrix_sources :
    let s := fun (err : Bool) (st : TileState) =>
      let s := matrixed 1 .ready
      (s.setTile 0 2 { s.tile 0 2 with err := err }).setTile 0 3 { s.tile 0 3 with st := st }
    let wants := fun (s : State) (p : List (Nat × Nat × (Tile → Bool)) → Bool) => onceB s (mx 0) && match mxPlan s (mx 0) with
      | none => false
      | some m => !mxOutstanding s 0 0 && (mxWants s 0 m).all (fun w => !mxBadTile s w) && p (mxWants s 0 m)
    (wants (s true .ready) (fun l => l.any (fun w => decide (((s true .ready).tile w.1 w.2.1).st = .ready) && ((s true .ready).tile w.1 w.2.1).err)) &&
      ([.filling, .draining] : List TileState).all (fun st => wants (s false st) (fun l =>
        match l.find? (fun w => decide (((s false st).tile w.1 w.2.1).st ≠ .ready)) with
        | some w => decide (w.2.1 = 3)
        | none => false))) = true := by decide +kernel
/-- Remote accesses, blocks, collectives and bank commands behind a MARK and without one; the commands of a caravan in their order. -/
def bankAt (x : W64) : State :=
  (stored.setMe { stored.me with sregs := sset 0 stored.me.sregs 4 x }).setChan 0 { stored.chan 0 with mode := .compute }
theorem witness_behind_marks :
    let n := marked (withS ran 0x10005 0 0 0)
    let ch : W64 := 0x1EB * 2 ^ 48
    let bank : W64 := ch + 2 ^ 25 * 3
    let xcol := Instr.xcol (fl none_ (.s 4) (.s 8) 0)
    let due := (bankAt bank).addOp (fl none_ none_ none_ 0) .BX (.bank 0 (.xcol 0) false) [] [] [] []
    let behind := fun (s : State) => s.behindMark s.cur s.nextOp
    (laneB n (.rld (fl none_ (.s 4) none_ 2)) && laneB n (.rst (fl none_ (.s 4) none_ 2)) && behind n && behind (wide n 2 .ready) &&
      onceB (wide n 2 .ready) (.rstBlk (fl (.tile 2) (.s 4) (.s 8) 0x200)) && onceB (wide n 2 .ready) (.rstBlk (fl (.tile 2) (.s 4) (.s 8) 0x300)) &&
      ran.me.marks.isEmpty && ran.me.follows.isEmpty && ran.me.marked.isEmpty &&
      laneB (withS ran 0x10005 0 0 0) (.ratom (fl none_ (.s 4) none_ 0x100)) && onceB (marked (bankAt ch)) xcol && behind (marked (bankAt ch)) &&
      (marked (bankAt ch)).ops.all (fun o => decide (o.id < (marked (bankAt ch)).nextOp)) && ((marked (bankAt ch)).chan 0).cmds.isEmpty &&
      onceB (bankAt bank) (.xstat (fl (.s 1) (.s 4) none_ 0)) && onceB due (.xstat (fl (.s 1) (.s 4) none_ 0)) &&
      onceB due (.xreset (fl none_ (.s 4) none_ 0)) && due.ops.any (fun o => !o.done && o.core == 0 && o.cslot == 0 && !o.slice) &&
      ran.ops.isEmpty && decide (ran.want = .nothing)) = true := by decide +kernel
/-- BankCommandsQueue: an XCOL behind a wide release, with nothing to write back and with a line that the channel does not take. -/
theorem witness_command_release :
    let s := fun (m : ChMode) =>
      let t := bankAt (0x1EB * 2 ^ 48)
      let t := t.setMe { t.me with relDue := true }
      let l := { codeLine 0 0 with tag := 0x1EB * 2 ^ 48 / 128, home := 1, w := true, dirty := 1, chan := 0, key := 0 }
      let t := t.setDie (dieOfChannel 0) { t.die (dieOfChannel 0) with l2 := if m = .suspended then [l] else [] }
      t.setChan 0 { t.chan 0 with mode := m }
    let p := fun (l : Line) => decide (l.home = 1) && decide (l.chan = 0)
    let clean := fun (m : ChMode) => l2Clean ((s m).flushL2 (dieOfChannel 0) p false) (dieOfChannel 0) p
    (([.compute, .suspended] : List ChMode).all (fun m => onceB (s m) (.xcol (fl none_ (.s 4) (.s 8) 0)) && (s m).me.relDue &&
      decide (((s m).chan 0).owner = 0)) && clean .compute && !clean .suspended) = true := by decide +kernel
/-- CollectivesAndGangs: a pause of the current instance with relay caravans that have a part in it, one and two. -/
theorem witness_pause :
    let inst : Instance := { inst := 0, core := 0, tile := 2, bcore := 0, bent := 0, made := 0, bar := 0, chunk := 0, posted := true, localDone := false,
                             peers := [] }
    let x := fun (us : List (Nat × Nat)) => { open0 with st := .pausing, pinst := 0, cstar := 2, permit := some 2, insts := [inst],
                                                         users := us.map (fun u => (0, u)) }
    let s := fun (us : List (Nat × Nat)) (n : W64) => endpoint (withS ran 0 n 0 0) (x us)
    (([2, 3, 4] : List W64).all (fun n => onceB (s [(0, 0)] n) (.gangq (fl (.s 1) (.s 4) (.s 5) 0))) &&
      ([[(0, 0)], [(0, 0), (0, 1)]] : List (List (Nat × Nat))).all (fun us => onceB (s us 0) (.gangack (fl none_ (.s 4) none_ 0)) &&
        decide (((s us 0).comm 0 0).pinst = 0))) = true := by decide +kernel
/-- AdvanceTakesACommand and StepRunsDecodedInstruction: an advance that no executor runs in any more. TLBINV: a range that is clean, and one
whose channel takes no write-back. -/
theorem witness_closing_and_ranges :
    let closing := { State.reset with advOpen := some 3, advTodo := [] }
    let inv := fun (m : ChMode) =>
      let s := homed ran 0 0
      let d := dieOfChannel (chanHash 0)
      let s := (s.setDie d { s.die d with l2 := (s.die d).l2.map (fun l => { l with dirty := 1 }) }).setMe { s.me with stall := .tlbinv 0 0 1 }
      s.setChan (chanHash 0) { s.chan (chanHash 0) with mode := m }
    let left := fun (m : ChMode) => rangeLeft (((inv m).dropTranslations 0 0 4096).flushRange 0 0 4096) 0 0 4096
    (closing.posts.isEmpty && decide (closing.advOpen = some 3) && closing.advTodo.isEmpty && left .suspended &&
      !rangeLeft (((ran.setMe { ran.me with stall := .tlbinv 0 0 1 }).dropTranslations 0 0 4096).flushRange 0 0 4096) 0 0 4096 &&
      decide ((inv .suspended).me.stall = .tlbinv 0 0 1)) = true := by decide +kernel
/-- LinksMoveAndCount: a RETRAIN port that holds messages and none, a flit sent again at either side of sixteen. -/
theorem witness_retry :
    let p := fun (st : LinkState) (n : Nat) (b : List Nat) => (ran.setPort 3 { ran.port 3 with st := st, tries := n, buffer := b }).port 3
    (decide ((p .up 14 []).tries < 15) && decide (15 ≤ (p .up 15 []).tries) && decide ((p .up 15 []).st = .up) && (p .retrain 0 []).buffer.isEmpty &&
      !(p .retrain 0 [3]).buffer.isEmpty && decide ((p .retrain 0 [3]).st = .retrain) && ran.fab.comms.isEmpty) = true := by
  decide +kernel
/-- The source that FABACL of context 0 admits for every right. -/
def listed (s : State) : State := { s with fab := { s.fab with acl := [(0, [BitVec.ofNat 128 (5 + 15 * 2 ^ 25)])] } }
def marker0 : EndMarker := { src := 5, sctx := 0, tctx := 0, xfer := 0, n := 1, base := 0, valVa := 0, cntVa := 0, notVa := 0 }
/-- FabricMessages: a request refused, performed, stopped by a cause and held up by its channel; a lossy block that is written; an end marker
to a FREE context and to one that serves. -/
theorem witness_messages :
    let asked := fun (s : State) (r : RemoteReq) =>
      let a := s.admits 0 r.node r.sctx (reqRight r)
      (a.2, a.1.askChecked (remoteUser 0 (2 ^ 64 + s.nextDev)) (reqPlace r) r.va r.size (reqAct r))
    let readOnly := serving.setDie (dieOfChannel (chanHash 0)) { serving.die (dieOfChannel (chanHash 0)) with
      l2 := [{ codeLine 0 0 with w := false, chan := chanHash 0 }] }
    let closed := awayFrom .suspended
    let shut := { closed with dev := { closed.dev with admitted := [5] } }
    let taking := listed (homed (homed ran 0 0) 1 0)
    let l := taking.admits 0 5 0 .lossy
    let w := l.1.admits 0 5 0 .wr
    let b := LossyBlock.make 5 0 0 1 0 0 7
    ((match asked serving remoteReq with
      | (true, t, .ok _) => decide (t.want = .nothing)
      | _ => false) && (match asked readOnly { remoteReq with kind := .wr } with
      | (true, t, .cause .permission) => decide (t.want = .nothing)
      | _ => false) && (match asked shut remoteReq with
      | (true, t, .busy) => decide (t.want ≠ .nothing)
      | _ => false) && (match ran.admits 0 5 0 .rd with
      | (t, false) => decide (t.want = .nothing)
      | _ => false) && l.2 && w.2 && (match w.1.lossyBytes 0 (2 ^ 64) b.va b.payload.toNat with
      | some t => decide (t.want = .nothing)
      | none => false) && b.chkOk && decide (b.xfer - (sget 0 taking.fab.h 5 - 1) = 2) && taking.fab.opened.isEmpty &&
      decide ((taking.ctx 0).st = .active) && !behindMarker taking (2 ^ 64) marker0 && (match w.1.markerWrites (2 ^ 64) marker0 [] with
      | (t, none) => decide (t.want = .nothing)
      | _ => false) && decide ((taking.ctx 9).st = .free) && !behindMarker taking (2 ^ 64) { marker0 with tctx := 9 } &&
      (listed ran).ops.isEmpty) = true := by decide +kernel
/-- GangAndExtentEvents: an endpoint that the host and that this device has queried; an instance that is not open here yet; an extent that is
RELEASING, with a write to its node outstanding and with none. -/
theorem witness_gang_messages :
    let q := fun (own : Bool) => (endpoint ran { open0 with st := .queried, own := own }).comm 0 0
    let rel := fun (s : State) => s.setExtent 7 { s.extent 7 with st := .releasing, owner := 0 }
    (decide ((q true).st = .queried) && (q true).own && !(q false).own && (q true).insts.isEmpty && decide ((q true).next ≤ 4) &&
      decide (((rel ran).extent 7).st = .releasing) && decide (extentDirty (rel ran) 7 = 0) && (rel ran).ops.isEmpty &&
      (rel (writing ran)).ops.any (fun o => o.ctx = 0 && decide (o.kind = .wback))) = true := by decide +kernel
/-- KernelsArePlacedAndSaved: a count that is due and one that is not, a die with a victim to steal from, a kernel whose operations are
performed and one with an operation outstanding. -/
theorem witness_adverts :
    let k := { kernelOf .running with adverts := [(2, 24)] }
    let quiet := kerneled (kernelOf .quiescent)
    let kid : KernelId := { ctx := 0, q := 0, idx := 0 }
    let out := { quiet with ops := [{ opFor ran (fl none_ none_ none_ 0) .CP .store (nothingServed ran []) with kid := kid }] }
    (advertDue 0 16 && !advertDue 24 16 && decide ((sget Share.none k.shares 2).count = 16) && k.steals 0 && decide (k.victim 0 = some 2) &&
      kernelPerformed quiet kid && !kernelPerformed out kid && ctxCompletes quiet 0 && !fabricPending (quiet.releaseAll 0) 0) = true := by
  decide +kernel
/-- DeviceStepsComplete and SystemFormsComplete: a head that is admitted, an index and dependences that are read, a caravan that a die places,
a save that fails, a restore whose queues and kernels are read, a reduction whose destination is EMPTY. -/
theorem witness_heads :
    let r := 2 ^ 128 * 32 + 2 ^ 168 * 2
    let q := { LaunchQ.zero with prod := 1 }
    let placing := kerneled { kernelOf .admitted with record := BitVec.ofNat 2048 r, shares := [(0, { p := 0, cursor := 0, limit := 1 })] }
    ((recordCode (BitVec.ofNat 2048 r)).isNone && decide (LaunchRec.nspawn (BitVec.ofNat 2048 r) = 0) &&
      (match (homed (homed { queueOf0 q with dies := [] } 0 r) 1 0).feRead 0 0 16 16 with
      | (t, .inl x) => decide (x = r) && decide ((t.takeHead 0 0 (BitVec.ofNat 2048 x) []).want = .nothing)
      | _ => false) && (match (queueOf0 q).feRead 0 0x400 8 1 with
      | (t, .inl _) => decide (t.want = .nothing)
      | _ => false) && (match (queueOf0 { q with headOk := true }).readDeps 0 0 4 with
      | (t, .inl _) => decide (t.want = .nothing)
      | _ => false) && (placing.nextPlacement 0).isSome) = true := by decide +kernel
theorem witness_saves :
    let failing := (other .saving).setCtx 3 { (other .saving).ctx 3 with savelen := 0, saveva := 1 }
    let saved := (List.range 4).foldl (fun (s : State) n =>
      let d := dieOfChannel (chanHash (128 * n))
      s.setDie d { s.die d with l2 := { codeLine 7 0 with tag := n, chan := chanHash (128 * n) } :: (s.die d).l2 }) (other .saved)
    let y := { saved.ctx 3 with st := .active, restoring := false, image := SaveImage.zero }
    let red := endpoint (wide (wide ran 2 .ready) 3 .empty) open0
    ((match ((failing.settleContext 3).writePrivate 3).trySave 3 with
      | (t, false) => decide (t.want = .nothing)
      | _ => false) &&
      decide (((List.range 8).foldl (fun s q => s.readKernels 3 q) ((saved.setCtx 3 y).takeQueues (User.device 3) 3)).want = .nothing) &&
      decide (((red.tile 0 3).st = .empty)) && onceB red (.rred (fl (.tile 3) (.tile 2) (.s 4) (2 * 6))) && red.ops.isEmpty) = true := by decide +kernel

end Sys2Proof.Tests
end

section
/-! SUPPORT. Immediates (R216): what the source helpers of R218 and R229 read from one, imm32 of two, and the operand
kinds that MOVI and SMOVI admit. -/

namespace Sys2Proof.Proofs.Immediates

open Sys2Proof Sys2Proof.Machine

/-! ## The helpers imm_s, imm_u and imm32 of R216 -/

/-- imm_s: an operand at least as wide as the field keeps the signed value. -/
theorem toInt_immVal_false {w : Nat} (hw : 16 ≤ w) (x : BitVec 16) : (immVal w false x).toInt = x.toInt :=
  BitVec.toInt_signExtend_of_le hw

/-- imm_u: an operand at least as wide as the field keeps the unsigned value. -/
theorem toNat_immVal_true {w : Nat} (hw : 16 ≤ w) (x : BitVec 16) : (immVal w true x).toNat = x.toNat :=
  BitVec.toNat_setWidth_of_le hw

/-- imm32: OPA is the low half and OPB the high half. -/
theorem toNat_imm32 (x y : BitVec 16) : (imm32 (.imm x) (.imm y)).toNat = x.toNat ||| y.toNat <<< 16 :=
  calc (y ++ x).toNat
    _ = y.toNat <<< 16 ||| x.toNat := BitVec.toNat_append y x
    _ = x.toNat ||| y.toNat <<< 16 := Nat.or_comm _ _

/-! ## A source that is an immediate reads neither the state, the source type nor the lane -/

@[simp] theorem src32_imm (s : State) (ty : SrcTy) (zero : Bool) (x : BitVec 16) (L : Nat) :
    s.src32 ty zero (.imm x) L = immVal 32 zero x := rfl

@[simp] theorem src64_imm (s : State) (zero : Bool) (x : BitVec 16) (L : Nat) :
    s.src64 zero (.imm x) L = immVal 64 zero x := rfl

@[simp] theorem srcS_imm (s : State) (zero : Bool) (x : BitVec 16) : s.srcS zero (.imm x) = immVal 64 zero x := rfl

/-! ## The operands of MOVI and SMOVI -/

theorem isI_iff {o : Operand} : o.isI = true ↔ ∃ x, o = .imm x := by
  cases o <;> simp [Operand.isI]

theorem legal_movi (f : Fields) :
    legal (.movi f) = (f.headOk && f.d.isVd && f.a.isI && f.b.isI && f.noM) := rfl

theorem legal_smovi (f : Fields) :
    legal (.smovi f) =
      (f.headOk && f.d.isS && f.a.isI && f.b.isI && modOnly f.m 0x300 && modBits f.m 8 2 ≤ 2) := rfl

/-- Both OPA and OPB of a MOVI or SMOVI that the checks of R221 pass are of kind 10. -/
theorem exists_imm_of_legal {f : Fields} (h : legal (.movi f) = true ∨ legal (.smovi f) = true) :
    ∃ x y, f.a = .imm x ∧ f.b = .imm y := by
  obtain ⟨ha, hb⟩ : f.a.isI = true ∧ f.b.isI = true := by
    rcases h with hmovi | hsmovi
    · simp only [legal_movi, Bool.and_eq_true] at hmovi
      obtain ⟨⟨⟨_, ha⟩, hb⟩, _⟩ := hmovi
      exact ⟨ha, hb⟩
    · simp only [legal_smovi, Bool.and_eq_true] at hsmovi
      obtain ⟨⟨⟨⟨_, ha⟩, hb⟩, _⟩, _⟩ := hsmovi
      exact ⟨ha, hb⟩
  obtain ⟨x, hx⟩ := isI_iff.mp ha
  obtain ⟨y, hy⟩ := isI_iff.mp hb
  exact ⟨x, y, hx, hy⟩

/-- Settles O49: every source helper reads the immediate's own extension to its width, and the extension keeps the
value since every width is at least 16. -/
theorem immediatesAreExtended : Obligations.ImmediatesAreExtended := by
  intro s ty x y L
  simp only [src32_imm, src64_imm, srcS_imm]
  have h32 : 16 ≤ 32 := by decide
  have h64 : 16 ≤ 64 := by decide
  exact ⟨toInt_immVal_false h32 x, toInt_immVal_false h64 x, toNat_immVal_true h32 x, toNat_immVal_true h64 x,
    toInt_immVal_false h64 x, toNat_immVal_true h64 x, toNat_imm32 x y, fun _ h => exists_imm_of_legal h⟩

end Sys2Proof.Proofs.Immediates
end

section
/-! SUPPORT. BRANY and BRALL (R233): the lanes of the condition's mask, the two ends of a branch that keeps the mask, and the
statement about both. -/

namespace Sys2Proof.Proofs.AnyAllBranches

open Sys2Proof Sys2Proof.Machine
open Host (Outcome)

/-- The lane's condition c(L) of R231 and R233: its predicate, inverted under .NOT. -/
def laneCond (s : State) (o : Operand) (m : BitVec 10) (L : Nat) : Bool :=
  (s.me.pred o.pnum).getLsbD L != decide (modBits m 0 1 = 1)

/-! ## The mask of the lanes whose condition holds -/

theorem getLsbD_condMask (s : State) (o : Operand) (m : BitVec 10) {L : Nat} (hL : L < 1024) :
    (s.condMask o m).getLsbD L = (s.me.mask.getLsbD L && laneCond s o m L) := by
  unfold State.condMask laneCond
  by_cases hnot : modBits m 0 1 = 1
  · simp [hnot, hL]
  · simp [hnot]

theorem condMask_ne_zero_iff (s : State) (o : Operand) (m : BitVec 10) :
    s.condMask o m ≠ 0 ↔ ∃ L, L < 1024 ∧ s.me.mask.getLsbD L = true ∧ laneCond s o m L = true := by
  constructor
  · intro hne
    by_contra hnone
    refine hne (BitVec.eq_of_getLsbD_eq fun L hL => ?_)
    have hoff : ¬(s.me.mask.getLsbD L = true ∧ laneCond s o m L = true) := fun h => hnone ⟨L, hL, h⟩
    simpa [getLsbD_condMask s o m hL] using hoff
  · rintro ⟨L, hL, hact, hc⟩ hzero
    have hbit := getLsbD_condMask s o m hL
    simp [hzero, hact, hc] at hbit

theorem condMask_eq_mask_iff (s : State) (o : Operand) (m : BitVec 10) :
    s.condMask o m = s.me.mask ↔ ∀ L, L < 1024 → s.me.mask.getLsbD L = true → laneCond s o m L = true := by
  constructor
  · intro heq L hL hact
    have hbit := getLsbD_condMask s o m hL
    simpa [heq, hact] using hbit
  · intro hall
    refine BitVec.eq_of_getLsbD_eq fun L hL => ?_
    rw [getLsbD_condMask s o m hL]
    by_cases hact : s.me.mask.getLsbD L = true
    · simp [hact, hall L hL hact]
    · simp [hact]

/-! ## A caravan's branch sets its PC and nothing else -/

theorem pc_caravan {s : State} (h : s.cur.slice = false) : s.pc = s.me.pc := by simp [State.pc, h]

theorem once_branches {i : Instr} {f : Fields} {s : State} {body : State → State} {x : W64} (h : OnceRuns i f s)
    (hs : sliceOnly i = false) (hb : body s = s.setPc x) :
    issue i f false true body s = .next (s.setMe { s.me with pc := x }) := by
  rw [issue_once false body h hs (by simp), hb, State.setPc_caravan _ _ h.caravan]
  exact congrArg Outcome.next (settle_setMe s _ h.runs rfl rfl rfl)

/-- A body that branches to `o` where `p` holds, and otherwise goes on at the next instruction. -/
theorem once_branchesIf {i : Instr} {f : Fields} {s : State} {body : State → State} {p : Prop} [Decidable p] {o : Operand}
    (h : OnceRuns i f s) (hs : sliceOnly i = false)
    (hb : body s = if p then s.setPc (s.relTarget o) else s.advance) :
    (p → issue i f false true body s = .next (s.setMe { s.me with pc := s.me.pc + BitVec.ofInt 64 (12 * o.immS) })) ∧
    (¬p → issue i f false true body s = .next (s.setMe { s.me with pc := s.me.pc + 12 })) := by
  have hpc := pc_caravan h.caravan
  constructor
  · intro hp
    rw [once_branches h hs (hb.trans (if_pos hp)), State.relTarget, hpc]
  · intro hp
    rw [once_branches (x := s.pc + 12) h hs (hb.trans (if_neg hp)), hpc]

/-- Settles O15: a mask of conditions that is not zero has a bit, and one that is the active mask has every active lane's. -/
theorem anyAllBranch : Obligations.AnyAllBranch := by
  intro s f c go
  constructor
  · intro h
    have hgo := once_branchesIf (body := fun s => if s.condMask f.d f.m ≠ 0 then s.setPc (s.relTarget f.a) else s.advance)
      h rfl rfl
    rw [condMask_ne_zero_iff] at hgo
    exact hgo
  · intro h
    have hgo := once_branchesIf
      (body := fun s => if s.condMask f.d f.m = s.me.mask then s.setPc (s.relTarget f.a) else s.advance) h rfl rfl
    rw [condMask_eq_mask_iff] at hgo
    refine ⟨fun hyes => hgo.1 fun L hL hact => (hyes L hL hact).2, fun hno => hgo.2 fun hall => hno fun L hL hact => ?_⟩
    exact ⟨hact, hall L hL hact⟩

end Sys2Proof.Proofs.AnyAllBranches
end

section
/-! SUPPORT. S2V and V2S (R248): the write of one value to a V register in every active lane, the lane that V2S reads, and
the statement about both. -/

namespace Sys2Proof.Proofs.ScalarVector

open Sys2Proof Sys2Proof.Machine
open Host (Outcome)

/-! ## S2V: an instruction that executes once and writes a V register -/

/-- A write of register k in the lanes of a set, and going on, is the effect of an instruction that raises no flag. -/
theorem laneEffect_writeLanes (s : State) (k : Nat) (lanes : Mask) (v : Nat → W32) :
    LaneEffect s (s.setMe { s.me.writeLanes k lanes v with pc := s.me.pc + 12 }) (withV s k lanes v) (predsOf s) 0 := by
  have hsame := Caravan.writeLanes_same s.me k lanes v
  refine { only := onlyMe_setMe _ _, regs := ?_, preds := ?_, flags := ?_, pc := ?_, rest := ?_ }
  · intro r L hL
    rw [State.me_setMe]
    exact Caravan.writeLanes_reg s.me k lanes v r L hL
  · intro n L _
    simp [predsOf, Caravan.pred, hsame.preds]
  · simp [hsame.flags]
  · simp
  · simpa using hsame.rest

theorem once_writesLanes {i : Instr} {f : Fields} {s : State} {body : State → State} {k : Nat} {lanes : Mask}
    {v : Nat → W32} (h : OnceRuns i f s) (hs : sliceOnly i = false)
    (hb : body s = (s.setMe (s.me.writeLanes k lanes v)).advance) :
    NextLanes (issue i f false true body s) s (withV s k lanes v) (predsOf s) 0 := by
  have hsame := Caravan.writeLanes_same s.me k lanes v
  refine ⟨_, ?_, laneEffect_writeLanes s k lanes v⟩
  rw [issue_once false body h hs (by simp), hb, State.advance_setMe _ _ h.caravan, hsame.pc]
  exact congrArg Outcome.next (settle_setMe s _ h.runs hsame.st hsame.mask hsame.trap)

/-- The half of an S register that .HI selects. -/
theorem half_eq_extractLsb' (m : BitVec 10) (x : W64) :
    (if m = 0 then x.setWidth 32 else (x >>> 32).setWidth 32) =
      if m = 0 then x.extractLsb' 0 32 else x.extractLsb' 32 32 := by
  split <;> rfl

theorem s2v_writes_half {s : State} {f : Fields} (h : OnceRuns (.s2v f) f s) :
    NextLanes (exec (.s2v f) s) s (withV s f.d.vreg s.me.mask
      (fun _ => if f.m = 0 then (s.sreg f.a.sreg).extractLsb' 0 32 else (s.sreg f.a.sreg).extractLsb' 32 32))
      (predsOf s) 0 := by
  rw [← half_eq_extractLsb', exec_s2v]
  exact once_writesLanes h rfl rfl

/-! ## V2S: the lane that it reads -/

/-- The lowest lane of a mask is its member below which there is none. -/
theorem lowest_eq {W L : Nat} {m : Mask} (hW : L < W) (hL : m.getLsbD L = true)
    (hbelow : ∀ j, j < L → m.getLsbD j = false) :
    lowest W m = L := by
  obtain ⟨n, rfl⟩ : ∃ n, W = L + 1 + n := ⟨W - (L + 1), by omega⟩
  have hnone : (List.range L).filter (fun j => m.getLsbD j) = [] := by
    simpa using hbelow
  simp [lowest, lanesBelow, List.range_add, List.range_succ, hnone, hL]

/-- The lane whose register V2S reads (R248). -/
def v2sLane (s : State) (f : Fields) : Nat := if f.m = 0 then f.b.immU else s.lowLane

theorem v2s_reads_lane {s : State} {f : Fields} (h : OnceRuns (.v2s f) f s) (hW : v2sLane s f < s.me.width) :
    NextS (exec (.v2s f) s) s f ((s.src32 .int true f.a (v2sLane s f)).setWidth 64) := by
  rw [exec_v2s]
  exact once_setS h rfl (by simp) (if_neg (Nat.not_le.mpr hW))

theorem v2s_stops_beyond_width {s : State} {f : Fields} (h : OnceRuns (.v2s f) f s) (hW : s.me.width ≤ v2sLane s f) :
    exec (.v2s f) s = .next (stops s .resource) := by
  rw [exec_v2s]
  exact once_stops h rfl (by simp) (if_pos hW)

/-! ## Neither exists for an access slice (R94) -/

theorem issue_not_sliceMay {i : Instr} {f : Fields} {s : State} (priv once : Bool) (body : State → State)
    (hslice : s.cur.slice = true) (hmay : sliceMay i = false) :
    issue i f priv once body s = .next (s.raiseCv .illegalEncoding) := by
  simp [issue, hslice, hmay]

/-- Settles O7: one write of every active lane for S2V; for V2S, each form with the lane that it reads. -/
theorem scalarVectorMoves : Obligations.ScalarVectorMoves := by
  intro s f half
  refine ⟨s2v_writes_half, ?numbered, ?lowest, ?beyond, ?slice⟩
  case numbered =>
    intro h hm hW
    have hlane : f.b.immU = v2sLane s f := (if_pos hm).symm
    rw [hlane] at hW ⊢
    exact v2s_reads_lane h hW
  case lowest =>
    intro L h hm hW hL hbelow
    obtain rfl : v2sLane s f = L := (if_neg hm).trans (lowest_eq hW hL hbelow)
    exact v2s_reads_lane h hW
  case beyond =>
    intro h hm hW
    have hlane : f.b.immU = v2sLane s f := (if_pos hm).symm
    rw [hlane] at hW
    simpa [stops, h.caravan] using v2s_stops_beyond_width h hW
  case slice =>
    rw [List.forall_mem_cons, List.forall_mem_singleton, exec_s2v, exec_v2s]
    exact ⟨fun hslice => issue_not_sliceMay _ _ _ hslice rfl, fun hslice => issue_not_sliceMay _ _ _ hslice rfl⟩

end Sys2Proof.Proofs.ScalarVector
end

section
/-! SUPPORT. IADD, ISUB and IABS (R241): the exact result wrapped or clamped, with SAT. -/

namespace Sys2Proof.Proofs.IntegerSaturation

open Sys2Proof Sys2Proof.Machine
open Host (Outcome)

/-! ## The exact result, wrapped or clamped -/

/-- The exact result x as an instruction delivers it: wrapped, or under .SAT clamped to lo to hi, with SAT where that
changes it (R241). -/
def wrapOrClamp (sat : Prop) [Decidable sat] (lo hi x : Int) : W32 × Flag :=
  if sat then (BitVec.ofInt 32 (max lo (min hi x)), if x < lo ∨ hi < x then fSAT else 0) else (BitVec.ofInt 32 x, 0)

/-- The least and the greatest value of I32 (`signed`) and of U32 (R170). -/
def low32 (signed : Prop) [Decidable signed] : Int := if signed then -2 ^ 31 else 0
def high32 (signed : Prop) [Decidable signed] : Int := if signed then 2 ^ 31 - 1 else 2 ^ 32 - 1

theorem clamp_eq_max_min {lo hi : Int} (h : lo ≤ hi) (x : Int) : clamp lo hi x = max lo (min hi x) := by
  unfold clamp
  split
  · omega
  · split <;> omega

theorem satInt_eq {t : Nat} (x : Int) (h : (intRange t).1 ≤ (intRange t).2) :
    satInt t x = (max (intRange t).1 (min (intRange t).2 x),
      if x < (intRange t).1 ∨ (intRange t).2 < x then fSAT else 0) := by
  simp [satInt, flagIf, clamp_eq_max_min h]

theorem satW32_eq (signed : Prop) [Decidable signed] (x : Int) :
    satW32 (decide signed) x = wrapOrClamp True (low32 signed) (high32 signed) x := by
  by_cases h : signed
  · have hsat := satInt_eq (t := 8) x (by decide)
    simp [satW32, wrapOrClamp, low32, high32, h, hsat, intRange]
  · have hsat := satInt_eq (t := 9) x (by decide)
    simp [satW32, wrapOrClamp, low32, high32, h, hsat, intRange]

/-- The value of an I32 or U32 wraps to its own word. -/
theorem ofInt_asInt (sx : Bool) (a : W32) : BitVec.ofInt 32 (asInt sx a) = a := by
  cases sx <;> simp [asInt]

/-! ## The three functions -/

section
variable (sat signed : Prop) [Decidable sat] [Decidable signed] (a b : W32)

theorem addSat_eq : addSat (decide sat) (decide signed) a b =
    wrapOrClamp sat (low32 signed) (high32 signed) (asInt (decide signed) a + asInt (decide signed) b) := by
  by_cases h : sat
  · simp [addSat, h, satW32_eq]
  · simp [addSat, wrapOrClamp, h, BitVec.ofInt_add, ofInt_asInt]

theorem subSat_eq : subSat (decide sat) (decide signed) a b =
    wrapOrClamp sat (low32 signed) (high32 signed) (asInt (decide signed) a - asInt (decide signed) b) := by
  by_cases h : sat
  · simp [subSat, h, satW32_eq]
  · simp [subSat, wrapOrClamp, h, Int.sub_eq_add_neg, BitVec.sub_eq_add_neg, BitVec.ofInt_add, BitVec.ofInt_neg,
      ofInt_asInt]

theorem absSat_eq : absSat (decide sat) a = wrapOrClamp sat (low32 True) (high32 True) a.toInt.natAbs := by
  by_cases h : sat
  · simpa [absSat, wrapOrClamp, h] using satW32_eq True a.toInt.natAbs
  · simp only [absSat, wrapOrClamp, h, decide_false, Bool.false_eq_true, if_false, BitVec.ofInt_natCast]

/-- The one value whose absolute value is no I32. -/
theorem wrapOrClamp_two_pow_31 : wrapOrClamp sat (low32 True) (high32 True) (2 ^ 31) =
    if sat then (0x7FFFFFFF, fSAT) else (0x80000000, 0) := by
  by_cases h : sat
  · simp only [wrapOrClamp, h, if_true]; decide
  · simp only [wrapOrClamp, h, if_false]; decide

end

/-! ## The instructions -/

/-- Every lane that takes part gets g of its two sources, and its flags are raised. -/
theorem aluF_nextV {i : Instr} {f : Fields} {s : State} {g : W32 → W32 → W32 × Flag} {v : Nat → W32 × Flag}
    (h : LaneRuns i f s) (hs : sliceOnly i = false)
    (hv : ∀ L, g (s.src32 .int false f.a L) (s.src32 .int false f.b L) = v L) :
    NextV (issue i f false false (fun s => s.aluF f g) s) s f v := by
  obtain rfl : (fun L => g (s.src32 .int false f.a L) (s.src32 .int false f.b L)) = v := funext hv
  exact nextV_of_flags h hs rfl

theorem iadd_nextV {f : Fields} {s : State} (h : LaneRuns (.iadd f) f s) :
    NextV (exec (.iadd f) s) s f (fun L => wrapOrClamp (modBits f.m 9 1 = 1) (low32 (f.type = 8)) (high32 (f.type = 8))
      (asInt (isI32 f) (s.src32 .int false f.a L) + asInt (isI32 f) (s.src32 .int false f.b L))) := by
  rw [exec_iadd]
  exact aluF_nextV h rfl fun L => addSat_eq _ _ _ _

theorem isub_nextV {f : Fields} {s : State} (h : LaneRuns (.isub f) f s) :
    NextV (exec (.isub f) s) s f (fun L => wrapOrClamp (modBits f.m 9 1 = 1) (low32 (f.type = 8)) (high32 (f.type = 8))
      (asInt (isI32 f) (s.src32 .int false f.a L) - asInt (isI32 f) (s.src32 .int false f.b L))) := by
  rw [exec_isub]
  exact aluF_nextV h rfl fun L => subSat_eq _ _ _ _

theorem iabs_nextV {f : Fields} {s : State} (h : LaneRuns (.iabs f) f s) :
    NextV (exec (.iabs f) s) s f (fun L => wrapOrClamp (modBits f.m 9 1 = 1) (low32 True) (high32 True)
      (s.src32 .int false f.a L).toInt.natAbs) := by
  rw [exec_iabs]
  exact aluF_nextV h rfl fun L => absSat_eq _ _

/-- The value of a word in the instruction's type. -/
theorem asInt_isI32 (f : Fields) (x : W32) :
    asInt (isI32 f) x = if f.type = 8 then x.toInt else (x.toNat : Int) := by
  simp [asInt, isI32]

end Sys2Proof.Proofs.IntegerSaturation
end

section
/-! SUPPORT. The control, scalar, lane and predicate instructions, and those of the integer class other than IADD, ISUB and
IABS, raise no flag (R167, R241); the statement about saturation. -/

namespace Sys2Proof.Proofs.ChapterFlags

open Sys2Proof Sys2Proof.Machine Sys2Proof.Proofs.IntegerSaturation
open Host (Outcome)

/-! ## The bodies of the lane instructions -/

/-- A body raises no flag of any caravan. -/
def KeepsFlags (body : State → State) : Prop := ∀ s, SameFlags s (body s)

theorem putV_keepsFlags {f : Fields} {v : State → Nat → W32} : KeepsFlags (fun s => (s.putV f (v s)).advance) :=
  fun s => State.advance_flags _ (State.putV_flags s f _ (SameFlags.refl s))

theorem putV64_keepsFlags {f : Fields} {v : State → Nat → W64} : KeepsFlags (fun s => (s.putV64 f (v s)).advance) :=
  fun s => State.advance_flags _ (State.putV64_flags s f _ (SameFlags.refl s))

theorem putP_keepsFlags {f : Fields} {n : Nat} {v : State → Nat → Bool} :
    KeepsFlags (fun s => (s.putP n f (v s)).advance) :=
  fun s => State.advance_flags _ (State.putP_flags s n f _ (SameFlags.refl s))

theorem alu_keepsFlags {f : Fields} {zero : Bool} {g : W32 → W32 → W32 → W32} : KeepsFlags (fun s => s.alu f zero g) :=
  putV_keepsFlags (v := fun s L => g (s.me.reg f.d.vreg L) (s.src32 .int zero f.a L) (s.src32 .int zero f.b L))

theorem alu64_keepsFlags {f : Fields} {g : State → W64 → Nat → W64} : KeepsFlags (fun s => s.alu64 f (g s)) :=
  putV64_keepsFlags (v := fun s L => g s (s.me.reg64 f.d.vreg L) L)

theorem aluC_keepsFlags {f : Fields} {g : W32 → W32 → Nat → W32 × Bool} : KeepsFlags (fun s => s.aluC f g) :=
  fun s => State.advance_flags _ (State.putP_flags _ _ f _ (State.putV_flags s f _ (SameFlags.refl s)))

theorem ite_keepsFlags {c : Prop} [Decidable c] {p q : State → State} (hp : KeepsFlags p) (hq : KeepsFlags q) :
    KeepsFlags (fun s => if c then p s else q s) :=
  fun s => flags_if (hp s) (hq s)

/-! ## The instructions -/

/-- An instruction whose body raises no flag raises none, for any outcome of the checks of R221. -/
theorem exec_flags {i : Instr} {f : Fields} {s : State} {body : State → State}
    (he : exec i s = issue i f false false body s) (hb : KeepsFlags body) : FlagsN s (exec i s) := by
  rw [he]
  exact issue_flags (SameFlags.refl s) (hb s)

theorem pmov_flags (f : Fields) (s : State) : FlagsN s (exec (.pmov f) s) := by
  refine exec_flags (exec_pmov s f) fun s => State.advance_flags _ ?_
  split
  · exact State.putP_flags s _ f _ (SameFlags.refl s)
  · exact State.putP_flags s _ f _ (SameFlags.refl s)
  · exact State.putV_flags s f _ (SameFlags.refl s)

theorem integerClass_flags (f : Fields) (s : State) :
    ∀ i ∈ [Instr.imul f, .imulh f, .imad f, .imin f, .imax f, .iaddc f, .isubb f, .shl f, .shr f, .sar f, .rotl f, .andI f,
      .orI f, .xorI f, .andn f, .notI f, .ttab f, .bfe f, .bfi f, .popc f, .clz f, .brev f, .prmt f, .iset f, .iadd64 f,
      .imad64 f, .sel f, .mov f, .movi f], FlagsN s (exec i s) := by
  simp only [List.forall_mem_cons]
  exact ⟨exec_flags (exec_imul s f) alu_keepsFlags, exec_flags (exec_imulh s f) alu_keepsFlags,
    exec_flags (exec_imad s f) alu_keepsFlags, exec_flags (exec_imin s f) alu_keepsFlags,
    exec_flags (exec_imax s f) alu_keepsFlags, exec_flags (exec_iaddc s f) aluC_keepsFlags,
    exec_flags (exec_isubb s f) aluC_keepsFlags, exec_flags (exec_shl s f) alu_keepsFlags,
    exec_flags (exec_shr s f) alu_keepsFlags, exec_flags (exec_sar s f) alu_keepsFlags,
    exec_flags (exec_rotl s f) alu_keepsFlags, exec_flags (exec_andI s f) alu_keepsFlags,
    exec_flags (exec_orI s f) alu_keepsFlags, exec_flags (exec_xorI s f) alu_keepsFlags,
    exec_flags (exec_andn s f) alu_keepsFlags, exec_flags (exec_notI s f) alu_keepsFlags,
    exec_flags (exec_ttab s f) alu_keepsFlags, exec_flags (exec_bfe s f) alu_keepsFlags,
    exec_flags (exec_bfi s f) alu_keepsFlags, exec_flags (exec_popc s f) alu_keepsFlags,
    exec_flags (exec_clz s f) alu_keepsFlags, exec_flags (exec_brev s f) alu_keepsFlags,
    exec_flags (exec_prmt s f) alu_keepsFlags, exec_flags (exec_iset s f) putP_keepsFlags,
    exec_flags (exec_iadd64 s f) alu64_keepsFlags, exec_flags (exec_imad64 s f) alu64_keepsFlags,
    exec_flags (exec_sel s f) putV_keepsFlags,
    exec_flags (exec_mov s f) (ite_keepsFlags putV_keepsFlags putV64_keepsFlags),
    exec_flags (exec_movi s f) putV_keepsFlags, List.forall_mem_nil _⟩

theorem laneClass_flags (f : Fields) (s : State) :
    ∀ i ∈ [Instr.plop f, .pmov f, .ballot f, .vote f, .laneid f, .shfl f, .redux f, .scan f, .matchLanes f, .firstLane f],
      FlagsN s (exec i s) := by
  simp only [List.forall_mem_cons]
  exact ⟨exec_flags (exec_plop s f) putP_keepsFlags, pmov_flags f s,
    exec_flags (exec_ballot s f) putV_keepsFlags, exec_flags (exec_vote s f) putP_keepsFlags,
    exec_flags (exec_laneid s f) putV_keepsFlags, exec_flags (exec_shfl s f) putV_keepsFlags,
    exec_flags (exec_redux s f) putV_keepsFlags, exec_flags (exec_scan s f) putV_keepsFlags,
    exec_flags (exec_matchLanes s f) putV_keepsFlags, exec_flags (exec_firstLane s f) putV_keepsFlags, List.forall_mem_nil _⟩

theorem controlClass_flags (f : Fields) (s : State) :
    ∀ i ∈ [Instr.nop f, .bra f, .brx f, .call f, .ret f, .brany f, .brall f, .reconv f, .exitI f, .yield f, .sleep f, .trap f,
      .brk f, .mskget f, .mskset f], FlagsN s (exec i s) := by
  have h := SameFlags.refl s
  simp only [List.forall_mem_cons]
  exact ⟨execNop_flags f s h, execBra_flags f s h, execBrx_flags f s h, execCall_flags f s h, execRet_flags f s h,
    execBrany_flags f s h, execBrall_flags f s h, execReconv_flags f s h, execExitI_flags f s h, execYield_flags f s h,
    execSleep_flags f s h, execTrap_flags f s h, execBrk_flags f s h, execMskget_flags f s h,
    execMskset_flags f s h, List.forall_mem_nil _⟩

theorem scalarClass_flags (f : Fields) (s : State) :
    ∀ i ∈ [Instr.smov f, .smovi f, .sadd f, .ssub f, .smul f, .sand f, .sor f, .sxor f, .sshl f, .sshr f, .sset f, .ssel f,
      .sld f, .sst f, .s2v f, .v2s f], FlagsN s (exec i s) := by
  have h := SameFlags.refl s
  simp only [List.forall_mem_cons]
  exact ⟨execSmov_flags f s h, execSmovi_flags f s h, execSadd_flags f s h, execSsub_flags f s h, execSmul_flags f s h,
    execSand_flags f s h, execSor_flags f s h, execSxor_flags f s h, execSshl_flags f s h, execSshr_flags f s h,
    execSset_flags f s h, execSsel_flags f s h, execSld_flags f s h, execSst_flags f s h, execS2v_flags f s h,
    execV2s_flags f s h, List.forall_mem_nil _⟩

/-- Settles O2: the model's saturating functions are the exact result wrapped or clamped, and the class lemmas above say
that no other instruction of the chapter touches FLAGS. -/
theorem integerSaturates : Obligations.IntegerSaturates := by
  intro s f val lo hi out a b
  refine ⟨?iadd, ?isub, iabs_nextV, wrapOrClamp_two_pow_31 _, ?lanes, ?once⟩
  case iadd =>
    intro h
    have hadd := iadd_nextV h
    simp only [asInt_isI32] at hadd
    exact hadd
  case isub =>
    intro h
    have hsub := isub_nextV h
    simp only [asInt_isI32] at hsub
    exact hsub
  case lanes =>
    intro i hi _ t ht
    exact flags_me (List.forall_mem_append.2 ⟨integerClass_flags f s, laneClass_flags f s⟩ i hi t ht)
  case once =>
    intro i hi _ t ht
    exact flags_me (List.forall_mem_append.2 ⟨controlClass_flags f s, scalarClass_flags f s⟩ i hi t ht)

end Sys2Proof.Proofs.ChapterFlags
end

section
/-! SUPPORT. The words of a floating-point format (R163) and what decode_fp (R176) reads from them. -/

namespace Sys2Proof.Proofs.FloatWords

open Sys2Proof Sys2Proof.Machine

/-! ## The three fields of a word -/

/-- The word of a sign, an exponent field and a fraction field (R163). -/
def pack (f : Fmt) (neg : Bool) (ex fr : Nat) : Nat := f.signBit neg + (ex * 2 ^ f.fbits + fr)

theorem signBit_eq_mul (f : Fmt) (neg : Bool) : f.signBit neg = 2 ^ f.fbits * (2 ^ f.ebits * neg.toNat) := by
  cases neg <;> simp [Fmt.signBit, pow_add, Nat.mul_comm]

theorem pack_eq_mul_add (f : Fmt) (neg : Bool) (ex fr : Nat) :
    pack f neg ex fr = 2 ^ f.fbits * (2 ^ f.ebits * neg.toNat + ex) + fr := by
  rw [pack, signBit_eq_mul]; ring

section
variable {f : Fmt} {neg : Bool} {ex fr x : Nat}

/-- The upper two fields of a packed word. -/
theorem pack_div_two_pow (hfr : fr < 2 ^ f.fbits) : pack f neg ex fr / 2 ^ f.fbits = 2 ^ f.ebits * neg.toNat + ex := by
  rw [pack_eq_mul_add, Nat.mul_add_div (by positivity), Nat.div_eq_of_lt hfr, Nat.add_zero]

theorem field_frac_pack (hfr : fr < 2 ^ f.fbits) : field (pack f neg ex fr) 0 f.fbits = fr := by
  simp [field, pack_eq_mul_add, Nat.mod_eq_of_lt hfr]

theorem field_exp_pack (hex : ex < 2 ^ f.ebits) (hfr : fr < 2 ^ f.fbits) :
    field (pack f neg ex fr) f.fbits f.ebits = ex := by
  rw [field, pack_div_two_pow hfr, Nat.mul_add_mod, Nat.mod_eq_of_lt hex]

theorem field_sign_pack (hex : ex < 2 ^ f.ebits) (hfr : fr < 2 ^ f.fbits) :
    field (pack f neg ex fr) (f.ebits + f.fbits) 1 = neg.toNat := by
  rw [field, Nat.add_comm, pow_add, ← Nat.div_div_eq_div_mul, pack_div_two_pow hfr, Nat.mul_add_div (by positivity),
    Nat.div_eq_of_lt hex]
  cases neg <;> rfl

theorem two_pow_width (f : Fmt) : 2 ^ f.width = 2 ^ f.fbits * (2 ^ f.ebits * 2) := by
  rw [Fmt.width]; ring

theorem pack_lt (hex : ex < 2 ^ f.ebits) (hfr : fr < 2 ^ f.fbits) : pack f neg ex fr < 2 ^ f.width := by
  have hupper : 2 ^ f.ebits * neg.toNat + ex + 1 ≤ 2 ^ f.ebits * 2 := by
    cases neg <;> simp only [Bool.toNat_false, Bool.toNat_true] <;> omega
  calc pack f neg ex fr
    _ < 2 ^ f.fbits * (2 ^ f.ebits * neg.toNat + ex + 1) := by rw [pack_eq_mul_add, Nat.mul_succ]; omega
    _ ≤ 2 ^ f.fbits * (2 ^ f.ebits * 2) := Nat.mul_le_mul_left _ hupper
    _ = 2 ^ f.width := (two_pow_width f).symm

/-- Every word is packed of a sign and two fields. -/
theorem exists_eq_pack (hx : x < 2 ^ f.width) :
    ∃ neg ex fr, ex < 2 ^ f.ebits ∧ fr < 2 ^ f.fbits ∧ x = pack f neg ex fr := by
  have htop : x / 2 ^ f.fbits / 2 ^ f.ebits < 2 := by
    rw [two_pow_width] at hx
    exact Nat.div_lt_of_lt_mul (Nat.div_lt_of_lt_mul hx)
  refine ⟨decide (x / 2 ^ f.fbits / 2 ^ f.ebits = 1), x / 2 ^ f.fbits % 2 ^ f.ebits, x % 2 ^ f.fbits,
    Nat.mod_lt _ (by positivity), Nat.mod_lt _ (by positivity), ?_⟩
  have hsign : (decide (x / 2 ^ f.fbits / 2 ^ f.ebits = 1)).toNat = x / 2 ^ f.fbits / 2 ^ f.ebits := by
    rcases Nat.lt_succ_iff_lt_or_eq.mp htop with h | h
    · simp [Nat.lt_one_iff.mp h]
    · simp [h]
  rw [pack_eq_mul_add, hsign, Nat.div_add_mod, Nat.div_add_mod]

/-! ## What decode_fp reads -/

/-- decode_fp of a packed word, case by case of its exponent field. -/
theorem decodeFp_pack (hex : ex < 2 ^ f.ebits) (hfr : fr < 2 ^ f.fbits) :
    decodeFp f (pack f neg ex fr) =
      if ex = 2 ^ f.ebits - 1 then (if fr = 0 then .inf neg else .nan (fr < 2 ^ (f.fbits - 1)))
      else if ex = 0 then .fin neg fr f.qmin
      else .fin neg (2 ^ f.fbits + fr) (f.qmin + (ex - 1 : Nat)) := by
  have hneg : decide (neg.toNat = 1) = neg := by cases neg <;> rfl
  simp only [decodeFp, field_sign_pack hex hfr, field_exp_pack hex hfr, field_frac_pack hfr, hneg]

theorem eq_infinity_of_decodeFp (hx : x < 2 ^ f.width) (h : decodeFp f x = .inf neg) : x = f.infinity neg := by
  obtain ⟨neg', ex, fr, hex, hfr, rfl⟩ := exists_eq_pack hx
  rw [decodeFp_pack hex hfr] at h
  split_ifs at h with hinf hzero
  obtain rfl : neg' = neg := Val.inf.inj h
  rw [pack, hinf, hzero, Nat.add_zero, Fmt.infinity]

theorem eq_signBit_of_decodeFp {e : Int} (hx : x < 2 ^ f.width) (h : decodeFp f x = .fin neg 0 e) : x = f.signBit neg := by
  obtain ⟨neg', ex, fr, hex, hfr, rfl⟩ := exists_eq_pack hx
  rw [decodeFp_pack hex hfr] at h
  split_ifs at h with _ _ hzero
  · obtain ⟨rfl, rfl, _⟩ := Val.fin.inj h
    simp [pack, hzero]
  · obtain ⟨_, hm, _⟩ := Val.fin.inj h
    exact absurd hm (by positivity)

end

/-! ## The finite values of a format -/

/-- Exponent of the last place of the largest finite values. -/
def qmax (f : Fmt) : Int := (f.bias : Int) - f.fbits

section
variable {f : Fmt} {neg : Bool} {x m : Nat} {e : Int} (hE : 2 ≤ f.ebits)
include hE

theorem two_pow_ebits_eq : 2 ^ f.ebits = 2 * f.bias + 2 := by
  obtain ⟨n, hn⟩ := Nat.exists_eq_add_of_le hE
  have hpos : 0 < 2 ^ n := by positivity
  rw [Fmt.bias, hn, show 2 + n - 1 = n + 1 by omega, pow_add, pow_succ]
  omega

theorem one_le_bias : 1 ≤ f.bias := by
  have h4 : 2 ^ 2 ≤ 2 ^ f.ebits := Nat.pow_le_pow_right (by decide) hE
  have := two_pow_ebits_eq hE
  omega

theorem qmin_le_qmax : f.qmin ≤ qmax f := by
  have := one_le_bias hE
  unfold Fmt.qmin qmax
  omega

/-- The digits and the exponent of a finite value of the format. -/
theorem bounds_of_decodeFp (hx : x < 2 ^ f.width) (h : decodeFp f x = .fin neg m e) :
    m < 2 ^ (f.fbits + 1) ∧ f.qmin ≤ e ∧ e ≤ qmax f := by
  obtain ⟨neg', ex, fr, hex, hfr, rfl⟩ := exists_eq_pack hx
  have hexp := two_pow_ebits_eq hE
  have hbias := one_le_bias hE
  rw [decodeFp_pack hex hfr] at h
  rw [pow_succ]
  unfold qmax
  split_ifs at h with hinf _ hzero <;>
  · obtain ⟨_, rfl, rfl⟩ := Val.fin.inj h
    simp only [Fmt.qmin]
    omega

/-- A number of last places at q that a word can hold: no more digits than the format has, and fewer only at the exponent
of the subnormals. -/
structure Normalized (f : Fmt) (g : Nat) (q : Int) : Prop where
  digits : g < 2 ^ (f.fbits + 1)
  low    : f.qmin ≤ q
  high   : q ≤ qmax f
  full   : q = f.qmin ∨ 2 ^ f.fbits ≤ g

/-- The lower two fields of the word of the value g·2^q. -/
def finiteBits (f : Fmt) (g : Nat) (q : Int) : Nat :=
  if g < 2 ^ f.fbits then g else (q - f.qmin + 1).toNat * 2 ^ f.fbits + (g - 2 ^ f.fbits)

/-- The word of a value is packed of the value's fields, and decode_fp reads the value back. -/
theorem exists_pack_of_normalized (neg : Bool) {g : Nat} {q : Int} (h : Normalized f g q) :
    ∃ ex fr, ex < 2 ^ f.ebits ∧ fr < 2 ^ f.fbits ∧ f.signBit neg + finiteBits f g q = pack f neg ex fr ∧
      decodeFp f (pack f neg ex fr) = .fin neg g q := by
  obtain ⟨hdigits, hlow, hhigh, hfull⟩ := h
  have hexp := two_pow_ebits_eq hE
  by_cases hg : g < 2 ^ f.fbits
  case pos =>
    obtain rfl : q = f.qmin := hfull.resolve_right (by omega)
    refine ⟨0, g, by positivity, hg, by simp [pack, finiteBits, hg], ?_⟩
    rw [decodeFp_pack (by positivity) hg, if_neg (by omega), if_pos rfl]
  case neg =>
    have hex : (q - f.qmin + 1).toNat ≤ 2 * f.bias := by unfold qmax at hhigh; unfold Fmt.qmin; omega
    have hfr : g - 2 ^ f.fbits < 2 ^ f.fbits := by rw [pow_succ] at hdigits; omega
    refine ⟨(q - f.qmin + 1).toNat, g - 2 ^ f.fbits, by omega, hfr, by simp [pack, finiteBits, hg], ?_⟩
    rw [decodeFp_pack (by omega) hfr, if_neg (by omega), if_neg (by omega), Nat.add_sub_cancel' (by omega)]
    congr 1
    omega

theorem decodeFp_finiteBits (neg : Bool) {g : Nat} {q : Int} (h : Normalized f g q) :
    decodeFp f (f.signBit neg + finiteBits f g q) = .fin neg g q := by
  obtain ⟨ex, fr, _, _, hword, hvalue⟩ := exists_pack_of_normalized hE neg h
  rw [hword, hvalue]

theorem finiteBits_lt (neg : Bool) {g : Nat} {q : Int} (h : Normalized f g q) :
    f.signBit neg + finiteBits f g q < 2 ^ f.width := by
  obtain ⟨ex, fr, hex, hfr, hword, _⟩ := exists_pack_of_normalized hE neg h
  rw [hword]
  exact pack_lt hex hfr

end
end Sys2Proof.Proofs.FloatWords
end

section
/-! SUPPORT. round_fp and round_int of R176: values that need no rounding, results that overflow, and values below the half
of the least subnormal (R165). -/

namespace Sys2Proof.Proofs.FloatRounding

open Sys2Proof Sys2Proof.Machine Sys2Proof.Proofs.FloatWords

/-! ## The number of binary digits -/

theorem digits_le_iff {m n : Nat} : digits m ≤ n ↔ m < 2 ^ n := by
  unfold digits
  split
  case isTrue h => simp [h]
  case isFalse h => rw [Nat.succ_le_iff, Nat.log2_lt h]

theorem lt_digits_iff {m n : Nat} : n < digits m ↔ 2 ^ n ≤ m := by
  rw [← not_le, digits_le_iff, not_lt]

theorem digits_pos {m : Nat} (hm : m ≠ 0) : 0 < digits m := lt_digits_iff.2 (Nat.one_le_iff_ne_zero.2 hm)

theorem digits_mul_two_pow {m : Nat} (hm : m ≠ 0) (k : Nat) : digits (m * 2 ^ k) = digits m + k := by
  have hpos := digits_pos hm
  apply le_antisymm
  · rw [digits_le_iff, pow_add]
    exact Nat.mul_lt_mul_of_pos_right (digits_le_iff.1 le_rfl) (by positivity)
  · suffices digits m - 1 + k < digits (m * 2 ^ k) by omega
    rw [lt_digits_iff, pow_add]
    exact Nat.mul_le_mul_right _ (lt_digits_iff.1 (by omega))

/-! ## One rounding (R165) -/

/-- A remainder of zero is never rounded up. -/
theorem roundUp_zero (rm : Nat) (neg odd : Bool) {half : Nat} (hhalf : half ≠ 0) :
    roundUp rm neg odd 0 half = false := by
  unfold roundUp
  split <;> simp [hhalf.symm]

/-- Below the half of what is discarded, only the directed modes go up, and they do so for every remainder. -/
theorem roundUp_of_lt_half (rm : Nat) (neg : Bool) {rem half : Nat} (hrem : rem ≠ 0) (hlt : rem < half) :
    roundUp rm neg false rem half = roundUp rm neg false 1 2 := by
  unfold roundUp
  split <;> simp [hrem, hlt.le]

section
variable {rm : Nat} {neg : Bool} {m k : Nat} {e q : Int}

theorem roundAt_of_le (h : q ≤ e) : roundAt rm neg m e q = (m * 2 ^ (e - q).toNat, false) := if_pos h

theorem roundAt_of_lt (h : q = e + k) (hk : k ≠ 0) :
    roundAt rm neg m e q =
      (if roundUp rm neg (m / 2 ^ k % 2 = 1) (m % 2 ^ k) (2 ^ (k - 1)) then m / 2 ^ k + 1 else m / 2 ^ k,
        decide (m % 2 ^ k ≠ 0)) := by
  obtain rfl : (q - e).toNat = k := by omega
  exact if_neg (by omega)

/-- A whole number of last places is kept. -/
theorem roundAt_mul_two_pow (c j : Nat) (hq : q ≤ e + j) :
    roundAt rm neg (c * 2 ^ j) e q = (c * 2 ^ (e + j - q).toNat, false) := by
  rcases le_or_gt q e with hle | hlt
  · rw [roundAt_of_le hle, Nat.mul_assoc, ← pow_add]
    congr 3
    omega
  · obtain ⟨k, rfl⟩ := Int.le.dest hlt.le
    obtain ⟨i, rfl⟩ : ∃ i, j = i + k := ⟨j - k, by omega⟩
    rw [roundAt_of_lt rfl (by omega), pow_add, ← Nat.mul_assoc, Nat.mul_mod_left, Nat.mul_div_cancel _ (by positivity),
      roundUp_zero _ _ _ (by positivity), show (e + (i + k : Nat) - (e + k)).toNat = i by omega]
    simp

/-- A change is reported exactly where the value changes. -/
theorem roundAt_changed_iff :
    (roundAt rm neg m e q).2 = true ↔ ((roundAt rm neg m e q).1 : ℚ) * 2 ^ q ≠ (m : ℚ) * 2 ^ e := by
  rcases le_or_gt q e with hle | hlt
  · obtain ⟨k, rfl⟩ := Int.le.dest hle
    rw [roundAt_of_le hle]
    simp [zpow_add₀, mul_left_comm, mul_comm]
  · obtain ⟨k, rfl⟩ := Int.le.dest hlt.le
    have hvalue (g : Nat) : (g : ℚ) * 2 ^ (e + k) = m * 2 ^ e ↔ g * 2 ^ k = m := by
      rw [zpow_add₀ two_ne_zero, zpow_natCast, mul_comm (2 ^ e : ℚ), ← mul_assoc, mul_left_inj' (by positivity)]
      exact_mod_cast Iff.rfl
    rw [roundAt_of_lt rfl (by omega)]
    dsimp only
    rw [decide_eq_true_eq, ne_eq, ne_eq, hvalue, not_iff_not]
    have hdiv := Nat.div_add_mod' m (2 ^ k)
    have hmod : m % 2 ^ k < 2 ^ k := Nat.mod_lt _ (by positivity)
    constructor
    · intro h
      rw [h, roundUp_zero _ _ _ (by positivity)]
      rwa [h] at hdiv
    · intro h
      split at h
      · rw [Nat.succ_mul] at h; omega
      · omega

end

/-! ## round_fp -/

/-- Exponent of the last place of a result with all the digits of the format, the exponent being unbounded. -/
def fullPlace (f : Fmt) (m : Nat) (e : Int) : Int := e + digits m - (f.fbits + 1 : Nat)

/-- Tininess after rounding, with unbounded exponent (R165). -/
def tiny (f : Fmt) (rm : Nat) (neg : Bool) (m : Nat) (e : Int) : Bool :=
  fullPlace f m e < f.qmin &&
    !((roundAt rm neg m e (fullPlace f m e)).1 = 2 ^ (f.fbits + 1) && fullPlace f m e + 1 = f.qmin)

/-- Exponent of the last place of the result, before a carry out of its digits. -/
def lastPlace (f : Fmt) (m : Nat) (e : Int) : Int := max (fullPlace f m e) f.qmin

/-- A carry out of the digits of the format moves the last place. -/
def carry (f : Fmt) (g : Nat) (q : Int) : Nat × Int :=
  if g = 2 ^ (f.fbits + 1) then (2 ^ f.fbits, q + 1) else (g, q)

/-- The word and the flags of an overflow, by mode and sign (R165). -/
def overflowed (f : Fmt) (rm : Nat) (neg : Bool) : Nat × Flag :=
  (if rm = 0 || (rm = 2 && !neg) || (rm = 3 && neg) then f.infinity neg else f.largest neg, fOF ||| fNX)

/-- The word and the flags of g·2^q, where `x` says that rounding changed the value. -/
def delivered (f : Fmt) (rm : Nat) (neg x small : Bool) (g : Nat) (q : Int) : Nat × Flag :=
  if q > qmax f && g ≥ 2 ^ f.fbits then overflowed f rm neg
  else (f.signBit neg + finiteBits f g q, flagIf x fNX ||| flagIf (small && x) fUF)

section
variable {f : Fmt} {rm : Nat} {neg : Bool} {m : Nat} {e : Int}

theorem roundFp_zero : roundFp f rm neg 0 e = (f.signBit neg, 0) := rfl

/-- round_fp of a value other than zero: one rounding at the last place, the carry, and the word. -/
theorem roundFp_eq_delivered (hm : m ≠ 0) :
    roundFp f rm neg m e =
      delivered f rm neg (roundAt rm neg m e (lastPlace f m e)).2 (tiny f rm neg m e)
        (carry f (roundAt rm neg m e (lastPlace f m e)).1 (lastPlace f m e)).1
        (carry f (roundAt rm neg m e (lastPlace f m e)).1 (lastPlace f m e)).2 := by
  rw [roundFp, if_neg (by simpa using hm)]
  rfl

/-- round_fp where the rounded value has a word. -/
theorem roundFp_of_normalized {g : Nat} {x : Bool} (hm : m ≠ 0) (hr : roundAt rm neg m e (lastPlace f m e) = (g, x))
    (hg : Normalized f g (lastPlace f m e)) :
    roundFp f rm neg m e = (f.signBit neg + finiteBits f g (lastPlace f m e),
      flagIf x fNX ||| flagIf (tiny f rm neg m e && x) fUF) := by
  rw [roundFp_eq_delivered hm, hr, carry, if_neg hg.digits.ne, delivered, if_neg]
  simp [hg.high.not_gt]

/-! ## Values of the format -/

/-- A rounding at the last place that keeps the value c·2^j gives it the digits of a word. -/
theorem normalized_mul_two_pow {c j : Nat} (hne : c ≠ 0) (hc : c < 2 ^ (f.fbits + 1)) (hlow : f.qmin ≤ e + j)
    (hhigh : e + j ≤ qmax f) :
    lastPlace f (c * 2 ^ j) e ≤ e + j ∧
      Normalized f (c * 2 ^ (e + j - lastPlace f (c * 2 ^ j) e).toNat) (lastPlace f (c * 2 ^ j) e) := by
  have hdigits : digits c ≤ f.fbits + 1 := digits_le_iff.2 hc
  have hplace : lastPlace f (c * 2 ^ j) e = max (e + j + digits c - (f.fbits + 1 : Nat)) f.qmin := by
    rw [lastPlace, fullPlace, digits_mul_two_pow hne]
    congr 1
    omega
  generalize lastPlace f (c * 2 ^ j) e = q at hplace ⊢
  have hq : q ≤ e + j := by omega
  refine ⟨hq, ?_, by omega, hq.trans hhigh, ?_⟩
  · rw [← digits_le_iff, digits_mul_two_pow hne]
    omega
  · rw [← lt_digits_iff, digits_mul_two_pow hne]
    omega

/-- Rounding keeps a value c·2^(j+e) that the format holds, and raises nothing. -/
theorem roundFp_mul_two_pow (rm : Nat) (neg : Bool) {c j : Nat} (hc : c < 2 ^ (f.fbits + 1)) (hlow : f.qmin ≤ e + j)
    (hhigh : e + j ≤ qmax f) :
    ∃ g q, Normalized f g q ∧ (g : ℚ) * 2 ^ q = ((c * 2 ^ j : Nat) : ℚ) * 2 ^ e ∧
      roundFp f rm neg (c * 2 ^ j) e = (f.signBit neg + finiteBits f g q, 0) := by
  rcases eq_or_ne c 0 with rfl | hne
  · refine ⟨0, f.qmin, ⟨by positivity, le_rfl, hlow.trans hhigh, .inl rfl⟩, by simp, ?_⟩
    rw [Nat.zero_mul, roundFp_zero]
    simp [finiteBits]
  · obtain ⟨hq, hg⟩ := normalized_mul_two_pow hne hc hlow hhigh
    have hround := roundAt_mul_two_pow (rm := rm) (neg := neg) c j hq
    refine ⟨_, _, hg, ?_, ?_⟩
    · have hkept := roundAt_changed_iff.not.1 ((congrArg Prod.snd hround).trans_ne Bool.false_ne_true)
      rwa [hround, not_not] at hkept
    · rw [roundFp_of_normalized (by positivity) hround hg]
      simp [flagIf]

/-! ## Overflow -/

/-- A result with all the digits of the format has them after rounding. -/
theorem two_pow_le_roundAt_fullPlace (hm : m ≠ 0) : 2 ^ f.fbits ≤ (roundAt rm neg m e (fullPlace f m e)).1 := by
  have hplace : fullPlace f m e = e + digits m - (f.fbits + 1 : Nat) := rfl
  generalize fullPlace f m e = q at hplace ⊢
  rcases le_or_gt q e with hle | hlt
  · rw [roundAt_of_le hle, ← lt_digits_iff, digits_mul_two_pow hm]
    omega
  · obtain ⟨k, rfl⟩ := Int.le.dest hlt.le
    have hkept : 2 ^ f.fbits ≤ m / 2 ^ k := by
      rw [Nat.le_div_iff_mul_le (by positivity), ← pow_add, ← lt_digits_iff]
      omega
    rw [roundAt_of_lt rfl (by omega)]
    dsimp only
    split <;> omega

theorem le_carry {g : Nat} {q : Int} (hg : 2 ^ f.fbits ≤ g) : 2 ^ f.fbits ≤ (carry f g q).1 ∧ q ≤ (carry f g q).2 := by
  unfold carry
  split
  · exact ⟨le_rfl, by simp⟩
  · exact ⟨hg, le_rfl⟩

/-- A value whose last place lies beyond that of the largest finite values overflows. -/
theorem roundFp_of_qmax_lt (hE : 2 ≤ f.ebits) (hm : m ≠ 0) (h : qmax f < fullPlace f m e) :
    roundFp f rm neg m e = overflowed f rm neg := by
  have hplace : lastPlace f m e = fullPlace f m e := max_eq_left ((qmin_le_qmax hE).trans h.le)
  have hfull : 2 ^ f.fbits ≤ (roundAt rm neg m e (fullPlace f m e)).1 := two_pow_le_roundAt_fullPlace hm
  obtain ⟨hdigits, hq⟩ := le_carry (q := fullPlace f m e) hfull
  rw [roundFp_eq_delivered hm, hplace, delivered, if_pos]
  simp [h.trans_le hq, hdigits]

/-! ## Below the half of the least subnormal -/

/-- All that is kept of a value below the half of the last place is the mode's decision. -/
theorem roundAt_of_digits_lt {q : Int} (hm : m ≠ 0) (h : e + digits m < q) :
    roundAt rm neg m e q = (if roundUp rm neg false 1 2 then 1 else 0, true) := by
  obtain ⟨k, rfl⟩ : ∃ k : Nat, q = e + (k + 1 : Nat) := ⟨(q - e - 1).toNat, by omega⟩
  have hhalf : m < 2 ^ k := digits_le_iff.1 (by omega)
  have hlt : m < 2 ^ (k + 1) := hhalf.trans (Nat.pow_lt_pow_succ (by decide))
  rw [roundAt_of_lt rfl (by omega), Nat.mod_eq_of_lt hlt, Nat.div_eq_of_lt hlt, Nat.add_sub_cancel, Nat.zero_mod,
    ← roundUp_of_lt_half rm neg hm hhalf]
  simp [hm]

/-- A value below the half of the least subnormal underflows, to a word that depends only on its sign and the mode. -/
theorem roundFp_of_lt_qmin (hE : 2 ≤ f.ebits) (hm : m ≠ 0) (h : e + digits m < f.qmin) :
    roundFp f rm neg m e =
      (f.signBit neg + finiteBits f (if roundUp rm neg false 1 2 then 1 else 0) f.qmin, fNX ||| fUF) := by
  have hfull : fullPlace f m e + 1 < f.qmin := by unfold fullPlace; omega
  have hplace : lastPlace f m e = f.qmin := max_eq_right (by omega)
  have htiny : tiny f rm neg m e = true := by simp [tiny, hfull.ne]; omega
  have hround := roundAt_of_digits_lt (rm := rm) (neg := neg) hm h
  rw [← hplace] at hround
  rw [roundFp_of_normalized hm hround, hplace, htiny]
  · rfl
  · rw [hplace]
    refine ⟨?_, le_rfl, qmin_le_qmax hE, .inl rfl⟩
    have htwo : 2 ≤ 2 ^ (f.fbits + 1) := Nat.le_self_pow (by omega) 2
    split <;> omega

end
end Sys2Proof.Proofs.FloatRounding
end

section
/-! SUPPORT. FRND and FSCL (R257, R258): the functions case by case, and the statements about both. -/

namespace Sys2Proof.Proofs.RoundAndScale

open Sys2Proof Sys2Proof.Machine Sys2Proof.Proofs.FloatWords Sys2Proof.Proofs.FloatRounding

/-! ## FP32 operands and results -/

theorem fp32_ebits : 2 ≤ fp32.ebits := by decide

theorem fp32_qmin : fp32.qmin = -149 := rfl

theorem fp32_qmax : qmax fp32 = 104 := rfl

/-- An FP32 source is a word of its format. -/
theorem srcNum_fp32_lt (s : State) (o : Operand) (L : Nat) : s.srcNum 6 o L < 2 ^ fp32.width := by
  have hmod (x : Nat) : x % 2 ^ typeBits 6 < 2 ^ fp32.width := Nat.mod_lt _ (by decide)
  cases o
  case imm k =>
    have hk : k.toNat < 2 ^ 16 := k.isLt
    show k.toNat * 2 ^ 16 < 2 ^ 32
    omega
  all_goals exact hmod _

/-- A value of a function of this chapter as a lane receives it: a register and flags. -/
def out32 (r : Nat × Flag) : W32 × Flag := (BitVec.ofNat 32 r.1, r.2)

theorem toNat_out32 {r : Nat × Flag} (h : r.1 < 2 ^ fp32.width) : (out32 r).1.toNat = r.1 :=
  Nat.mod_eq_of_lt h

/-- An instruction with a 32-bit floating-point result writes the value and raises the flags of each lane that takes part
(R250). -/
theorem fpu_nextV {i : Instr} {f : Fields} {s : State} {r : State → Nat → Nat × Flag} {v : Nat → W32 × Flag}
    (h : LaneRuns i f s) (hs : sliceOnly i = false) (hv : ∀ L, out32 (r s L) = v L) :
    NextV (issue i f false false (fun s => s.fpu f (r s)) s) s f v := by
  obtain rfl : (fun L => out32 (r s L)) = v := funext hv
  exact nextV_of_flags h hs rfl

theorem frnd_nextV {f : Fields} {s : State} (h : LaneRuns (.frnd f) f s) :
    NextV (exec (.frnd f) s) s f
      (fun L => out32 (fpRnd fp32 (modBits f.m 0 2) (modBits f.m 9 1 = 1) (s.srcNum 6 f.a L))) := by
  rw [exec_frnd]
  exact fpu_nextV h rfl fun _ => rfl

/-! ## FRND (R257) -/

theorem roundAt_zero_left (rm : Nat) (neg : Bool) (e q : Int) : roundAt rm neg 0 e q = (0, false) := by
  simpa using roundAt_mul_two_pow (rm := rm) (neg := neg) (e := e) (q := q) 0 (q - e).toNat (by omega)

/-- The magnitude of round_int, and whether it differs. -/
theorem natAbs_roundInt (rm : Nat) (neg : Bool) (m : Nat) (e : Int) :
    (roundInt rm neg m e).1.natAbs = (roundAt rm neg m e 0).1 := by
  simp only [roundInt]
  split <;> simp

theorem snd_roundInt (rm : Nat) (neg : Bool) (m : Nat) (e : Int) :
    (roundInt rm neg m e).2 = (roundAt rm neg m e 0).2 := rfl

theorem roundInt_changed_iff {rm : Nat} {neg : Bool} {m : Nat} {e : Int} :
    (roundInt rm neg m e).2 = true ↔ ((roundInt rm neg m e).1.natAbs : ℚ) ≠ m * 2 ^ e := by
  rw [natAbs_roundInt, snd_roundInt]
  simpa using roundAt_changed_iff (rm := rm) (neg := neg) (m := m) (e := e) (q := 0)

/-- round_int gives no more digits than its operand has, at a place that is not below the units. -/
theorem exists_roundInt_eq (rm : Nat) (neg : Bool) {m p : Nat} (e : Int) (hm : m < 2 ^ (p + 1)) :
    ∃ c j : Nat, c < 2 ^ (p + 1) ∧ (j : Int) = max e 0 ∧ (roundInt rm neg m e).1.natAbs = c * 2 ^ j := by
  rw [natAbs_roundInt]
  rcases le_or_gt 0 e with hle | hlt
  · refine ⟨m, e.toNat, hm, by omega, ?_⟩
    rw [roundAt_of_le hle, sub_zero]
  · refine ⟨(roundAt rm neg m e 0).1, 0, ?_, by omega, by simp⟩
    obtain ⟨k, hk⟩ : ∃ k : Nat, 0 = e + (k + 1 : Nat) := ⟨(-e - 1).toNat, by omega⟩
    have hkept : m / 2 ^ (k + 1) < 2 ^ p := by
      refine Nat.div_lt_of_lt_mul (hm.trans_le ?_)
      rw [← pow_add]
      exact Nat.pow_le_pow_right (by decide) (by omega)
    have hp : 2 ^ p + 1 ≤ 2 ^ (p + 1) := by rw [pow_succ]; have := Nat.one_le_two_pow (n := p); omega
    rw [roundAt_of_lt hk (by omega)]
    dsimp only
    split <;> omega

section
variable {rm x m : Nat} {dotX neg signalling : Bool} {e : Int}

theorem fpRnd_nan (h : decodeFp fp32 x = .nan signalling) :
    fpRnd fp32 rm dotX x = (0x7FC00000, flagIf signalling fNV) := by
  rw [fpRnd, h]; rfl

theorem fpRnd_inf (hx : x < 2 ^ fp32.width) (h : decodeFp fp32 x = .inf neg) : fpRnd fp32 rm dotX x = (x, 0) := by
  rw [fpRnd, h, eq_infinity_of_decodeFp hx h]

theorem fpRnd_zero (hx : x < 2 ^ fp32.width) (h : decodeFp fp32 x = .fin neg 0 e) : fpRnd fp32 rm dotX x = (x, 0) := by
  have hint : roundInt rm neg 0 e = (0, false) := by simp [roundInt, roundAt_zero_left]
  simp only [fpRnd, h, hint, Bool.and_false, Int.natAbs_zero, roundFp_zero]
  rw [eq_signBit_of_decodeFp hx h]
  rfl

/-- The rounded integer has a word, so that FRND rounds only once. -/
theorem fpRnd_fin (hx : x < 2 ^ fp32.width) (h : decodeFp fp32 x = .fin neg m e) :
    ∃ g q, Normalized fp32 g q ∧ (g : ℚ) * 2 ^ q = ((roundInt rm neg m e).1.natAbs : ℚ) ∧
      fpRnd fp32 rm dotX x =
        (fp32.signBit neg + finiteBits fp32 g q, flagIf (dotX && (roundInt rm neg m e).2) fNX) := by
  obtain ⟨hm, _, hhigh⟩ := bounds_of_decodeFp fp32_ebits hx h
  obtain ⟨c, j, hc, hj, hint⟩ := exists_roundInt_eq rm neg e hm
  rw [fp32_qmax] at hhigh
  obtain ⟨g, q, hg, hvalue, hword⟩ := roundFp_mul_two_pow (e := 0) (j := j) 0 neg hc
    (by rw [fp32_qmin]; omega) (by rw [fp32_qmax]; omega)
  rw [← hint] at hvalue hword
  refine ⟨g, q, hg, by simpa using hvalue, ?_⟩
  simp only [fpRnd, h, hword]

end

/-- Settles O10: round_int of an FP32 value is a value of the format, so that the only rounding is that of R257. -/
theorem floatRoundsToInteger : Obligations.FloatRoundsToInteger := by
  intro s f h
  refine ⟨_, frnd_nextV h, fun L => ?_⟩
  have hx := srcNum_fp32_lt s f.a L
  cases hdec : decodeFp fp32 (s.srcNum 6 f.a L) with
  | nan signalling => exact congrArg out32 (fpRnd_nan hdec)
  | inf neg => exact congrArg out32 (fpRnd_inf hx hdec)
  | fin neg m e =>
    obtain ⟨g, q, hg, hvalue, hrnd⟩ := fpRnd_fin (dotX := decide (modBits f.m 9 1 = 1)) hx hdec
    refine ⟨g, q, ?word, hvalue, ?zero, ?flags⟩
    case word =>
      rw [hrnd, toNat_out32 (finiteBits_lt fp32_ebits neg hg), decodeFp_finiteBits fp32_ebits neg hg]
    case zero =>
      rintro rfl
      exact congrArg out32 (fpRnd_zero hx hdec)
    case flags =>
      simp only [hrnd, out32, flagIf, hvalue, Bool.and_eq_true, decide_eq_true_eq, roundInt_changed_iff]

/-! ## FSCL (R258) -/

/-- The model bounds n, which no result shows: a value of the format overflows, or falls below the half of the least
subnormal, before the bound is reached. -/
theorem roundFp_add_clamp (rm : Nat) (neg : Bool) {m : Nat} {e : Int} (n : Int) (hne : m ≠ 0)
    (hm : m < 2 ^ (fp32.fbits + 1)) (hlow : fp32.qmin ≤ e) (hhigh : e ≤ qmax fp32) :
    roundFp fp32 rm neg m (e + clamp (-1000) 1000 n) = roundFp fp32 rm neg m (e + n) := by
  have hpos := digits_pos hne
  have hdigits : digits m ≤ 24 := digits_le_iff.2 hm
  have hmin := fp32_qmin
  have hmax := fp32_qmax
  have hover (k : Int) (hk : 1000 ≤ k) : roundFp fp32 rm neg m (e + k) = overflowed fp32 rm neg := by
    refine roundFp_of_qmax_lt fp32_ebits hne ?_
    have hfull : fullPlace fp32 m (e + k) = e + k + digits m - 24 := rfl
    omega
  have hunder (k : Int) (hk : k ≤ -1000) := roundFp_of_lt_qmin (rm := rm) (neg := neg) (e := e + k) fp32_ebits hne (by omega)
  unfold clamp
  split
  case isTrue hlt => rw [hunder _ le_rfl, hunder n hlt.le]
  case isFalse =>
    split
    case isTrue hgt => rw [hover _ le_rfl, hover n (le_of_lt hgt)]
    case isFalse => rfl

section
variable {rm x m : Nat} {neg signalling : Bool} {e n : Int}

theorem fpScale_nan (h : decodeFp fp32 x = .nan signalling) :
    fpScale fp32 rm x n = (0x7FC00000, flagIf signalling fNV) := by
  rw [fpScale, h]; rfl

theorem fpScale_inf (hx : x < 2 ^ fp32.width) (h : decodeFp fp32 x = .inf neg) : fpScale fp32 rm x n = (x, 0) := by
  rw [fpScale, h, eq_infinity_of_decodeFp hx h]

theorem fpScale_fin (hx : x < 2 ^ fp32.width) (h : decodeFp fp32 x = .fin neg m e) :
    fpScale fp32 rm x n = if m = 0 then (x, 0) else roundFp fp32 rm neg m (e + n) := by
  simp only [fpScale, h]
  split
  case isTrue hm =>
    subst hm
    rw [roundFp_zero, eq_signBit_of_decodeFp hx h]
  case isFalse hm =>
    obtain ⟨hdigits, hlow, hhigh⟩ := bounds_of_decodeFp fp32_ebits hx h
    exact roundFp_add_clamp rm neg n hm hdigits hlow hhigh

end

/-- Settles O11: the bound that the model sets to n changes no result. -/
theorem floatScales : Obligations.FloatScales := by
  intro s f h
  rw [exec_fscl]
  refine fpu_nextV h rfl fun L => ?_
  have hx := srcNum_fp32_lt s f.a L
  cases hdec : decodeFp fp32 (s.srcNum 6 f.a L) with
  | nan signalling => exact congrArg out32 (fpScale_nan hdec)
  | inf neg => exact congrArg out32 (fpScale_inf hx hdec)
  | fin neg m e =>
    refine (congrArg out32 (fpScale_fin hx hdec)).trans ?_
    exact apply_ite out32 (m = 0) _ _

end Sys2Proof.Proofs.RoundAndScale
end
